-- ==== Sys2Proof/Word.lean ====
section
/-! DEFINITION. The words of the device: bytes, registers and their plainest arithmetic (R3: little-endian). -/

namespace Sys2Proof

/-- One byte of a memory, a message or a packet. -/
abbrev Byte := BitVec 8

/-- A 32-bit register, counter or element. -/
abbrev W32 := BitVec 32

/-- A 64-bit register or argument word. -/
abbrev W64 := BitVec 64

/-- A logical core ID (R15): stack in [12:8], row in [7:4], column in [3:0]. -/
abbrev Lcid := BitVec 16

/-- Rounds `n` up to a multiple of `k`. -/
def roundUp (n k : Nat) : Nat := (n + k - 1) / k * k

/-- The quotient rounded up. -/
def ceilDiv (n k : Nat) : Nat := (n + k - 1) / k

end Sys2Proof
end

