-- ==== Sys2Proof/Types.lean ====
section
/-! DEFINITION. The operand types of the commands: what a row of the opcode table carries besides its name. -/

namespace Sys2Proof

/-- The fields of a tile-program instruction word (R80) and the cycles R93 counts for it. -/
structure Op where
  /-- DST, [55:51]. -/
  dst : BitVec 5
  /-- SRCA, [50:46]. -/
  a : BitVec 5
  /-- SRCB, [45:41]. -/
  b : BitVec 5
  /-- MOD, [40:32]. -/
  mod : BitVec 9
  /-- IMM, [31:0]. -/
  imm : BitVec 32
  /-- Cycles counted against CYCLE_BUDGET (R93) up to and including this instruction. -/
  cyc : Nat
deriving DecidableEq, Repr

/-- The fields of a crumb instruction word (R145). -/
structure CrumbOp where
  /-- QD, [25:23]. -/
  qd : BitVec 3
  /-- QA, [22:20]. -/
  qa : BitVec 3
  /-- QB, [19:17]. -/
  qb : BitVec 3
  /-- IMM, [16:0]. -/
  imm : BitVec 17
deriving DecidableEq, Repr

/-- A crumb unit: the site of its slice (a logical core ID) and its slice bank index (R14). -/
structure UnitId where
  slice : Nat
  bank : Nat
deriving DecidableEq, Repr

/-- A command message a mailbox holds when the Hearth serves it (R377, R389), with what DMA to its host buffer does (R370). -/
structure Msg where
  /-- Mailbox number, 0-255. -/
  mb : Nat
  session : BitVec 16
  key : BitVec 32
  tag : BitVec 16
  seq : BitVec 32
  /-- A reserved header byte is nonzero (R5). -/
  rsv : Bool
  /-- The body, in 8-byte little-endian words. -/
  words : List W64
  /-- The bytes DMA reads from the host buffer; none when the DMA read fails. -/
  dma : Option (List Byte)
  /-- DMA writes of response data succeed. -/
  dmaWr : Bool
deriving DecidableEq, Repr

/-- The kinds of fault site (R297, Table: Action on a lasting fault). -/
inductive SiteUnit where
  | core | bench | lineCache | crumb | sliceCtl | bankStage | router | engine | ge | ioDie
deriving DecidableEq, Repr

/-- A fault site: one physical unit and the check that fired (R297). -/
structure FaultSite where
  stack : Nat
  /-- Physical site, row in [7:4] and column in [3:0]. -/
  site : Nat
  unit : SiteUnit
  /-- Slice bank index or engine number; of the line cache, which of its lines, the last used first. -/
  index : Nat
  /-- The check that fired, by the TYPE of its record (R310). -/
  check : Nat
deriving DecidableEq, Repr

/-- What the surroundings give at a boundary: a check that fires during publish or write-back, and measured energies in µJ. -/
structure BoundaryEnv where
  commitFault : Option FaultSite
  /-- Staged lines, by site and place, whose codes the bank stage finds wrong past correction at write-back (R280). -/
  stageErrs : List (Nat × Nat)
  /-- Journal records, by home stack and INDEX, whose CRC-32C now fails (R280). -/
  badRecords : List (Nat × Nat)
  quadEnergy : List Nat
  /-- Energy of the crumb units of each quadrant's slices, by 4s + q. -/
  crumbEnergy : List Nat
  transitEnergy : List Nat
  ioEnergy : Nat
deriving DecidableEq, Repr

/-- The way of a transfer off its die: the stack it goes to, the engine (8: GE) it leaves by and the one it enters by there
(R259, R262). -/
structure Way where
  stack : Nat
  out : Nat
  enter : Nat
deriving DecidableEq, Repr

/-- One end of a logical route of the mesh: a core, a slice, a multicast group, or the I/O edge of a stack (R234). -/
inductive MeshEnd where
  | core (c : Lcid)
  | slice (site : Nat)
  | group (n : Nat)
  | edge (stack : Nat)
deriving DecidableEq, Repr

/-- A charge of a plan that depends on placement: the worst case of flits along a logical route, and the engine (8: GE) that
carries it to another stack (R52, R234). -/
structure MeshRoute where
  src : MeshEnd
  dst : MeshEnd
  engine : Nat
  flits : Nat
deriving DecidableEq, Repr

/-- The worst case of global frames between two stacks: those that leave the requesting stack, and those that come back (R263). -/
structure GlobalUse where
  src : Nat
  dst : Nat
  out : Nat
  back : Nat
deriving DecidableEq, Repr

/-- A flit on the mesh of one die (R235), as named fields, with its 64-byte payload. -/
structure NetFlit where
  /-- The die whose mesh carries it. -/
  stack : Nat
  tag : BitVec 16
  seq : BitVec 16
  group : BitVec 8
  dest : BitVec 8
  src : BitVec 8
  kind : BitVec 4
  vc : BitVec 2
  poison : Bool
  last : Bool
  status : BitVec 8
  orig : BitVec 5
  sys : Bool
  offset : BitVec 32
  payload : List Byte
  /-- For a fold flit, 256 times the plan slot plus the level of the tree of R244, and the index at that level; for other
  flits, the logical core that began the transfer and the transfer's number. -/
  node : Nat × Nat
  /-- A flit of a fold: `node` is a place of its tree. -/
  ofFold : Bool
  /-- The way off the die of a flit bound for a port, or that brought it here. -/
  far : Option Way
  /-- The logical core the transfer is bound for, which a DESCRIPTOR names; 0xFFFF for the copies of a multicast (R257). -/
  core : Lcid
deriving DecidableEq, Repr

/-- A frame on a die edge (R257), from one engine to another. -/
structure NetFrame where
  src : Nat
  dst : Nat
  fseq : BitVec 16
  /-- The sender's engine, and the engine at the other end. -/
  engine : BitVec 4
  peer : BitVec 4
  kind : BitVec 4
  poison : Bool
  last : Bool
  /-- CRC mismatches this frame has met, and whether it waits to be sent again (R257). -/
  tries : Nat
  held : Bool
  /-- The transfer length of a DESCRIPTOR, in bytes. -/
  length : Nat
  /-- The flit a DATA frame carries, or the first flit's header fields of a DESCRIPTOR; for other kinds, the transfer's. -/
  flit : NetFlit
deriving DecidableEq, Repr

/-- A TLink packet (R273), as named fields. -/
structure Packet where
  destDev : BitVec 16
  srcDev : BitVec 16
  route : BitVec 8
  linkSeq : BitVec 16
  tag : BitVec 16
  ring : BitVec 8
  status : BitVec 8
  plan : BitVec 16
  seq : BitVec 32
  srcIndex : Nat
  payload : List Byte
deriving DecidableEq, Repr

/-- A lane of a die-edge link of a stack: link 0 OP0, 1 OP1, 2 control bundle (R255); or, with stack 31, of TLink port
link − 3 (R272). -/
structure LaneId where
  stack : Nat
  link : Nat
  rx : Bool
  lane : Nat
deriving DecidableEq, Repr

/-- One sample of a quadrant's three sensors, signed 1/16 °C (R317). -/
structure SensorTriple where
  a : BitVec 16
  b : BitVec 16
  c : BitVec 16
deriving DecidableEq, Repr

/-- What the peer of a TLink port sends at link-up (R274), and the lanes training found bad. -/
structure PeerInfo where
  addr : BitVec 9
  port : Nat
  /-- Lanes found bad in each direction, from this device and to it. -/
  badTx : BitVec 9
  badRx : BitVec 9
deriving DecidableEq, Repr

/-- The bad lanes that training or a retest of one link found (R265, R267). -/
structure LinkResult where
  stack : Nat
  link : Nat
  badTx : BitVec 34
  badRx : BitVec 34
deriving DecidableEq, Repr

/-- What the supply monitor measured up to the release of PERST_N (R438). -/
structure PowerEnv where
  railsValid : Bool
  inOrder : Bool
  /-- Measured time from the last rail to the release, in ms. -/
  releaseMs : Nat
deriving DecidableEq, Repr

/-- How stage P1 ends (R349). -/
inductive P1Result where
  | passed | clock
deriving DecidableEq, Repr

/-- What stage P2 reads (R349, R403). -/
structure P2Result where
  ioFusesOk : Bool
  unread : List Nat
  authFail : List Nat
  /-- Parts of the fault map that lie in a lost block, numbered in the order of R308 as FAULT_MAP_READ does (log 60). -/
  mapLost : List Nat
  /-- LOG_INDEXes of records that fail their CRC-32C or whose block reads as lost (R280). -/
  lostRecords : List Nat
  /-- The copies of NEXT_INDEX, 0 and 1, that fail their CRC-32C (R406). -/
  badCopies : List Nat
deriving DecidableEq, Repr

/-- A DRAM row found lasting by a test (R353): bank, row, and whether a word is uncorrectable or two words are bad (R287). -/
structure RowFinding where
  site : Nat
  bank : Nat
  row : Nat
deriving DecidableEq, Repr

/-- What stage P4 finds on one stack (R349, R353): slices that fail timing, rows with lasting words, and rows with a word that
failed on one pattern only. -/
structure P4Result where
  timingFail : List Nat
  rows : List RowFinding
  transient : List RowFinding
deriving DecidableEq, Repr

/-- What stage P5 finds on one stack (R349, R356, R358). -/
structure P5Result where
  badCores : List Nat
  badUnits : List FaultSite
deriving DecidableEq, Repr

/-- A word of a scrubbed row found wrong: its index in the row, and whether it cannot be corrected (R285). -/
structure WordError where
  word : Nat
  uncorrectable : Bool
deriving DecidableEq, Repr

/-- The rails of R435. -/
inductive Rail where
  | vcore | vtransit | vdram | vpp | viod | vser | vserh | vpho | vlas | vaon | vio18
deriving DecidableEq, Repr

/-- The reference clocks of R442. -/
inductive RefClock where
  | sysclk | pcie | tlink
deriving DecidableEq, Repr

end Sys2Proof
end

