-- ==== Sys2Proof/Syntax.lean ====
section
/-! DEFINITION. The commands of the block: one constructor per row of spec/opcode_table.json, in its order. -/

namespace Sys2Proof

/-- The commands. Each docstring names the row and its rule. -/
inductive Instr where
  /-- INTERNAL_BOUNDARY, R31. -/
  | internalBoundary (e : BoundaryEnv)
  /-- TICK_IN_EDGE, R31. -/
  | tickInEdge (dt high : Nat) (e : BoundaryEnv)
  /-- FLYWHEEL_BOUNDARY, R31. -/
  | flywheelBoundary (e : BoundaryEnv)
  /-- TICK_SOURCE_LOST, R31. -/
  | tickSourceLost
  /-- ATTEMPT_ABANDON, R48. -/
  | attemptAbandon
  /-- CORE_COMPLETION_REPORT, R82. -/
  | coreCompletionReport (c : Lcid)
  /-- COLLECTION_REPORT, R35. -/
  | collectionReport (stack : Nat)
  /-- FAULT_REPORT, R297. -/
  | faultReport (f : FaultSite)
  /-- SPARE_SHIFT, R301. -/
  | spareShift (patrolFail : Option Nat)
  /-- NOP, R81. -/
  | nop (c : Lcid) (o : Op)
  /-- ADD, R81. -/
  | add (c : Lcid) (o : Op)
  /-- SUB, R81. -/
  | sub (c : Lcid) (o : Op)
  /-- MUL, R81. -/
  | mul (c : Lcid) (o : Op)
  /-- AND, R81. -/
  | and (c : Lcid) (o : Op)
  /-- OR, R81. -/
  | or (c : Lcid) (o : Op)
  /-- XOR, R81. -/
  | xor (c : Lcid) (o : Op)
  /-- SHL, R81. -/
  | shl (c : Lcid) (o : Op)
  /-- SHR, R81. -/
  | shr (c : Lcid) (o : Op)
  /-- SRA, R81. -/
  | sra (c : Lcid) (o : Op)
  /-- CMP, R81. -/
  | cmp (c : Lcid) (o : Op)
  /-- LI, R81. -/
  | li (c : Lcid) (o : Op)
  /-- LD, R81. -/
  | ld (c : Lcid) (o : Op)
  /-- ST, R81. -/
  | st (c : Lcid) (o : Op)
  /-- BR, R81. -/
  | br (c : Lcid) (o : Op)
  /-- CALL, R81. -/
  | call (c : Lcid) (o : Op)
  /-- RET, R81. -/
  | ret (c : Lcid) (o : Op)
  /-- LOOP, R82. -/
  | loop (c : Lcid) (o : Op)
  /-- HALT, R82. -/
  | halt (c : Lcid) (o : Op)
  /-- RDCSR, R83. -/
  | rdcsr (c : Lcid) (o : Op)
  /-- WRCSR, R83. -/
  | wrcsr (c : Lcid) (o : Op)
  /-- DSET, R84. -/
  | dset (c : Lcid) (o : Op)
  /-- DMOD, R84. -/
  | dmod (c : Lcid) (o : Op)
  /-- TLOAD, R84. -/
  | tload (c : Lcid) (o : Op)
  /-- TSTORE, R85. -/
  | tstore (c : Lcid) (o : Op)
  /-- SLICE_TRANSFER_DONE, R117. -/
  | sliceTransferDone (c : Lcid)
  /-- TCOPY, R84. -/
  | tcopy (c : Lcid) (o : Op)
  /-- TZERO, R84. -/
  | tzero (c : Lcid) (o : Op)
  /-- ALOAD, R84. -/
  | aload (c : Lcid) (o : Op)
  /-- ASTORE, R84. -/
  | astore (c : Lcid) (o : Op)
  /-- AZERO, R84. -/
  | azero (c : Lcid) (o : Op)
  /-- SLD, R137. -/
  | sld (c : Lcid) (o : Op)
  /-- MMA, R86. -/
  | mma (c : Lcid) (o : Op)
  /-- AADD, R86. -/
  | aadd (c : Lcid) (o : Op)
  /-- AMOV, R86. -/
  | amov (c : Lcid) (o : Op)
  /-- ASCALE, R86. -/
  | ascale (c : Lcid) (o : Op)
  /-- VADD, R88. -/
  | vadd (c : Lcid) (o : Op)
  /-- VSUB, R88. -/
  | vsub (c : Lcid) (o : Op)
  /-- VMUL, R88. -/
  | vmul (c : Lcid) (o : Op)
  /-- VFMA, R88. -/
  | vfma (c : Lcid) (o : Op)
  /-- VMAX, R88. -/
  | vmax (c : Lcid) (o : Op)
  /-- VMIN, R88. -/
  | vmin (c : Lcid) (o : Op)
  /-- VSCALE, R88. -/
  | vscale (c : Lcid) (o : Op)
  /-- VADDS, R88. -/
  | vadds (c : Lcid) (o : Op)
  /-- VFUNC, R89. -/
  | vfunc (c : Lcid) (o : Op)
  /-- VRSUM, R89. -/
  | vrsum (c : Lcid) (o : Op)
  /-- VRMAX, R89. -/
  | vrmax (c : Lcid) (o : Op)
  /-- VBADD, R88. -/
  | vbadd (c : Lcid) (o : Op)
  /-- VBMUL, R88. -/
  | vbmul (c : Lcid) (o : Op)
  /-- VCMUL, R88. -/
  | vcmul (c : Lcid) (o : Op)
  /-- TCOUNT, R60. -/
  | tcount (c : Lcid) (o : Op)
  /-- TIN, R60. -/
  | tin (c : Lcid) (o : Op)
  /-- RCFG, R95. -/
  | rcfg (c : Lcid) (o : Op)
  /-- RGATE, R101. -/
  | rgate (c : Lcid) (o : Op)
  /-- RSEND, R104. -/
  | rsend (c : Lcid) (o : Op)
  /-- RRECV, R105. -/
  | rrecv (c : Lcid) (o : Op)
  /-- RRET, R106. -/
  | rret (c : Lcid) (o : Op)
  /-- RCOMB, R106. -/
  | rcomb (c : Lcid) (o : Op)
  /-- REXIT, R107. -/
  | rexit (c : Lcid) (o : Op)
  /-- RCOMPACT, R107. -/
  | rcompact (c : Lcid) (o : Op)
  /-- RSTAT, R110. -/
  | rstat (c : Lcid) (o : Op)
  /-- SCFG, R196. -/
  | scfg (c : Lcid) (o : Op)
  /-- SWALK, R201. -/
  | swalk (c : Lcid) (o : Op)
  /-- SAPPEND, R199. -/
  | sappend (c : Lcid) (o : Op)
  /-- SMERGE, R193. -/
  | smerge (c : Lcid) (o : Op)
  /-- SNORM, R194. -/
  | snorm (c : Lcid) (o : Op)
  /-- SLEN, R200. -/
  | slen (c : Lcid) (o : Op)
  /-- SSTAT, R200. -/
  | sstat (c : Lcid) (o : Op)
  /-- CVEC, R150. -/
  | cvec (c : Lcid) (o : Op)
  /-- CISSUE, R150. -/
  | cissue (c : Lcid) (o : Op)
  /-- CRUMB_PROGRAM_START, R150. -/
  | crumbProgramStart (u : UnitId)
  /-- CRUMB_GRANT, R156. -/
  | crumbGrant (slice : Nat)
  /-- FENCE_CRUMB, R151. -/
  | fenceCrumb (c : Lcid) (o : Op)
  /-- CSTAT, R149. -/
  | cstat (c : Lcid) (o : Op)
  /-- END, R146. -/
  | endProgram (u : UnitId) (o : CrumbOp)
  /-- LDI, R146. -/
  | ldi (u : UnitId) (o : CrumbOp)
  /-- ADDI, R146. -/
  | addi (u : UnitId) (o : CrumbOp)
  /-- CRUMB_ADD, R146. -/
  | crumbAdd (u : UnitId) (o : CrumbOp)
  /-- CRUMB_SUB, R146. -/
  | crumbSub (u : UnitId) (o : CrumbOp)
  /-- FMT, R146. -/
  | fmt (u : UnitId) (o : CrumbOp)
  /-- MV, R142. -/
  | mv (u : UnitId) (o : CrumbOp)
  /-- CLRA, R146. -/
  | clra (u : UnitId) (o : CrumbOp)
  /-- RETV, R159. -/
  | retv (u : UnitId) (o : CrumbOp)
  /-- STV, R159. -/
  | stv (u : UnitId) (o : CrumbOp)
  /-- CRUMB_LOOP, R146. -/
  | crumbLoop (u : UnitId) (o : CrumbOp)
  /-- NPUT, R250. -/
  | nput (c : Lcid) (o : Op)
  /-- MCAST, R242. -/
  | mcast (c : Lcid) (o : Op)
  /-- MCAST_ABANDON, R242. -/
  | mcastAbandon (c : Lcid) (n : Nat)
  /-- FOLD, R244. -/
  | fold (c : Lcid) (o : Op)
  /-- NWAIT, R251. -/
  | nwait (c : Lcid) (o : Op)
  /-- NSYNC, R250. -/
  | nsync (c : Lcid) (o : Op)
  /-- STSEND, R262. -/
  | stsend (c : Lcid) (o : Op)
  /-- NSTAT, R250. -/
  | nstat (c : Lcid) (o : Op)
  /-- NETWORK_TRANSFER_DONE, R241. -/
  | networkTransferDone (c : Lcid) (n : Nat)
  /-- WINDOW_COMPLETE, R239. -/
  | windowComplete (c : Lcid) (xfer : Nat)
  /-- FLIT_READ_REQ, R235. -/
  | flitReadReq (f : NetFlit) (bad : List Nat)
  /-- FLIT_READ_DATA, R235. -/
  | flitReadData (f : NetFlit) (bad : List Nat)
  /-- FLIT_WRITE, R235. -/
  | flitWrite (f : NetFlit) (bad : List Nat)
  /-- FLIT_PUT, R239. -/
  | flitPut (f : NetFlit) (bad : List Nat)
  /-- FLIT_MCAST, R242. -/
  | flitMcast (f : NetFlit) (bad : List Nat) (full : Bool)
  /-- FLIT_FOLD, R245. -/
  | flitFold (f : NetFlit) (bad : List Nat)
  /-- FLIT_ROUTE, R105. -/
  | flitRoute (f : NetFlit) (bad : List Nat)
  /-- FLIT_CRUMB, R236. -/
  | flitCrumb (f : NetFlit) (bad : List Nat)
  /-- FLIT_NACK, R242. -/
  | flitNack (f : NetFlit) (bad : List Nat)
  /-- FLIT_COMPLETE, R241. -/
  | flitComplete (f : NetFlit) (bad : List Nat)
  /-- FLIT_CREDIT, R245. -/
  | flitCredit (f : NetFlit) (bad : List Nat)
  /-- FLIT_CTRL, R249. -/
  | flitCtrl (f : NetFlit) (bad : List Nat)
  /-- FRAME_DESCRIPTOR, R257. -/
  | frameDescriptor (f : NetFrame) (bad : Nat)
  /-- FRAME_DATA, R262. -/
  | frameData (f : NetFrame) (bad : Nat)
  /-- FRAME_COMPLETE, R262. -/
  | frameComplete (f : NetFrame) (bad : Nat)
  /-- FRAME_CREDIT, R257. -/
  | frameCredit (f : NetFrame) (bad : Nat)
  /-- FRAME_REPLAY_REQ, R257. -/
  | frameReplayReq (f : NetFrame) (bad : Nat)
  /-- FRAME_IDLE, R258. -/
  | frameIdle (f : NetFrame) (bad : Nat)
  /-- BUNDLE_FRAME_TIMEOUT, R269. -/
  | bundleFrameTimeout (stack : Nat)
  /-- IO_DIE_FRAME_TIMEOUT, R269. -/
  | ioDieFrameTimeout (stack : Nat)
  /-- STACK_RESET, R269. -/
  | stackReset (stack : Nat)
  /-- LANE_MARGIN_SAMPLE, R266. -/
  | laneMarginSample (ln : LaneId) (replays : Nat) (failing : Bool)
  /-- LANE_SWAP, R266. -/
  | laneSwap (ln : LaneId)
  /-- LASER_LOSS, R268. -/
  | laserLoss
  /-- TLINK_INPUT, R277. -/
  | tlinkInput (port : Nat) (p : Packet) (bad : Nat)
  /-- TLINK_ACK, R277. -/
  | tlinkAck (port : Nat) (p : Packet) (bad : Nat)
  /-- TLINK_HOLD, R277. -/
  | tlinkHold (port : Nat) (p : Packet) (bad : Nat)
  /-- TLINK_RELEASE, R277. -/
  | tlinkRelease (port : Nat) (p : Packet) (bad : Nat)
  /-- TLINK_MGMT, R275. -/
  | tlinkMgmt (port : Nat) (p : Packet) (bad : Nat)
  /-- TLINK_LINK_UP, R274. -/
  | tlinkLinkUp (port : Nat) (peer : PeerInfo)
  /-- TLINK_STALE, R277. -/
  | tlinkStale (ring : Nat)
  /-- JOURNAL_WRITE, R42. -/
  | journalWrite
  /-- SENSOR_SAMPLE, R317. -/
  | sensorSample (r : List SensorTriple)
  /-- REFRESH_BAND_FALL, R125. -/
  | refreshBandFall (quad : Nat)
  /-- SENSOR_SPLIT_CLEAR, R318. -/
  | sensorSplitClear (quad : Nat)
  /-- RACK_RESTART, R327. -/
  | rackRestart
  /-- SUDDEN_STOP, R333. -/
  | suddenStop (flow : Bool)
  /-- SUDDEN_STOP_CLEAR, R334. -/
  | suddenStopClear
  /-- COOLANT_REPORT_LOST, R329. -/
  | coolantReportLost
  /-- COOLING_DEGRADED, R332. -/
  | coolingDegraded
  /-- COOLING_DEGRADED_STEP, R332. -/
  | coolingDegradedStep
  /-- COOLING_RESTORED, R332. -/
  | coolingRestored
  /-- THROTTLE_CAP_RAISE, R322. -/
  | throttleCapRaise
  /-- REFRESH, R126. -/
  | refresh (slice : Nat)
  /-- PATROL_SCRUB, R284. -/
  | patrolScrub (slice : Nat) (errs : List WordError)
  /-- SCRUB_PAUSE_EXPIRY, R284. -/
  | scrubPauseExpiry
  /-- SCRUB_POSITION_SAVE, R284. -/
  | scrubPositionSave
  /-- DRAM_RETRAIN, R127. -/
  | dramRetrain (slice : Nat)
  /-- REWRITE_REREAD, R286. -/
  | rewriteReread (word : Nat) (again : Bool)
  /-- FAULT_LOG_COPY, R309. -/
  | faultLogCopy
  /-- FAULT_MAP_WRITE, R291. -/
  | faultMapWrite
  /-- HEARTH_WATCHDOG_EXPIRY, R307. -/
  | hearthWatchdogExpiry
  /-- SEAL_SIGNATURE_DONE, R221. -/
  | sealSignatureDone
  /-- QUOTE_SIGNED, R415. -/
  | quoteSigned
  /-- DEBUG_LEVEL_LAPSE, R416. -/
  | debugLevelLapse (session : Nat)
  /-- NONCE_EXPIRY, R417. -/
  | nonceExpiry (fn : Nat)
  /-- FW_STAGING_EXPIRY, R398. -/
  | fwStagingExpiry
  /-- FIRMWARE_HANDOVER, R399. -/
  | firmwareHandover (ok : Bool)
  /-- ZEROING_DONE, R136. -/
  | zeroingDone
  /-- QUADRANT_READY, R339. -/
  | quadrantReady (quad : Nat)
  /-- POWER_STATE_ENTRY, R337. -/
  | powerStateEntry
  /-- PERST_N_RELEASE, R347. -/
  | perstNRelease (e : PowerEnv)
  /-- PERST_N_ASSERT, R362. -/
  | perstNAssert
  /-- STAGE_P0, R349. -/
  | stageP0 (ok : Bool)
  /-- STAGE_P1, R349. -/
  | stageP1 (ok : P1Result)
  /-- STAGE_P2, R349. -/
  | stageP2 (r : P2Result)
  /-- STAGE_P3, R265. -/
  | stageP3 (r : List LinkResult)
  /-- STAGE_P4, R352. -/
  | stageP4 (scope : Nat) (r : P4Result)
  /-- STAGE_P5, R349. -/
  | stageP5 (scope : Nat) (r : P5Result)
  /-- STAGE_P6, R356. -/
  | stageP6 (scope : Nat)
  /-- STAGE_P7, R397. -/
  | stageP7
  /-- STAGE_P8, R349. -/
  | stageP8 (failed : List FaultSite)
  /-- STAGE_P9, R349. -/
  | stageP9
  /-- STAGE_TIMEOUT, R349. -/
  | stageTimeout (scope : Nat)
  /-- P4_COLD_WAIT_TIMEOUT, R355. -/
  | p4ColdWaitTimeout (stack : Nat)
  /-- P5_COLD_TIMEOUT, R355. -/
  | p5ColdTimeout (quad : Nat)
  /-- SUPPLY_FAULT, R440. -/
  | supplyFault (rail : Rail)
  /-- VCORE_RESTORE, R441. -/
  | vcoreRestore
  /-- REFERENCE_CLOCK_LOSS, R443. -/
  | referenceClockLoss (clk : RefClock)
  /-- FUNCTION_LEVEL_RESET, R385. -/
  | functionLevelReset (fn : Nat)
  /-- CONFIG_REQUEST, R444. -/
  | configRequest
  /-- BAR2_READ, R369. -/
  | bar2Read (off len : Nat)
  /-- BAR2_WRITE, R130. -/
  | bar2Write (off : Nat) (data : List Byte) (poisoned : Bool)
  /-- MAILBOX_GO, R375. -/
  | mailboxGo (mb : Nat) (v : BitVec 32)
  /-- EV_TAIL_WRITE, R374. -/
  | evTailWrite (mb : Nat) (v : BitVec 32)
  /-- COUNTER_CLEAR, R7. -/
  | counterClear (off : Nat) (v : BitVec 32)
  /-- PERIOD_NS_WRITE, R58. -/
  | periodNsWrite (v : BitVec 32)
  /-- SOURCE_WRITE, R31. -/
  | sourceWrite (v : BitVec 32)
  /-- WRAP_EN_WRITE, R59. -/
  | wrapEnWrite (v : BitVec 32)
  /-- RATE_WRITE, R132. -/
  | rateWrite (quad : Nat) (stream : Bool) (v : BitVec 32)
  /-- GLOBAL_STEPS_WRITE, R136. -/
  | globalStepsWrite (v : BitVec 32)
  /-- BUDGET_WRITE, R157. -/
  | budgetWrite (v : BitVec 32)
  /-- GLOBAL_WAVES_WRITE, R264. -/
  | globalWavesWrite (v : BitVec 32)
  /-- BAR2_BASE_WRITE, R401. -/
  | bar2BaseWrite (v : BitVec 64)
  /-- THERMAL_CONFIG_WRITE, R346. -/
  | thermalConfigWrite (off : Nat) (v : BitVec 32)
  /-- MAX_RECOVERY_NS_READ, R315. -/
  | maxRecoveryNsRead
  /-- REGISTER_WRITE, R4. -/
  | registerWrite (off size : Nat) (v : BitVec 64)
  /-- SIDEBAND_REPORT, R452. -/
  | sidebandReport (inlet flow : BitVec 16)
  /-- SIDEBAND_WAKE, R451. -/
  | sidebandWake
  /-- I3C_DYNAMIC_ADDRESS, R450. -/
  | i3cDynamicAddress (a : BitVec 7)
  /-- IDCODE, R453. -/
  | idcode
  /-- SAMPLE_PRELOAD, R422. -/
  | samplePreload
  /-- EXTEST, R422. -/
  | extest
  /-- EXTEST_PULSE, R422. -/
  | extestPulse
  /-- EXTEST_TRAIN, R422. -/
  | extestTrain
  /-- DBG_ACCESS, R422. -/
  | dbgAccess (a : BitVec 32) (w : Option (BitVec 32))
  /-- BYPASS, R453. -/
  | bypass
  /-- TAP_RESET, R453. -/
  | tapReset (por : Bool)
  /-- SEQ_OPEN, R207. -/
  | seqOpen (m : Msg)
  /-- SEQ_CLOSE, R185. -/
  | seqClose (m : Msg)
  /-- SEQ_HOLD, R207. -/
  | seqHold (m : Msg)
  /-- SEQ_RELEASE, R205. -/
  | seqRelease (m : Msg)
  /-- SEQ_INGEST, R392. -/
  | seqIngest (m : Msg)
  /-- SEQ_READ, R389. -/
  | seqRead (m : Msg)
  /-- PLAN_LOAD, R50. -/
  | planLoad (m : Msg)
  /-- PLAN_UNLOAD, R54. -/
  | planUnload (m : Msg)
  /-- PLAN_ADMIT, R461. -/
  | planAdmit (m : Msg)
  /-- PLAN_SUSPEND, R54. -/
  | planSuspend (m : Msg)
  /-- PLAN_RESUME, R461. -/
  | planResume (m : Msg)
  /-- PLAN_READ, R389. -/
  | planRead (m : Msg)
  /-- TICK_SET_PERIOD, R30. -/
  | tickSetPeriod (m : Msg)
  /-- TICK_SET_SOURCE, R31. -/
  | tickSetSource (m : Msg)
  /-- TICK_READ, R58. -/
  | tickRead (m : Msg)
  /-- TICK_CNT_CLEAR, R7. -/
  | tickCntClear (m : Msg)
  /-- TICK_WRAP_EN, R59. -/
  | tickWrapEn (m : Msg)
  /-- MEM_READ, R390. -/
  | memRead (m : Msg)
  /-- MEM_WRITE, R391. -/
  | memWrite (m : Msg)
  /-- MEM_FENCE, R154. -/
  | memFence (m : Msg)
  /-- MEM_CONFIG, R136. -/
  | memConfig (m : Msg)
  /-- MEM_WINDOW_SET, R369. -/
  | memWindowSet (m : Msg)
  /-- KV_LAYOUT_SET, R171. -/
  | kvLayoutSet (m : Msg)
  /-- KV_POOL_CREATE, R173. -/
  | kvPoolCreate (m : Msg)
  /-- KV_POOL_DESTROY, R207. -/
  | kvPoolDestroy (m : Msg)
  /-- KV_FORK, R183. -/
  | kvFork (m : Msg)
  /-- KV_TRUNCATE, R207. -/
  | kvTruncate (m : Msg)
  /-- KV_RETIRE_PAGES, R185. -/
  | kvRetirePages (m : Msg)
  /-- KV_MAP, R207. -/
  | kvMap (m : Msg)
  /-- KV_UNMAP, R207. -/
  | kvUnmap (m : Msg)
  /-- KV_READ, R187. -/
  | kvRead (m : Msg)
  /-- KV_RETIRE_FRAME, R189. -/
  | kvRetireFrame (m : Msg)
  /-- KV_REPAGE, R205. -/
  | kvRepage (m : Msg)
  /-- KV_REHOME, R205. -/
  | kvRehome (m : Msg)
  /-- KV_RESTORE, R205. -/
  | kvRestore (m : Msg)
  /-- KV_DIGEST, R206. -/
  | kvDigest (m : Msg)
  /-- EVD_CAPTURE, R215. -/
  | evdCapture (m : Msg)
  /-- EVD_SEAL, R221. -/
  | evdSeal (m : Msg)
  /-- EVD_READ, R223. -/
  | evdRead (m : Msg)
  /-- EVD_LINKS, R223. -/
  | evdLinks (m : Msg)
  /-- EVD_JOURNAL_READ, R223. -/
  | evdJournalRead (m : Msg)
  /-- EVD_ACK, R223. -/
  | evdAck (m : Msg)
  /-- EVD_STATUS, R223. -/
  | evdStatus (m : Msg)
  /-- EVD_REPLAY_BEGIN, R225. -/
  | evdReplayBegin (m : Msg)
  /-- EVD_REPLAY_TICK, R226. -/
  | evdReplayTick (m : Msg)
  /-- EVD_REPLAY_END, R226. -/
  | evdReplayEnd (m : Msg)
  /-- NET_READ, R254. -/
  | netRead (m : Msg)
  /-- NET_CNT_CLEAR, R254. -/
  | netCntClear (m : Msg)
  /-- LINK_SET_ADDR, R274. -/
  | linkSetAddr (m : Msg)
  /-- LINK_RETRAIN, R266. -/
  | linkRetrain (m : Msg)
  /-- LINK_REJOIN, R271. -/
  | linkRejoin (m : Msg)
  /-- LINK_GLOBAL_WAVES, R264. -/
  | linkGlobalWaves (m : Msg)
  /-- LINK_READ, R278. -/
  | linkRead (m : Msg)
  /-- THERM_READ, R343. -/
  | thermRead (m : Msg)
  /-- THERM_TELEMETRY_READ, R342. -/
  | thermTelemetryRead (m : Msg)
  /-- THERM_CALIBRATE, R330. -/
  | thermCalibrate (m : Msg)
  /-- THERM_FLOW_MIN, R343. -/
  | thermFlowMin (m : Msg)
  /-- THERM_WARMUP, R328. -/
  | thermWarmup (m : Msg)
  /-- PWR_STATE, R337. -/
  | pwrState (m : Msg)
  /-- PWR_GATE, R339. -/
  | pwrGate (m : Msg)
  /-- PWR_UNGATE, R339. -/
  | pwrUngate (m : Msg)
  /-- PWR_CLOCK_HALF, R233. -/
  | pwrClockHalf (m : Msg)
  /-- PWR_STACK_OFF, R339. -/
  | pwrStackOff (m : Msg)
  /-- PWR_STACK_ON, R339. -/
  | pwrStackOn (m : Msg)
  /-- PWR_READ, R343. -/
  | pwrRead (m : Msg)
  /-- FAULT_LOG_READ, R311. -/
  | faultLogRead (m : Msg)
  /-- FAULT_MAP_READ, R311. -/
  | faultMapRead (m : Msg)
  /-- FAULT_RETIRE, R293. -/
  | faultRetire (m : Msg)
  /-- FAULT_SCRUB, R284. -/
  | faultScrub (m : Msg)
  /-- FAULT_INJECT, R312. -/
  | faultInject (m : Msg)
  /-- FAULT_DRAM_FUSE, R291. -/
  | faultDramFuse (m : Msg)
  /-- SEC_SESSION_OPEN, R381. -/
  | secSessionOpen (m : Msg)
  /-- SEC_SESSION_CLOSE, R384. -/
  | secSessionClose (m : Msg)
  /-- SEC_SESSION_ADOPT, R384. -/
  | secSessionAdopt (m : Msg)
  /-- SEC_SESSION_READ, R389. -/
  | secSessionRead (m : Msg)
  /-- SEC_FUNCTION_LIMIT, R383. -/
  | secFunctionLimit (m : Msg)
  /-- SEC_MAILBOX_ASSIGN, R383. -/
  | secMailboxAssign (m : Msg)
  /-- SEC_EXPERT_OPEN, R386. -/
  | secExpertOpen (m : Msg)
  /-- SEC_EXPERT_CLOSE, R386. -/
  | secExpertClose (m : Msg)
  /-- SEC_NONCE, R417. -/
  | secNonce (m : Msg)
  /-- SEC_QUOTE, R415. -/
  | secQuote (m : Msg)
  /-- SEC_CERT_READ, R404. -/
  | secCertRead (m : Msg)
  /-- SEC_PROVISION, R405. -/
  | secProvision (m : Msg)
  /-- SEC_CERT_INSTALL, R405. -/
  | secCertInstall (m : Msg)
  /-- SEC_DEPLOY, R413. -/
  | secDeploy (m : Msg)
  /-- SEC_RETURN, R414. -/
  | secReturn (m : Msg)
  /-- SEC_SVN_COMMIT, R411. -/
  | secSvnCommit (m : Msg)
  /-- DBG_READ, R425. -/
  | dbgRead (m : Msg)
  /-- DBG_WRITE, R425. -/
  | dbgWrite (m : Msg)
  /-- DBG_SCAN, R423. -/
  | dbgScan (m : Msg)
  /-- DBG_TAP_OPEN, R422. -/
  | dbgTapOpen (m : Msg)
  /-- DBG_CLOSE, R427. -/
  | dbgClose (m : Msg)
  /-- FW_LOAD, R397. -/
  | fwLoad (m : Msg)
  /-- FW_REPLACE, R398. -/
  | fwReplace (m : Msg)
  /-- FW_ACTIVATE, R399. -/
  | fwActivate (m : Msg)
  /-- FW_STATUS, R397. -/
  | fwStatus (m : Msg)
  /-- CAP_READ, R371. -/
  | capRead (m : Msg)
  /-- CAP_EVENT_READ, R395. -/
  | capEventRead (m : Msg)
  /-- CAP_STATUS, R388. -/
  | capStatus (m : Msg)
  /-- QUOTA_SLICE_SET, R132. -/
  | quotaSliceSet (m : Msg)
  /-- QUOTA_STREAM_SET, R132. -/
  | quotaStreamSet (m : Msg)
  /-- QUOTA_CRUMB_SET, R157. -/
  | quotaCrumbSet (m : Msg)
  /-- QUOTA_READ, R388. -/
  | quotaRead (m : Msg)
  /-- TLINK_PORT_DOWN, R275. -/
  | tlinkPortDown (port : Nat)
  /-- STACK_RESET_RELEASE, R267. -/
  | stackResetRelease (stack : Nat) (r : List LinkResult)
  /-- STACK_CLOCK_REGAINED, R267. -/
  | stackClockRegained (stack : Nat) (r : List LinkResult)
  /-- SERIAL_SUPPLY_RETURN, R440. -/
  | serialSupplyReturn
  /-- REFERENCE_CLOCK_RETURN, R443. -/
  | referenceClockReturn (clk : RefClock)
deriving DecidableEq, Repr

end Sys2Proof
end

