-- ==== Sys2Proof/Config.lean ====
section
/-! DEFINITION. The values the spec leaves open: opaque constants, of which no proof can learn a value. -/

namespace Sys2Proof.Config

/-- A free 64-bit value, by the draw that `State.fresh` counts (log 7). -/
opaque freeWord : Nat → BitVec 64

/-- A free byte, by draw and place (log 7). -/
opaque freeByte : Nat → Nat → Byte

/-- A free count, by draw (log 7). -/
opaque freeNat : Nat → Nat

/-- The security engine's random source, by draw (R381, R405, R417; log 9). -/
opaque random : Nat → List Byte

/-- VFUNC functions by code and FP32 input, where R89 fixes an error bound and no value (log 10). -/
opaque vfunc : Nat → BitVec 32 → BitVec 32

/-- The cost vector of a plan image, but for what depends on placement: resource of R52, what it is charged on, and how much
(log 11). -/
opaque decodeCosts : List Byte → List (Nat × Nat × Nat)

/-- The flits of a cost vector along each logical route, folds apart (R52, R234; log 11). -/
opaque decodeRoutes : List Byte → List MeshRoute

/-- The global frames of a cost vector between stacks (R263; log 11). -/
opaque decodeGlobals : List Byte → List GlobalUse

/-- How the forecasts of R330 and R331 round their last place, by the reading, the value it settles at and the fraction of the way it
goes; taken as −1, 0 or 1 (log 12). -/
opaque forecastRound : Int → Int → Nat → Int

/-- The signature the security engine makes over a message with an index (RFC 8391; log 9). -/
opaque xmssSign : Nat → List Byte → List Byte

/-- Whether a signature over a message verifies under a scheme code and a key (RFC 8391; log 9). -/
opaque xmssVerify : Nat → List Byte → List Byte → List Byte → Bool

/-- The identity public key SEC_PROVISION generates (R405; log 9). -/
opaque identityKey : List Byte

/-- SHAKE256("TZ-DIE" ‖ die secret) of the I/O die, 0, and of the logic die of stack `s`, 1 + s (R404; log 9). -/
opaque dieDigest : Nat → List Byte

/-- The layout of bytes a bit of state is scanned into by DBG_SCAN and the boundary-scan chain (R422, R423; log 21). -/
opaque scanBytes : Nat → List Byte

/-- Where in the table store the device begins to look for a free table for a copy of a group's directory, at 0, or of its leaf `n`, at
n + 1 (R186; log 46). -/
opaque tableIndex : Nat → Nat → Nat → Nat

/-- MASS of a partial that no SNORM with CAPTURE has written, by its *m* and *ℓ* (R195, R197; log 108). -/
opaque massWord : BitVec 32 → BitVec 32 → BitVec 32

/-- BAR0 offset of the floor-plan record, which capability 0x0002 gives (log 22). -/
opaque floorPlanOffset : Nat

/-- The expert register blocks that capability 0x0013 lists: subject and BAR0 offset (R372; log 22). -/
opaque expertBlocks : List (Nat × Nat)

/-- The switched domain of a TAP debug register, 124 or more for the always-on supply (R421; log 44). -/
opaque tapDomain : BitVec 32 → Nat

/-- The payload of a MGMT packet that tells the links down, as device address and port (R275; log 37). -/
opaque mgmtBytes : List (Nat × Nat) → List Byte

/-- The links down after a MGMT payload is taken into a link map (R275; log 37). -/
opaque mgmtMap : List (Nat × Nat) → List Byte → List (Nat × Nat)

/-- A multicast group of a plan image is used as a route TARGET, which the image does not tell (R240; log 23). -/
opaque routeTarget : List Byte → Nat → Bool

/-- The bytes committed to the host as plan outputs in a tick, in delivery order: no rule or command says how a plan makes them (R36,
R216; log 36). -/
opaque planOutputs : Nat → List Byte

/-- The board's I3C_ADDR[1:0] (R450; log 110). -/
opaque i3cAddr : BitVec 2

end Sys2Proof.Config
end

