-- ==== Sys2Proof/Machine/State.lean ====
section
/-! DEFINITION. The state of the TZ9640: every register, memory, queue, counter, mode and pin its spec names, as plain
data, and the state after reset. A `Tab` is a table in which an absent key holds the default its field's text names. -/

namespace Sys2Proof.Machine

open Sys2Proof

/-- A sparse table: key and value pairs. -/
abbrev Tab (α : Type) := List (Nat × α)

/-- Why a step stops. -/
inductive Fault where
  /-- Raised by a meaning whose operand names a unit the spec does not number (a core, stack, mailbox, port or lane out of
  range, R11-R15, R255, R272, R367). Safe: the machine stops where no such unit exists. -/
  | noSuchUnit
deriving DecidableEq, Repr

/-- Why a command is refused. -/
inductive Refusal where
  /-- The command has no meaning yet. Raised by no arm of the finished dispatch. Safe. -/
  | notModelled (mnemonic : String)
deriving DecidableEq, Repr

/-! ## Codes -/

/-- Completion status codes (R8), in the order of R9 from the one returned first. -/
inductive Status where
  | nospt | denied | stalemsg | unavail | busy | limit | poison | late | stale | ok
deriving DecidableEq, Repr

/-- The counters of 32 bits with an overflow bit (R6). Arguments: stack, quadrant 4s+q, port, mailbox or plan slot. -/
inductive Ctr where
  | late | rerun | missedEdge | earlyEdge | backpressure
  | sliceEmpty (q : Nat) | streamEmpty (q : Nat)
  | crumbCorrected | crumbPoison
  | poolEmpty | split | appendMismatch | pteFault | emptyRow
  | crcReplay (s : Nat) | crcFail (s : Nat) | nackUnavail (s : Nat) | mcastRetry (s : Nat) | mcastLimit (s : Nat)
  | foldMissing (s : Nat)
  | frameReplay (s : Nat) | frameFail (s : Nat) | laneSwap (s : Nat)
  | tlReplay (p : Nat) | tlUncorr (p : Nat) | tlReject | tlStale | tlLost
  | corrLayer (s : Nat) | corrSlice (s : Nat) | uncorr (s : Nat) | poisonWrite (s : Nat) | residue (s : Nat)
  | patrolFail (s : Nat) | remap (s : Nat) | cacheParity (s : Nat)
  | transient | lasting | shift | retireReq
  | trip | coolantStop | degraded | throttleTicks
  | evLost (mb : Nat)
  | bar2Denied | bar2Ur | bar2Unavail
  | tokenReject | quote
  | route (plan count : Nat)
deriving DecidableEq, Repr

/-- The performance counters of 48 bits (R6, R59). -/
inductive Perf where
  | sliceTokens (q : Nat) | crumbCycles | walkBlocks | flits (s : Nat) | frames (s : Nat) | scrubBytes (s : Nat)
  | energy | commands | expert (plan e : Nat)
deriving DecidableEq, Repr

/-- A 32-bit counter and its overflow bit (R6). -/
structure CtrVal where
  val : W32
  ovf : Bool
deriving DecidableEq, Repr

/-- The events (R393, R428). -/
inductive Ev where
  | tickLate | tickEdgeMissed | tickSourceLost | ingestBackpressure | counterWrap
  | planSuspended | planFault | poisonConsumed
  | kvPoolEmpty | kvPoolLow | kvStoreLow | kvAppendMismatch
  | evdSpaceLow | evdReplayMismatch
  | laneSpared | linkNarrowed | linkDown | laserSwitch | tlinkMiswire | tlinkUnreachable | tlinkRingOverrun
  | tlinkReject | tlinkStale
  | stackIsolated | stackRejoined | stackContentsLost
  | faultTransient | faultLasting | coreSpared | crumbFailed | rowRemapped | retireRequest | patrolFail | scrubPass | drain
  | sensorSplit | sensorFailed | tempHigh | tempLow | throttle | coolingDegraded | coolingRestored | coolantStop
  | coolantRestored | coolantReportLost | inletRange | thermalTrip | rackExit | warmupDone
  | powerState
  | ready | hearthRestart | fwReplaced | fwReplaceFailed | sessionOrphaned
  | debugLevel | lifecycle | tokenRejected | sigIndexLow | signingStopped | dieAuthFailed | fwRejected
deriving DecidableEq, Repr

/-- An event waiting to be posted: its object word (none: 0xFFFF_FFFF), its LOG_INDEX and its DETAIL items (R394). -/
structure PEvent where
  ev : Ev
  object : Option Nat
  log : Option Nat
  injected : Bool
  detail : List Nat
deriving DecidableEq, Repr

/-- An event record (R394). -/
structure EventRec where
  index : Nat
  tick : Nat
  time : Nat
  ev : Ev
  atOnce : Bool
  injected : Bool
  held : Bool
  object : Option Nat
  log : Option Nat
  detail : List Nat
deriving DecidableEq, Repr

/-- A field-fault record (R310). -/
structure FaultRec where
  index : Nat
  time : Nat
  tick : Nat
  boot : Nat
  /-- TYPE of Table: Record types. -/
  kind : Nat
  cls : Nat
  attempt : Nat
  /-- FLAGS: bit 0 INJECTED, 1 MAP, 2 DRAIN, 3 BOOT_ONLY. -/
  flags : Nat
  stack : Nat
  site : Nat
  unit : Nat
  unitIx : Nat
  detail : Nat
  addr : Nat
  pfn : Option Nat
  count : Nat
  gen : W32
deriving DecidableEq, Repr

/-! ## Plans (R50-R54) -/

/-- A resident region of a core section with its contents (R68). -/
structure Region where
  base : Nat
  len : Nat
  bytes : List Byte
deriving DecidableEq, Repr

/-- A core section (R68). -/
structure CoreSec where
  lcid : Lcid
  entry : Nat
  budget : Nat
  regions : List Region
deriving DecidableEq, Repr

/-- A crumb section (R168). -/
structure CrumbSec where
  lcid : Lcid
  issuer : Lcid
  cycles : Nat
  layerCycles : Nat
  mask : BitVec 48
  prog : List W32
deriving DecidableEq, Repr

/-- An evidence section (R209). -/
structure EvdSec where
  lcid : Lcid
  window : Nat
  maxReq : Nat
deriving DecidableEq, Repr

/-- A window entry (R238). -/
structure Window where
  xfer : Nat
  foldResult : Bool
  srcs : List Lcid
  base : Nat
  len : Nat
  miss : Nat
deriving DecidableEq, Repr

/-- A network section (R238). -/
structure NetSec where
  lcid : Lcid
  /-- DEFAULT_STREAM; 255 for none. -/
  stream : Nat
  windows : List Window
deriving DecidableEq, Repr

/-- A group entry (R240). -/
structure GroupEnt where
  group : Nat
  multicast : Bool
  op : Nat
  capture : Bool
  dim : Nat
  root : Lcid
  xfer : Nat
  rows : Nat
  len : Nat
  members : List Lcid
  miss : Nat
deriving DecidableEq, Repr

/-- A stream section (R260). -/
structure StreamSec where
  nearStack : Nat
  nearEngine : Nat
  farStack : Nat
  farEngine : Nat
  waves : Nat
  framesOut : Nat
  framesIn : Nat
deriving DecidableEq, Repr

/-- A TLink output section (R276). -/
structure RingSec where
  lcid : Lcid
  ring : Nat
  base : Nat
  entries : Nat
  entryBytes : Nat
  prod : Nat
  cons : Nat
deriving DecidableEq, Repr

/-- The slots, as logical wavelengths, that an engine holds at the port it is attached at (R259). -/
structure SlotRun where
  stack : Nat
  port : Nat
  engine : Nat
  waves : List Nat
deriving DecidableEq, Repr

/-- One charge of a plan's cost vector (R52): the resource, 1-8 in table order, what it is charged on, and how much. -/
structure CostEntry where
  resource : Nat
  key : Nat
  charge : Nat
deriving DecidableEq, Repr

/-- Whether a plan is loaded, admitted or suspended (R415: 0, 1, 2). -/
inductive PlanSt where
  | loaded | admitted | suspended
deriving DecidableEq, Repr

/-- A loaded plan (R50, R51, R54, R215). -/
structure Plan where
  st : PlanSt
  hash : List Byte
  priority : Nat
  /-- RETAIN_JOURNAL. -/
  retain : Bool
  periodMin : Nat
  periodMax : Nat
  maxInputs : Nat
  maxInputBytes : Nat
  image : List Byte
  cores : List CoreSec
  crumbs : List CrumbSec
  evds : List EvdSec
  nets : List NetSec
  groups : List GroupEnt
  streams : List StreamSec
  rings : List RingSec
  costs : List CostEntry
  /-- The charges carried per logical route, and those of the global access stream (R52, R234, R263). -/
  routes : List MeshRoute
  globals : List GlobalUse
  /-- Capture is on (R215). -/
  capture : Bool
  /-- Place in the order of admission; the most recent is the largest (R53). -/
  order : Nat
  /-- The session that loaded it; 0 when orphaned (R384), and the function it belongs to. -/
  owner : Nat
  fn : Nat
  /-- Ingest is backpressured (R45). -/
  backpressured : Bool
  /-- The first INDEX not yet consumed (R36, R44). -/
  consume : Nat
deriving DecidableEq, Repr

/-! ## KV pages and sequences (R171-R181) -/

/-- A KV layout (R171). -/
structure Layout where
  headDim : Nat
  fmt : Nat
  heads : Nat
  gqa : Nat
deriving DecidableEq, Repr

/-- A page-table entry (R179). -/
structure Pte where
  retired : Bool
  cow : Bool
  shared : Bool
  valid : Bool
  pfn : Nat
deriving DecidableEq, Repr

/-- A move of a group's cache under way (R205). -/
structure Move where
  /-- 0 KV_REPAGE, 1 KV_REHOME, 2 KV_RESTORE. -/
  kind : Nat
  /-- The page size, home stack and serving core the group takes when the move ends. -/
  pageLog2 : Nat
  home : Nat
  lcid : Lcid
  /-- Tokens copied so far, of `total`. -/
  done : Nat
  total : Nat
  /-- The contents a KV_RESTORE brings for the group, in position order. -/
  data : List Byte
deriving DecidableEq, Repr

/-- A head-group entry (R178): the committed directory by its table-store index, with the moves of R205. -/
structure Group where
  lcid : Lcid
  layout : Nat
  pageLog2 : Nat
  len : Nat
  dir : Option Nat
  /-- Ranges of positions, as first and count, that a move laid into a VALID page though they were retired or masked (R180, log 107). -/
  gaps : List (Nat × Nat)
  move : Option Move
deriving DecidableEq, Repr

/-- A sequence record (R178); an absent slot is closed with GENERATION 0. -/
structure SeqRec where
  isOpen : Bool
  home : Nat
  groups : List Group
  /-- HOLD: bit 0 HOST, 1 PLAN, 2 STACK, 3 RECOVERY. -/
  hold : BitVec 4
  gen : W32
  plan : Nat
  owner : Nat
  fn : Nat
deriving DecidableEq, Repr

/-- STATE of a page descriptor (R175). -/
inductive FrameSt where
  | unused | free | allocated | retired
deriving DecidableEq, Repr

/-- A page descriptor (R175); NEXT is the next of the pool's free list. -/
structure Desc where
  lcid : Lcid
  st : FrameSt
  pageLog2 : Nat
  off : Nat
  refs : BitVec 16
  layout : Nat
  pool : Nat
deriving DecidableEq, Repr

/-- The tables that a tick or its edits copy of a group (R186): the shadow directory, and leaves by their number in it, as
table-store indices of a stack. -/
structure Shadow where
  slot : Nat
  group : Nat
  stack : Nat
  dir : Nat
  leaves : Tab Nat
deriving DecidableEq, Repr

/-- A pool record (R176): the free list in order stands for FREE_HEAD and the NEXT fields. -/
structure Pool where
  lcid : Lcid
  layout : Nat
  pageLog2 : Nat
  base : Nat
  frames : Nat
  firstPfn : Nat
  free : List Nat
  /-- FREE_COUNT. -/
  count : Nat
  owner : Nat
  fn : Nat
  /-- FREE_COUNT stands below POOL_LOW_WATER (R208). -/
  low : Bool
deriving DecidableEq, Repr

/-! ## Evidence and journal (R42-R46, R209-R226) -/

/-- A journal record (R43): header fields and payload. -/
structure JRec where
  index : Nat
  seqSlot : Nat
  arrival : Nat
  plan : Nat
  source : Nat
  payload : List Byte
  /-- The stack whose ring holds it (R42). -/
  home : Nat
  /-- The record fails its CHECK (R280). -/
  bad : Bool
  /-- The tick that consumed it and committed. -/
  consumedBy : Option Nat
deriving DecidableEq, Repr

/-- A journal write under way, its INDEX not yet given (R42), and the mailbox and first write of the SEQ_INGEST it ends. -/
structure JPend where
  record : JRec
  /-- The mailbox answered when this write completes, with the command number and count of records. -/
  answer : Option (Nat × Nat)
  /-- The packet a TLink input came in, with its port, to be acknowledged. -/
  reply : Option (Nat × Packet)
deriving DecidableEq, Repr

/-- An attribution record (R213) before ORDINAL is given, with the stack that holds it. -/
structure ARec where
  plan : Nat
  lcid : Lcid
  row : Nat
  poison : Bool
  empty : Bool
  tick : Nat
  seqSlot : Nat
  position : W32
  group : Nat
  head : Nat
  qhead : Nat
  layer : Nat
  alarmId : W32
  alarmScore : W32
  m : W32
  l : W32
  mass : W32
  cands : List (W32 × W32)
  ordinal : Nat
  /-- Written by a replay tick, which no seal covers (R223, R225). -/
  replay : Bool := false
deriving DecidableEq, Repr

/-- A tick ledger plan entry (R40). -/
structure LedgerPlan where
  slot : Nat
  count : Nat
  first : Nat
deriving DecidableEq, Repr

/-- A tick ledger record (R40). -/
structure Ledger where
  tick : Nat
  commitAt : Nat
  time : Nat
  fpGen : W32
  attempt : Nat
  late : Bool
  cooling : Bool
  fpPublished : Bool
  suspended : Bool
  plans : List LedgerPlan
deriving DecidableEq, Repr

/-- A link record (R219). -/
structure Link where
  tick : Nat
  number : Nat
  content : List Byte
  head : List Byte
  ledger : List Byte
  records : Nat
  kind : Nat
deriving DecidableEq, Repr

/-- A seal: the fields of its body (R221), its signature when made, and the seal point it serves. -/
structure Seal where
  number : Nat
  tick : Nat
  link : Nat
  head : List Byte
  prevHead : List Byte
  boot : Nat
  time : Nat
  /-- The signature; none while it is being made. -/
  sig : Option (List Byte)
deriving DecidableEq, Repr

/-- A command record (R216): tick, mailbox and message bytes. -/
structure CmdRec where
  tick : Nat
  mb : Nat
  bytes : List Byte
  /-- The number of its tick's link, or of the last link before a replay tick, which adds none (R225). -/
  link : Nat := 0
  replay : Bool := false
deriving DecidableEq, Repr

/-- Replay mode (R225, R226): the base tick, the replay head and the link number of the replay, and the tick being run. -/
structure Replay where
  base : Nat
  head : List Byte
  /-- The tick TICK reads while a replay tick runs, with the mailbox and command number to answer and the CONTENT and LEDGER_DIGEST supplied. -/
  running : Option (Nat × Nat × Nat × List Byte × List Byte)
  /-- The recorded tick that the next tick started runs, in the same form. -/
  next : Option (Nat × Nat × Nat × List Byte × List Byte)
  /-- The records and command records supplied for the running replay tick. -/
  records : List JRec
  cmds : List CmdRec
deriving DecidableEq, Repr

/-- A stack telemetry record (R342). -/
structure StackTele where
  tick : Nat
  logic : List (BitVec 16)
  crust : List (BitVec 16)
  energy : List Nat
  crumbEnergy : Nat
  transitEnergy : Nat
  sensor : BitVec 16
  bands : BitVec 8
  budget : Nat
  kMin : Nat
  flags : BitVec 8
deriving DecidableEq, Repr

/-- A device telemetry record (R342). -/
structure DevTele where
  tick : Nat
  time : Nat
  inlet : BitVec 16
  flow : BitVec 16
  caps : List Nat
  eMax : Int
  state : Nat
  flags : BitVec 8
  deviceEnergy : Nat
  ioEnergy : Nat
deriving DecidableEq, Repr

/-! ## Staged work of the tick -/

/-- A staged store of bytes to a slice (R128), with its place in the order of R129 and R160. -/
structure Staged where
  /-- Physical site whose slice it is, and byte within the slice by slice bank, row and column. -/
  site : Nat
  /-- Bank offset address of the 64-byte line: bank, then byte in the bank. -/
  line : Nat
  /-- The 64 bytes and which of them the store gives. -/
  data : Tab Byte
  poison : Bool
  /-- Order key: 0 mailbox, 1 core, 2 crumb; then the ordinals and places that R129 and R160 name. -/
  order : List Nat
  /-- Staged only by SAPPEND (R202). -/
  append : Bool
deriving DecidableEq, Repr

/-- Tokens one SAPPEND gave one head of a group (R199). -/
structure Append where
  seq : Nat
  group : Nat
  head : Nat
  count : Nat
deriving DecidableEq, Repr

/-- A page entry a tick writes in the shadow (R182, R184): the frame taken, and the old page when it is a split. -/
structure NewPage where
  seq : Nat
  group : Nat
  page : Nat
  pfn : Nat
  /-- The old page of a split (R184); none for a new page or for clearing COW in place. -/
  split : Option Nat
  /-- COW cleared in place: no frame was taken. -/
  inPlace : Bool
deriving DecidableEq, Repr

/-- The tick's uncommitted work: everything R49 discards when the tick is rerun. -/
structure Work where
  /-- Journal records each plan consumes in the tick: plan slot and records in INDEX order (R44). -/
  inputs : Tab (List JRec)
  incs : List (Ctr × Nat)
  perfs : List (Perf × Nat)
  staged : List Staged
  appends : List Append
  newPages : List NewPage
  /-- Frames taken this tick (R182). -/
  taken : List Nat
  /-- Tables copied by the tick's appends (R186). -/
  shadows : List Shadow
  records : List ARec
  events : List PEvent
  /-- Stacks that have reported to collection (R35). -/
  reported : List Nat
  /-- Scrub rewrites queued for write-back (R285): site, line, poisoned. -/
  rewrites : List (Nat × Nat × Bool)
  /-- Remaps decided in the tick (R288): site, bank, row. -/
  remaps : List (Nat × Nat × Nat)
  /-- Staged lines that the bank stage gives wrong at this write-back (R280), by site and place. -/
  stageErrs : List (Nat × Nat)
  /-- Slices whose controller failed lasting during the commit, and which write nothing of it (R298). -/
  unwritten : List Nat
deriving DecidableEq, Repr

/-- A response message (R378). -/
structure Resp where
  op : Nat
  status : Status
  stateful : Bool
  host : Bool
  detail : Nat
  seq : W32
  tick : Nat
  progress : Nat
  body : List W64
  /-- What DMA wrote to the host buffer. -/
  data : List Byte
  /-- One flag for each item a read of evidence returned: a completed seal covers it (R223; log 71). -/
  covered : List Bool := []
  /-- The lines that a MEM_READ returned poisoned, by address (R282; the form of the mark is not given, log 49). -/
  poisoned : List Nat := []
deriving DecidableEq, Repr

/-- A response held until the commit that applies the command's change (R39). -/
structure Answer where
  mb : Nat
  resp : Resp
  /-- LATE has been returned already (R39). -/
  sent : Bool
deriving DecidableEq, Repr

/-- A change of committed state waiting for the commit of its tick (R39, R380, R459). -/
inductive Change where
  | seqOpen (slot : Nat) (r : SeqRec) | seqClose (slot : Nat) | seqHold (slot : Nat) | seqRelease (slot : Nat)
  | planLoad (slot : Nat) (p : Plan) | planUnload (slot : Nat) | planAdmit (slot : Nat) | planSuspend (slot cause : Nat)
  | period (ns : Nat) | wrapEn (v : BitVec 9)
  | rate (quad : Nat) (stream : Bool) (v : Nat) | budget (v : Nat) | globalSteps (v : Nat) | globalWaves (v : Nat)
  | flowMin (v : BitVec 16) | warmupEn (v : Bool) | calibrate (words : List W64)
  | layout (slot : Nat) (l : Layout) (owner fn : Nat) | poolCreate (key : Nat) (p : Pool) | poolDestroy (key : Nat)
  | fork (src dst len : Nat) | truncate (slot len : Nat) | retirePages (slot group lo n : Nat)
  | kvMap (slot group page : Nat) (e : Pte) | kvUnmap (slot group page : Nat) | retireFrame (pfn : Nat) (spare : Option Nat)
  | kvMove (slot : Nat) (group : Option Nat) (mv : Move) | kvRestore (slot : Nat) (data : List Byte) | genBump (slot : Nat)
  | memWrite (mb addr : Nat) (bytes : List Byte)
  | capture (slot : Nat) (on : Bool) | seal | ack (kind tick : Nat) | replayBegin (base : Nat) (head : List Byte)
  | replayEnd
  | setAddr (addr : BitVec 9) (dims : BitVec 6) | retrain (stack : Nat) | rejoin (stack : Nat)
  | pwrState (v : Nat) | gate (d : Nat) | ungate (d : Nat) | clockHalf (stack : Option Nat) (half : Nat) (slow : Bool)
  | stackOff (s : Nat) | stackOn (s : Nat)
  | retireGranule (addr : Nat) | scrubPause (v : Bool) | inject (kind unit detail attempts : Nat) | dramFuse (site bank row : Nat)
  | sessionOpen (n : Nat) | sessionClose (n : Nat) | adopt (n : Nat) | ceiling (fn : Nat) (v : BitVec 32)
  | assign (mb fn : Nat) | expertOpen (session : Nat) (mem : Bool) | expertClose (session : Nat) (mem : Bool)
  | bar2Base (v : Nat)
  | provision | certInstall (bytes : List Byte) | deploy (bytes : List Byte) | toReturned (session : Nat) | svnCommit
  | dbgWrite (off : Nat) (bytes : List Byte) | tapOpen (session : Nat) | dbgClose (session : Nat)
  | fwActivate (mb : Nat)
  | bandFall (quad : Nat)
deriving DecidableEq, Repr

/-! ## Cores (R61-R93) -/

/-- What a core is doing (R82, R91, R426). -/
inductive CoreRun where
  | idle | running | halting | halted | stopped (cause : Nat)
deriving DecidableEq, Repr

/-- An accumulator: type, poison bit and its 512 elements, absent ones zero (R80). -/
structure Acc where
  int : Bool
  poison : Bool
  elems : Tab W32
deriving DecidableEq, Repr

/-- A running LOOP (R82): first and last instruction of the body and the passes left after this one. -/
structure LoopCtx where
  first : Nat
  last : Nat
  left : Nat
deriving DecidableEq, Repr

/-- A slice transfer a core has issued (R84): kind, bench address, slice address, length, register and status. -/
inductive XferKind where
  | tload | tloadCached | tstore | sld | tin | append
deriving DecidableEq, Repr

/-- One slice transfer outstanding (R84). -/
structure SliceXfer where
  kind : XferKind
  bench : Nat
  addr : W64
  len : Nat
  reg : Nat
  /-- Data a TSTORE carries, as read at issue, with the poisoned lines. -/
  data : List Byte
  poisonLines : List Nat
  /-- The bytes wanted of a fill of the line cache, from the piece's first byte (R137). -/
  want : Nat × Nat
  /-- The transfer's number in the core's program order (R129). -/
  order : Nat
  /-- Lines the transfer still waits for from the mesh and the die edges (R118, R263). -/
  away : Nat
  /-- Granule pieces not yet issued for want of tokens: offset and length (R131). -/
  todo : List (Nat × Nat)
  /-- The program address of the TSTORE (R91, R128). -/
  pc : Nat
deriving DecidableEq, Repr

/-- A line of the slice-line cache (R65, R137): its slice address, bytes, poisoned lines and fill status. -/
structure CacheLine where
  addr : Nat
  bytes : List Byte
  poison : List Nat
  status : Status
deriving DecidableEq, Repr

/-- A route context (R95, R96) with its quota counters, and its records not yet sent. -/
structure RouteCtx where
  bound : Bool
  table : Nat
  list : Nat
  area : Nat
  /-- Quota used per expert. -/
  used : Tab Nat
  /-- Records written to the record area by the last RGATE: address of the first and how many. -/
  records : Nat × Nat
deriving DecidableEq, Repr

/-- A scoring context (R196). -/
structure ScoreCtx where
  bound : Bool
  block : Nat
deriving DecidableEq, Repr

/-- A window of a core in the tick (R239). -/
structure WinState where
  xfer : Nat
  base : Nat
  len : Nat
  /-- The bench ranges it holds open: its own, or those of the partial an FSMERGE result goes to. -/
  ranges : List (Nat × Nat)
  /-- FOLD_RESULT, the source list and MISS_ADDR of its window entry (R238). -/
  fold : Bool
  srcs : List Lcid
  miss : Nat
  /-- Landed lines: line index, original stack, source site, flit SEQ, poisoned. -/
  landed : List (Nat × Nat × Nat × Nat × Bool)
  conflict : Bool
  complete : Bool
  retired : Bool
  status : Status
  missing : List Nat
  /-- Fold flags raised at nodes on the way (R243). -/
  flags : BitVec 4
deriving DecidableEq, Repr

/-- An outbound network transfer (R241, R242). -/
structure NetXfer where
  id : Nat
  /-- The number of the instruction's first transfer: transfers of one instruction count as one (R241). -/
  batch : Nat
  /-- Bench ranges it reads, pending until its last flit is injected (R61, R241). -/
  reads : List (Nat × Nat)
  /-- Flit TYPE: PUT, MCAST, FOLD, ROUTE or CRUMB. -/
  kind : BitVec 4
  /-- The group of an MCAST or FOLD. -/
  group : Nat
  /-- The window it fills. -/
  xfer : Nat
  /-- The stream that carries it off the stack; none for transfers that stay. -/
  stream : Option Nat
  /-- Destinations in order: members of a group, or the one core. -/
  dests : List Lcid
  /-- Flits of one copy, with their offset in the window, bytes and poison. -/
  flits : List (Nat × List Byte × Bool)
  /-- Flits taken, by destination number and flit. -/
  got : List (Nat × Nat)
  /-- Destinations that have reported every flit landed, and destinations that refused or were abandoned. -/
  reported : List Nat
  missing : List Nat
  /-- Flits that wait for stream tokens (R131). -/
  unsent : List NetFlit
  status : Status
  done : Bool
deriving DecidableEq, Repr

/-- A crumb program issued to one unit and not yet retired (R150): target slice and bank, instruction, parameters, return
range, address of its CISSUE and number in the core's program order, the returns that have landed, and its flags at END. -/
structure CrumbJob where
  slice : Nat
  bank : Nat
  start : Nat
  params : List W32
  retBase : Nat
  retLen : Nat
  pc : Nat
  order : Nat
  started : Bool
  ended : Bool
  back : List (Nat × Nat)
  flags : BitVec 4
deriving DecidableEq, Repr

/-- Everything a core holds: registers, bench memory, contexts, transfers and the tick's counts. -/
structure CoreCtx where
  pc : Nat
  run : CoreRun
  /-- The plan slot it serves, CYCLE_BUDGET and the resident regions of its section, as base and length (R68). -/
  slot : Nat
  budget : Nat
  resident : List (Nat × Nat)
  /-- Reported to collection (R82). -/
  reported : Bool
  s : Tab W64
  sPoison : List Nat
  d : Tab (BitVec 128)
  acc : Tab Acc
  flags : W64
  loops : List LoopCtx
  cycles : Nat
  /-- Bench memory, unlisted bytes zero, and its poisoned 64-byte lines (R65). -/
  bench : List Host.Cell
  benchPoison : List Nat
  cache : List CacheLine
  xfers : List SliceXfer
  stores : Nat
  route : Tab RouteCtx
  /-- RSTAT counts, by 8 times the context plus the count; exits of any context at 5 (R110). -/
  routeCounts : Tab Nat
  /-- Route rows that have arrived: receive slot, record, row bytes, poisoned; and sources whose LAST record has (R104, R105). -/
  rows : List (Nat × BitVec 128 × List Byte × Bool)
  /-- LAST records that have arrived, each source's in the order it sent them (R104). -/
  lasts : List (BitVec 128)
  /-- Return rows that have arrived: TOKEN, RANK and LAYER as bits [31:8] of the record, bytes, poisoned (R106). -/
  returns : List (Nat × List Byte × Bool)
  /-- Flits of route and crumb messages that are not yet whole. -/
  part : List NetFlit
  score : Tab ScoreCtx
  /-- SSTAT counts 0-5 (R200). -/
  scoreCounts : Tab Nat
  /-- Pieces of the present walk or append that have taken their tokens (R131). -/
  paid : Nat
  jobs : List CrumbJob
  crumbStatus : Status
  /-- A crumb rule broken by a program of this core, with the address of its CISSUE (R166). -/
  crumbFault : Option Nat
  windows : List WinState
  outbound : List NetXfer
  nextXfer : Nat
  syncStatus : Status
  netCounts : Tab Nat
  folded : List Nat
  /-- A flit of this core was discarded under R239. -/
  netFault : Bool
  /-- Instructions of the tick that consumed poison (R90). -/
  ate : Nat
deriving DecidableEq, Repr

/-- A crumb unit (R144): program store, registers, vector buffer, accumulator file and format register. -/
structure CrumbUnit where
  prog : List W32
  pc : Nat
  q : Tab W32
  vec : List Host.Cell
  vecPoison : List Nat
  acc : Tab W32
  int : Bool
  accPoison : List Nat
  fmt : Option (Nat × Nat × Nat)
  flags : BitVec 4
  loop : Option LoopCtx
  running : Bool
  /-- Waiting for an activation slot (R155). -/
  waiting : Bool
  stvs : Nat
deriving DecidableEq, Repr

/-! ## Sites, floor plan, links -/

/-- A row of the floor plan (R24): site states, shift and shift column. -/
structure FpRow where
  sites : BitVec 32
  shifted : Bool
  col : BitVec 4
deriving DecidableEq, Repr

/-- A remap entry (R290). -/
structure Remap where
  repeated : Bool
  lock : Bool
  spare : Nat
  bank : Nat
  row : Nat
deriving DecidableEq, Repr

/-- The remap block of a slice: entries by number, and the spare rows used in each bank (R290). -/
structure RemapBlock where
  entries : Tab Remap
  used : Tab (BitVec 8)
deriving DecidableEq, Repr

/-- State of a 64-bit word's code in DRAM (R280, R281). -/
inductive WordSt where
  | clean | corrupt | uncorrectable | poison
deriving DecidableEq, Repr

/-- One link of a stack, or one TLink port: bad masks, width, generation (R256, R272). -/
structure LaneMap where
  badTx : BitVec 34
  badRx : BitVec 34
  /-- The width in force; 0 when down. -/
  width : Nat
  gen : W32
deriving DecidableEq, Repr

/-- A stack's status and links (R23, R255-R271). -/
structure Stack where
  /-- STATUS: 0 online, 1 isolated, 2 unpowered; as published. -/
  status : Nat
  /-- Isolated now, with the trigger (R269), whether or not published. -/
  isolated : Option Nat
  /-- Its reset logic holds it in reset, or its clock is lost. -/
  inReset : Bool
  refreshOk : Bool
  op0 : LaneMap
  op1 : LaneMap
  bundle : LaneMap
  /-- Failed stream engines (R297). -/
  failedEngines : List Nat
  /-- The logic die stopped itself because no bundle frame came (R269). -/
  deaf : Bool
  /-- Lanes marked bad whose width drops at the next commit (R266): link and width. -/
  narrow : List (Nat × Nat)
  /-- Lanes in swap: link, rx, failing lane and the idle lane trained (R266). -/
  swaps : List (Nat × Bool × Nat × Nat)
  westSlow : Bool
  eastSlow : Bool
  meshSlow : Bool
  /-- Its DRAM was switched off in Rack (R326). -/
  cut : Bool
deriving DecidableEq, Repr

/-- An entry of an output ring at the I/O die not yet acknowledged (R276, R277). -/
structure RingEntry where
  index : Nat
  dest : Nat
  plan : Nat
  seq : W32
  payload : List Byte
  tag : BitVec 16
deriving DecidableEq, Repr

/-- The I/O die's state of one output ring (R276). -/
structure Ring where
  plan : Nat
  /-- Entries up to here are acknowledged or dropped: the consumer index. -/
  cons : Nat
  /-- Next entry to send. -/
  next : Nat
  unacked : List RingEntry
  overrun : Bool
deriving DecidableEq, Repr

/-- A TLink port (R273, R274, R279). -/
structure Port where
  up : Bool
  miswire : Bool
  peer : BitVec 9
  /-- Bad lanes of each direction: from this device, and to it. -/
  badTx : BitVec 9
  badRx : BitVec 9
  width : Nat
  gen : W32
  /-- Replays of one packet in succession (R273). -/
  replays : Nat
  retraining : Bool
  /-- Failing lanes in whose place a spare is being trained: rx, the lane and the spare (R266). -/
  swaps : List (Bool × Nat × Nat)
  /-- LINK_SEQ of the next packet sent (R273); a retrain clears it (R6). -/
  linkSeq : BitVec 16
deriving DecidableEq, Repr

/-! ## Heat and power -/

/-- The sensors of a quadrant and what is formed from them (R317-R345). -/
structure Therm where
  a : BitVec 16
  b : BitVec 16
  c : BitVec 16
  aFailed : Bool
  bFailed : Bool
  cFailed : Bool
  split : Bool
  /-- Consecutive samples over 6 °C, and at most 4 °C, apart (R318). -/
  apart : Nat
  close : Nat
  /-- The last four readings of each sensor, newest first, for the slope (R333). -/
  histA : List Int
  histB : List Int
  histC : List Int
  /-- Consecutive samples of each of A, B and C whose slope is over the limit (R333). -/
  slopes : List Nat
  /-- LOGIC_PROT and CRUST_PROT as formed at the last sample. -/
  l : Int
  cp : Int
  /-- Throttle fraction f at the last commit, in 1/896 (R321). -/
  f : Nat
  takesPart : Bool
  band : Nat
  /-- Samples for which the reading has stayed 2 °C below the lower band's limit (R125). -/
  cool : Nat
  /-- Crossings of the high limits by L and by C, and of the low one, already posted (R320). -/
  high : Bool
  highC : Bool
  low : Bool
  /-- Tracking forecast X and Y and the excess E, in 2^-20 °C (R330; log 12). -/
  x : Int
  y : Int
  e : Int
  /-- The governor's fraction in force, in 1/1000 (R323); 1000 when not governing. -/
  govern : Nat
  /-- It has governed in the period since the last telemetry record (R323). -/
  governed : Bool
  /-- What background calibration has fitted R_L and R_C to, in 1/1000 of the commissioned values (R330). -/
  fitL : Nat
  fitC : Nat
deriving DecidableEq, Repr

/-- A quadrant's regulators (R131-R133). -/
structure Quad where
  sliceRate : Nat
  streamRate : Nat
  sliceLevel : Nat
  streamLevel : Nat
  sliceEmptied : Bool
  streamEmptied : Bool
  rateReject : Bool
  slicePend : Option Nat
  streamPend : Option Nat
deriving DecidableEq, Repr

/-- Power state codes (R346). -/
inductive Pwr where
  | active | trim | rest | dormant | rack
deriving DecidableEq, Repr

/-- A cap in force, with the time since which a higher one has been computed at every commit and the lowest of those (R322). -/
structure CapIn where
  force : Nat
  since : Option (Nat × Nat)
deriving DecidableEq, Repr

/-- Device heat and power state (R320-R346). -/
structure Power where
  inlet : BitVec 16
  flow : BitVec 16
  flowMin : BitVec 16
  flowMinPend : Option (BitVec 16)
  capW : Nat
  throttleCapW : Nat
  degradedCapW : Nat
  forecastCapW : Nat
  warmupEn : Bool
  warmupPend : Option Bool
  rackLatch : Bool
  reportLost : Bool
  warmup : Bool
  coldHold : Bool
  coolantStop : Bool
  /-- FLOW_FAULT_N is low. -/
  flowFault : Bool
  degraded : Bool
  dsteps : Nat
  state : Pwr
  /-- A state change under way: the state entered (R337). -/
  entering : Option Pwr
  /-- Switched domains that are off (R340). -/
  off : List Nat
  /-- Quadrants powering up (R339), and those ready to join at the next commit. -/
  ungating : List Nat
  joining : List Nat
  /-- Commands of gating and clocks that act after this commit's write-back (R233, R339). -/
  actions : List Change
  /-- The throttle and forecast caps in force, and since when, and down to what, higher ones have been computed (R322). -/
  thr : CapIn
  fc : CapIn
  /-- Cooling degraded entered (0), a further step (1) or restored (2), for the next commit (R332). -/
  coolPend : List Nat
  /-- Commissioned R_L, tau_L, R_C, tau_C and STANDING_W (R330, R331). -/
  calib : List Nat
  /-- Trips in the last 24 h, by time (R327). -/
  trips : List Nat
  rackAt : Nat
  /-- VCORE is within its window (R441). -/
  vcoreOk : Bool
  /-- Consecutive samples meeting the restart condition of R327. -/
  coolSamples : Nat
  /-- Sensor samples taken since P1. -/
  samples : Nat
  /-- The reported inlet lies outside its range. -/
  inletOut : Bool
  /-- Energy counters of domains 0-119, in µJ. -/
  energies : List Nat
deriving DecidableEq, Repr

/-! ## Tick sequencer -/

/-- What the executing tick is doing (R35, R47, R49). -/
inductive Phase where
  /-- No tick has started, or none may start. -/
  | idle
  /-- An attempt executes. -/
  | executing
  /-- Every stack has reported: the tick has completed. -/
  | completed
  /-- A rerun waits for the next boundary. -/
  | rerun
  /-- The commit is to be repeated from staging at the next boundary (R41). -/
  | repeatCommit
  /-- The execution was abandoned on a coolant stop or trip and waits for it to clear. -/
  | stopped
deriving DecidableEq, Repr

/-- The spare shift under way (R301), or a fault site waiting to be acted on. -/
structure ShiftJob where
  stack : Nat
  row : Nat
  col : Nat
deriving DecidableEq, Repr

/-- The tick sequencer (R29-R59, R297-R304). -/
structure Seqr where
  count : Nat
  lastCommitted : Nat
  period : Nat
  /-- The period each boundary is placed at; a new period applies from the first boundary after the next commit (R30). -/
  placed : Nat
  periodPend : Option Nat
  external : Bool
  sourcePend : Option Bool
  /-- EXTERNAL has been selected and no edge has come yet (R32). -/
  awaitEdge : Bool
  flywheelRun : Nat
  flywheel : Bool
  sourceLost : Bool
  periodReject : Bool
  lateEvtEn : Bool
  late : Bool
  wrapEn : BitVec 9
  wrapPend : Option (BitVec 9)
  phase : Phase
  /-- Number of the tick executing or awaiting a rerun. -/
  tick : Nat
  attempt : Nat
  /-- Boundaries since this attempt started (R48). -/
  boundaries : Nat
  abandoned : Nat
  cooling : Bool
  /-- Boundary at which the first attempt started, in ns, for MAX_RECOVERY_NS. -/
  startedNs : Nat
  /-- Plans that run in this attempt, and plans left out of it (R20, R91, R300). -/
  runs : List Nat
  leftOut : List Nat
  /-- First fault site of the previous attempt and of this one, with its check (R297). -/
  prevFault : Option FaultSite
  curFault : Option FaultSite
  /-- First program fault of the previous attempt and of this one: core, cause, address (R91). -/
  prevProg : Option (Nat × Nat × Nat)
  curProg : Option (Nat × Nat × Nat)
  shift : Option ShiftJob
  /-- The site a shift in this tick now serves the failed logical core from (R297). -/
  shiftedTo : Option FaultSite
  commitFault : Option FaultSite
  /-- Plan suspensions decided for the next commit: slot and cause (R460). -/
  suspend : List (Nat × Nat)
  patrol : BitVec 6
  /-- Nanosecond timestamp (R6). -/
  time : Nat
  maxRecovery : Nat
  /-- The floor plan has changed since its last publication (R21). -/
  fpChanged : Bool
  /-- TICK_OUT pulses given. -/
  tickOut : Nat
  /-- The window in force of LATE: the boundary at which the commit was due has passed. -/
  dueMissed : Bool
deriving DecidableEq, Repr

/-! ## Control interface and security -/

/-- A mailbox (R373, R374): registers, the command message area and the event ring. -/
structure Mailbox where
  eventIrq : Bool
  doneIrq : Bool
  lastStatus : BitVec 8
  eventLost : Bool
  overrun : Bool
  done : Bool
  busy : Bool
  /-- Served and not yet answered. -/
  served : Bool
  fn : Nat
  eventVector : BitVec 10
  doneVector : BitVec 10
  evHead : W32
  evTail : W32
  evMask : BitVec 11
  /-- The command message, by byte from 0x40 of the mailbox; unlisted bytes zero. -/
  area : List Host.Cell
  resp : Option Resp
  ring : Tab EventRec
deriving DecidableEq, Repr

/-- An open session (R381, R416). -/
structure Session where
  fn : Nat
  key : W32
  grants : BitVec 32
  /-- Debug level of its token, whether the token allows TAP, and its authority (owner). -/
  dbgLevel : Option Nat
  tap : Bool
  owner : Bool
  /-- Opened by a command not yet committed. -/
  pendingOpen : Bool
  lifetime : Nat
  /-- Timestamp of the commit it opened at, from which LIFETIME runs (R416). -/
  since : Nat
deriving DecidableEq, Repr

/-- A quote asked for and not yet signed (R415). -/
structure QuoteReq where
  mb : Nat
  seq : W32
  nonce : List Byte
  bufLen : Nat
  /-- The message, once the commit it describes has come. -/
  msg : Option (List Byte)
  /-- DMA writes to its buffer succeed. -/
  dmaWr : Bool
deriving DecidableEq, Repr

/-- The debug control block and latches (R425, R426). -/
structure DebugBlk where
  shadowMask : List (BitVec 16)
  benchLcid : BitVec 16
  benchLatch : Bool
  latchTick : Nat
  /-- Shadows of the last committed tick, and those of the tick now collected. -/
  shadows : Tab (Nat × CoreCtx)
  fresh : Tab (Nat × CoreCtx)
  latch : Option CoreCtx
deriving DecidableEq, Repr

/-- Lifecycle states (R412). -/
inductive Life where
  | blank | provisioned | deployed | returned
deriving DecidableEq, Repr

/-- A firmware image staged by FW_REPLACE (R398). -/
structure FwStage where
  session : Nat
  measurement : List Byte
  svn : Nat
  image : List Byte
  /-- Timestamp of its verification. -/
  since : Nat
deriving DecidableEq, Repr

/-- State of the Hearth and its firmware (R307, R397-R400). -/
structure Hearth where
  up : Bool
  /-- FW_ACTIVATE accepted: no further command is accepted (R399), with its mailbox. -/
  handover : Option Nat
  running : Bool
  measurement : List Byte
  svn : Nat
  staged : Option FwStage
  /-- Restarts, by time (R305). -/
  restarts : List Nat
  /-- The handover block or working data can be adopted (R400). -/
  adoptable : Bool
  lastServed : Nat
  /-- Stacks of CS7 and CS12 whose reserve holds the running image (R26). -/
  mirrors : List Nat
  /-- Where in row 2 of its reserve a stack holds the image, once moved from its start (R294). -/
  imageAt : Tab Nat := []
deriving DecidableEq, Repr

/-- Fuses of the I/O die and the logic dies (R22-R24, R265, R402). -/
structure Fuses where
  stepping : BitVec 16
  grade : Nat
  factoryGood : Nat
  serial : W64
  dieSerials : Tab W64
  holes : List Nat
  /-- Column-15 sites that failed manufacturing test. -/
  badSpares : List Nat
  /-- Assembly lane maps of a stack: OP0 TX, RX, OP1 TX, RX, bundle TX, RX (R265). -/
  lanes : Tab (List (BitVec 34))
  /-- Assembly lane maps of the TLink ports: TX and RX (R265). -/
  portLanes : Tab (BitVec 9 × BitVec 9)
  caDigest : List Byte
  fwDigest : List Byte
  debugDigest : List Byte
  /-- The die secrets and pairing values have been blown (R414). -/
  erased : Bool
deriving DecidableEq, Repr

/-- The fault map of R308. -/
structure FaultMap where
  /-- Field-failed sites, 256·stack + 16·row + col. -/
  failed : List Nat
  /-- Shift column per row, 16·stack + row. -/
  shifts : Tab Nat
  crumbs : List (Nat × Nat)
  slices : List Nat
  /-- Failed engines: stack and engine (8: GE). -/
  engines : List (Nat × Nat)
  remaps : Tab RemapBlock
  /-- Retired granules by device memory address (R293). -/
  granules : List Nat
  /-- Lane maps as last written: bad TX and RX lanes, by 3·stack + link. -/
  lanes : Tab (BitVec 34 × BitVec 34)
  drain : BitVec 10
deriving DecidableEq, Repr

/-- The last passing patrols (R295, R296). -/
structure Patrols where
  /-- Tick of the last start in each group. -/
  last : Tab Nat
  /-- For units of a domain that was down when their group came, the last pass before, by 128·group + domain. -/
  held : Tab Nat
  /-- Tick of the patrol at the end of the shift of a row (R301). -/
  shifted : Tab Nat
deriving DecidableEq, Repr

/-- What MRAM keeps across Off (R308, R309, R359, R406, R411-R413). -/
structure Mram where
  bootCount : Nat
  map : FaultMap
  testFail : List Nat
  scrubPos : Tab Nat
  log : List FaultRec
  /-- Records skipped because their CRC-32C fails or their block is lost (R280). -/
  skipped : Nat
  nextIndex : Nat
  /-- The two copies of NEXT_INDEX are readable. -/
  copies : Bool × Bool
  svnFloor : Nat
  life : Life
  deploy : Option (List Byte)
  /-- The identity public key, once generated. -/
  identity : Option (List Byte)
  certs : Tab (List Byte)
  sealHead : List Byte
  sealNumber : Nat
  calib : List Nat
  fused : List (Nat × Nat × Nat)
deriving DecidableEq, Repr

/-- Kinds of start (R347). -/
inductive StartKind where
  | cold | rackRestart | rejoin | powerOn | hearthRestart
deriving DecidableEq, Repr

/-- STATE of the proof log header (R363). -/
inductive ProofSt where
  | running | waiting | ready | halted
deriving DecidableEq, Repr

/-- A proof-log record (R364-R366), as its fields. -/
inductive ProofRec where
  | stage (stage scope : Nat) (kind : StartKind) (result cause endNs durUs tested failed : Nat) (detail : List Nat)
  | finding (stage scope : Nat) (kind : StartKind) (unit site index source outcome flags detail : Nat) (log : Option Nat)
  | ready (kind : StartKind) (good factoryGood holes failed bootOnly grade flags online drain narrow remaps : Nat) (gen : W32)
      (readyNs fetchUs totalUs : Nat)
deriving DecidableEq, Repr

/-- Bring-up (R347-R366): the stage the device start is at, and the stages running on single stacks. -/
structure Boot where
  /-- The device stage to run next; 10 when none is. -/
  stage : Nat
  /-- STAGE of the header: the stage running or last run. -/
  last : Nat
  st : ProofSt
  cause : Nat
  kind : StartKind
  coldWait : Bool
  fetchWait : Bool
  overflow : Bool
  records : List ProofRec
  readyIndex : Option Nat
  /-- Stage each stack is to run next, 3-6, absent when it runs none (R347). -/
  stk : Tab Nat
  /-- Sites bad this boot, and units of Table: Action on a lasting fault failed this boot. -/
  bad : List Nat
  badUnits : List FaultSite
  /-- Quadrants that P5 tests below 10 °C (R355). -/
  coldQuads : List Nat
  /-- A block of the fault map was lost (R349). -/
  mapLost : Bool
  remaps : Nat
  /-- Timestamps of the start of this start, of the stage under way, and of the request for an image; FETCH_US so far. -/
  startNs : Nat
  stageNs : Nat
  fetchNs : Nat
  fetchUs : Nat
  hearthFails : Nat
  rejected : Nat
  dieAuth : List Nat
  /-- PERST_N is released. -/
  released : Bool
  lostClocks : List RefClock
  env : Option PowerEnv
  /-- The device is Off (R440). -/
  off : Bool
deriving DecidableEq, Repr

/-- What the board and test pins hold (R446-R453). -/
structure Pins where
  thermtrip : Bool
  sbInlet : BitVec 16
  sbFlow : BitVec 16
  /-- SUPPLY of the sideband STATUS: Rack or a halt was caused by a supply fault (R440). -/
  supply : Bool
  /-- VSER and VSERH are within their windows (R440). -/
  serial : Bool
  restartPending : Bool
  /-- The I3C dynamic address, once assigned. -/
  i3c : Option (BitVec 7)
  tapIr : BitVec 8
  /-- Boundary-scan register contents: captured by SAMPLE, driven by EXTEST; free. -/
  tapData : BitVec 32
  tapUnpowered : Bool
  hostUp : Bool
  /-- Answer to the last configuration request: 0 none, 1 retry status, 2 served (R444). -/
  config : Nat
  laserActive : Nat
  laserSpareOk : Bool
deriving DecidableEq, Repr

/-- Host-side registers and outboxes (R367-R401). -/
structure HostIf where
  bar2Base : Nat
  cfgReject : Bool
  /-- Sessions holding expert register and expert memory access (R386). -/
  regHolders : List Nat
  memHolders : List Nat
  ceilings : Tab (BitVec 32)
  capGen : W32
  /-- The model's own: every function's capability entries as of the last commit, to find those that change (R371). -/
  capSeen : List Byte
  /-- MSI-X messages sent: function and vector. -/
  msix : List (Nat × Nat)
  /-- Answer to the last BAR2 read: 0 bytes, 1 completer abort, 2 unsupported request, 3 poisoned. -/
  bar2Answer : Nat × List Byte
  /-- Value the last register read returned (MAX_RECOVERY_NS_READ). -/
  lastRead : BitVec 64
  /-- KEY values given to sessions since the device was powered (R381). -/
  keys : List W32
deriving DecidableEq, Repr

/-- Memory configuration and other device registers with a reject bit (R136, R157, R170, R208, R264, R279). -/
structure Config1 where
  globalSteps : Nat
  stepsPend : Option Nat
  memReject : Bool
  zeroing : Bool
  budget : Nat
  budgetPend : Option Nat
  budgetReject : Bool
  effective : Nat
  storeLowWater : W32
  poolLowWater : W32
  storeFreeMin : Nat
  storeLow : List Nat
  devAddr : BitVec 9
  dims : BitVec 6
  globalWaves : Nat
  wavesPend : Option Nat
  linkReject : Bool
  linkMapDown : List (Nat × Nat)
deriving DecidableEq, Repr

/-- An armed or running injection (R312). -/
structure Inject where
  kind : Nat
  unit : Nat
  detail : Nat
  attempts : Nat
  /-- Takes effect in the tick after the one named. -/
  tick : Nat
deriving DecidableEq, Repr

/-- The state of the device. -/
structure State where
  /-- The model's own: commands waiting, first in first out. Reset: empty. -/
  pending : List Instr
  /-- The model's own: how many free values have been drawn. Reset: 0, DESIGN CHOICE (log 7). -/
  fresh : Nat
  seqr : Seqr
  work : Work
  /-- Counter increments and events of the device's own logic, which a rerun keeps. -/
  devIncs : List (Ctr × Nat)
  devPerfs : List (Perf × Nat)
  devEvents : List PEvent
  counters : List (Ctr × CtrVal)
  perfs : List (Perf × BitVec 48)
  clears : List Ctr
  perfClears : List Perf
  /-- Changes waiting for the commit: mailbox commands in acceptance order, then register writes (R380). -/
  changes : List Change
  regWrites : List Change
  answers : List Answer
  /-- Command records of the tick (R216). -/
  cmds : List CmdRec
  plans : Tab Plan
  admissions : Nat
  cores : Tab CoreCtx
  crumbUnits : Tab CrumbUnit
  /-- Bank DRAM of every slice: 2^28·site + 4 MiB·bank + byte, spare rows from 2^28·site + 0x0C00_0000. -/
  dram : List Host.Cell
  /-- Words whose code is not clean, keyed by DRAM byte address / 8. -/
  words : Tab WordSt
  /-- Stacks whose contents were lost: every word of their slices not listed in `words` reads as poisoned (R271). -/
  lostStacks : List Nat
  /-- Published floor plan rows, 16·stack + row; absent: every site 0-14 good, column 15 good and idle. -/
  rows : Tab FpRow
  /-- Rows as worked on since the last publication. -/
  newRows : Tab FpRow
  fpGen : W32
  fpTick : Nat
  fpFlags : BitVec 8
  /-- A floor plan has been published since the cold start (R22, R360): GOOD, DIGEST and the distances are shown. -/
  fpLive : Bool
  stk : Tab Stack
  ports : Tab Port
  rings : Tab Ring
  /-- Last SRC_INDEX accepted, by 128·device + ring (R277). -/
  accepted : Tab Nat
  /-- TLink packets to send, in order: port and packet, with KIND. -/
  tlinkOut : List (Nat × Nat × Packet)
  /-- Sources told to HOLD: device, ring, plan (R277). -/
  tlinkHeld : List (Nat × Nat × Nat)
  /-- Destination devices and plans that have told this device to HOLD, by 65,536·device + plan (R277). -/
  heldAway : List Nat
  quads : Tab Quad
  therm : Tab Therm
  power : Power
  cfg : Config1
  layouts : Tab Layout
  /-- The session that set each layout, 0 when orphaned, and the function it belongs to (R384). -/
  layoutOwners : Tab (Nat × Nat)
  pools : Tab Pool
  descs : Tab Desc
  seqs : Tab SeqRec
  /-- The table stores (R177): words of a table, by 2^24 times the stack plus its index; a word not listed is zero (log 46). -/
  tables : Tab (Tab Nat)
  /-- Tables copied by the edits of the tick's commands, and at a commit all its copies (R186). -/
  shadows : List Shadow
  /-- Copies of layout slots that a write through BAR2 changed, by 256 times the stack plus the slot (R177, R188). -/
  layoutCopies : Tab (List Byte)
  journal : List JRec
  jpend : List JPend
  nextJournal : Nat
  /-- Mesh flits and die-edge frames in flight, oldest first. -/
  flits : List NetFlit
  frames : List NetFrame
  /-- Next FSEQ of each engine pair and direction, by 8192·source + 256·destination + 16·engine + engine there (R257). -/
  fseqs : Tab (BitVec 16)
  /-- Operand flits held by fold instances (R245). -/
  foldBuf : List NetFlit
  /-- Transfers a router has refused with UNAVAIL in the attempt: stack, site, and the transfer or fold (R248). -/
  absorbed : List (Nat × Nat × Nat × Nat × Nat)
  /-- DATA frames sent and not yet credited on die-edge links, by the key of fseqs (R257). -/
  edgeCredits : Tab Nat
  /-- Slots of the optical ports (R259). Reset: GE's at every port, which has no lane yet: none. -/
  slots : List SlotRun
  records : Tab (List ARec)
  links : List Link
  seals : List Seal
  sealAsked : Bool
  /-- The model's own: tick and LINK_NUMBER of the last seal of this boot whose signature is complete (R223). -/
  sealed : Option (Nat × Nat)
  /-- Next seal point not yet sealed (R221). -/
  sealNext : Nat
  chain : List Byte
  linkCount : Nat
  /-- TICK of the last link (R221). -/
  chainTick : Nat
  markers : List Nat
  ledgers : List Ledger
  cmdLog : List CmdRec
  replay : Option Replay
  /-- Changes of the command records of the running replay tick, made at its commit (R226). -/
  replayChanges : List Change
  /-- Areas whose space event has been posted, and plans backpressured for evidence space (R224). -/
  evdLow : List Nat
  teleStack : Tab (List StackTele)
  teleDev : List DevTele
  /-- Field-fault records staged in the reserve and not yet in MRAM, and the index up to which commits have staged them (R309). -/
  staging : List FaultRec
  stagedTo : Nat
  /-- LOG_INDEX: the index the next record takes; held in MRAM, and it never repeats. -/
  logNext : Nat
  faultMap : FaultMap
  mapDirty : Bool
  drain : BitVec 10
  /-- Drain causes raised since the last commit: bit, structure, and whether the fault map records it. -/
  drainPend : List (Nat × Nat × Bool)
  scrubPaused : Bool
  scrubPausedAt : Nat
  scrubPassTick : Nat
  inject : Option Inject
  scrubbed : Tab Nat
  /-- Rewritten words awaiting their reread: DRAM word, uncorrectable (R286), and lasting words found per row. -/
  rereads : Tab Bool
  lastingWords : List Nat
  /-- Words an injection made wrong (R312). -/
  injWords : List Nat
  lastPass : Patrols
  /-- Bench and register errors corrected, by physical site (R90); no register shows them. -/
  corrected : Tab Nat
  mailboxes : Tab Mailbox
  sessions : Tab Session
  host : HostIf
  eventLog : List EventRec
  nextEvent : Nat
  /-- Events held while no Zororlon runs, their EVENT_INDEX not yet given (R307, R396). -/
  heldEvents : List EventRec
  hearth : Hearth
  debugLevel : Nat
  tapOpen : Bool
  /-- The live nonce of a function, with the timestamp of its issue (R417). -/
  nonces : Tab (Nat × List Byte)
  quotes : List QuoteReq
  signingStopped : Bool
  dbg : DebugBlk
  fuses : Fuses
  mram : Mram
  boot : Boot
  pins : Pins
  /-- The reserve bytes a BAR2 write or a plan image put there, keyed 2^28·site + byte, are in `dram`; slice controllers held
  in reset after a lasting fault (R297), by site. -/
  sliceReset : List Nat
  /-- Quadrants in reset (R248), 4·stack + quadrant. -/
  quadReset : List Nat
deriving DecidableEq, Repr

/-! ## The state after reset -/

/-- The sequencer at reset (R58): period 200,000 ns, INTERNAL, counters zero. -/
def Seqr.init : Seqr :=
  { count := 0, lastCommitted := 0, period := 200000, placed := 200000, periodPend := none, external := false,
    sourcePend := none, awaitEdge := false, flywheelRun := 0, flywheel := false, sourceLost := false, periodReject := false,
    lateEvtEn := true, late := false, wrapEn := 0, wrapPend := none, phase := .idle, tick := 0, attempt := 1,
    boundaries := 0, abandoned := 0, cooling := false, startedNs := 0, runs := [], leftOut := [], prevFault := none,
    curFault := none, prevProg := none, curProg := none, shift := none, shiftedTo := none, commitFault := none,
    suspend := [], patrol := 0, time := 0, maxRecovery := 0, fpChanged := false, tickOut := 0,
    dueMissed := false }

/-- A tick with no work yet. -/
def Work.empty : Work :=
  { inputs := [], incs := [], perfs := [], staged := [], appends := [], newPages := [], taken := [], shadows := [], records := [],
    events := [], reported := [], rewrites := [], remaps := [], stageErrs := [], unwritten := [] }

/-- A group of no sequence. -/
def Group.init : Group := { lcid := 0, layout := 0, pageLog2 := 8, len := 0, dir := none, gaps := [], move := none }

/-- The heat and power registers at reset (R346). -/
def Power.init : Power :=
  { inlet := 0, flow := 0, flowMin := 0xC8, flowMinPend := none, capW := 600, throttleCapW := 600, degradedCapW := 600,
    forecastCapW := 600, warmupEn := true, warmupPend := none, rackLatch := false, reportLost := false, warmup := false,
    coldHold := false, coolantStop := false, flowFault := false, degraded := false, dsteps := 0, state := .active,
    entering := none, off := [], ungating := [], joining := [], actions := [], thr := ⟨600, none⟩, fc := ⟨600, none⟩, coolPend := [],
    calib := [704, 30000, 576, 150000, 48], trips := [], rackAt := 0, vcoreOk := true, coolSamples := 0, samples := 0,
    inletOut := false, energies := [] }

/-- A fault map with nothing in it (R308). -/
def FaultMap.empty : FaultMap :=
  { failed := [], shifts := [], crumbs := [], slices := [], engines := [], remaps := [], granules := [], lanes := [], drain := 0 }

/-- MRAM as the model takes it at reset: a device never started, in Blank (log 5, DESIGN CHOICE). -/
def Mram.init : Mram :=
  { bootCount := 0, map := FaultMap.empty, testFail := [], scrubPos := [], log := [],
    skipped := 0, nextIndex := 0, copies := (true, true), svnFloor := 0, life := .blank, deploy := none, identity := none, certs := [],
    sealHead := List.replicate 32 0, sealNumber := 0, calib := [704, 30000, 576, 150000, 48], fused := [] }

/-- The fuses as the model takes them: stepping 0, grade A, no hole (log 4, DESIGN CHOICE). -/
def Fuses.init : Fuses :=
  { stepping := 0, grade := 0, factoryGood := 4800, serial := 0, dieSerials := [], holes := [], badSpares := [],
    lanes := [], portLanes := [], caDigest := List.replicate 32 0, fwDigest := List.replicate 32 0, debugDigest := List.replicate 32 0, erased := false }

/-- Registers of the I/O die outside the other groups, at reset (R136, R170, R208, R279). -/
def Config1.init : Config1 :=
  { globalSteps := 2, stepsPend := none, memReject := false, zeroing := false, budget := 4, budgetPend := none,
    budgetReject := false, effective := 4, storeLowWater := 0x4000, poolLowWater := 0x10, storeFreeMin := 2813952,
    storeLow := [], devAddr := 0, dims := 0, globalWaves := 8, wavesPend := none, linkReject := false, linkMapDown := [] }

/-- Bring-up before the release of PERST_N (R347, R363, R438). -/
def Boot.init : Boot :=
  { stage := 0, last := 0, st := .running, cause := 0, kind := .cold, coldWait := false, fetchWait := false, overflow := false,
    records := [], readyIndex := none, stk := [], bad := [], badUnits := [], coldQuads := [],
    mapLost := false, remaps := 0, startNs := 0, stageNs := 0, fetchNs := 0, fetchUs := 0, hearthFails := 0, rejected := 0,
    dieAuth := [], released := false, lostClocks := [], env := none, off := false }

/-- The machine right after reset: PERST_N asserted with every supply valid, before stage P0; every register at the reset
value of its table, DRAM empty. -/
def State.reset : State :=
  { pending := [], fresh := 0, seqr := Seqr.init, work := Work.empty, devIncs := [], devPerfs := [], devEvents := [],
    counters := [], perfs := [], clears := [], perfClears := [], changes := [], regWrites := [], answers := [], cmds := [],
    plans := [], admissions := 0, cores := [], crumbUnits := [], dram := [], words := [], lostStacks := [], rows := [], newRows := [],
    fpGen := 0, fpTick := 0, fpFlags := 0, fpLive := false, stk := [], ports := [], rings := [], accepted := [], tlinkOut := [],
    tlinkHeld := [], heldAway := [], quads := [], therm := [], power := Power.init, cfg := Config1.init, layouts := [], layoutOwners := [], pools := [],
    descs := [], seqs := [], tables := [], shadows := [], layoutCopies := [], journal := [], jpend := [], nextJournal := 0, flits := [], frames := [], fseqs := [], foldBuf := [], absorbed := [], edgeCredits := [], slots := [],
    records := [], links := [], seals := [], sealAsked := false, sealed := none, sealNext := 4095, chain := List.replicate 32 0,
    linkCount := 0, chainTick := 0, markers := [], ledgers := [], cmdLog := [], replay := none, replayChanges := [], evdLow := [], teleStack := [],
    teleDev := [], staging := [], stagedTo := 0, logNext := 0, faultMap := FaultMap.empty, mapDirty := false, drain := 0, drainPend := [],
    scrubPaused := false, scrubPausedAt := 0, scrubPassTick := 0, inject := none, scrubbed := [], rereads := [], lastingWords := [], injWords := [],
    lastPass := ⟨[], [], []⟩, corrected := [], mailboxes := [], sessions := [],
    host := { bar2Base := 0, cfgReject := false, regHolders := [], memHolders := [], ceilings := [], capGen := 0, capSeen := [], msix := [],
              bar2Answer := (0, []), lastRead := 0, keys := [] },
    eventLog := [], nextEvent := 0, heldEvents := [],
    hearth := { up := true, handover := none, running := false, measurement := List.replicate 32 0, svn := 0, staged := none,
                restarts := [], adoptable := false, lastServed := 255, mirrors := [] },
    debugLevel := 1, tapOpen := false, nonces := [], quotes := [], signingStopped := false,
    dbg := { shadowMask := List.replicate 16 0xFFFF, benchLcid := 0xFFFF, benchLatch := false, latchTick := 0, shadows := [],
             fresh := [], latch := none },
    fuses := Fuses.init, mram := Mram.init, boot := Boot.init,
    pins := { thermtrip := false, sbInlet := 0, sbFlow := 0, supply := false, serial := true, restartPending := false, i3c := none,
              tapIr := 0x01, tapData := 0, tapUnpowered := false, hostUp := true, config := 0, laserActive := 0,
              laserSpareOk := true },
    sliceReset := [], quadReset := [] }

end Sys2Proof.Machine
end

