-- ==== Sys2Proof/Machine/Tables.lean ====
section
/-! DEFINITION. Reading and writing sparse tables and byte memories. An unlisted byte reads zero (log 6). -/

namespace Sys2Proof.Machine

/-- The value at key `k`, if one is listed. -/
def Tab.get {α : Type} : Tab α → Nat → Option α
  | [], _ => none
  | (j, v) :: t, k => if j = k then some v else Tab.get t k

/-- The value at key `k`, or a default. -/
def Tab.getD {α : Type} (t : Tab α) (k : Nat) (d : α) : α := (Tab.get t k).getD d

/-- Sets the value at key `k`, keeping keys rising. -/
def Tab.set {α : Type} : Tab α → Nat → α → Tab α
  | [], k, v => [(k, v)]
  | (j, w) :: t, k, v =>
    if j = k then (k, v) :: t else if k < j then (k, v) :: (j, w) :: t else (j, w) :: Tab.set t k v

/-- Removes key `k`. -/
def Tab.del {α : Type} (t : Tab α) (k : Nat) : Tab α := t.filter fun e => e.1 != k

/-- A byte memory. -/
abbrev Mem := List Host.Cell

/-- The byte at an address: an unlisted address reads zero. -/
def Mem.get : Mem → Nat → BitVec 8
  | [], _ => 0
  | (j, v) :: t, k => if j = k then v else Mem.get t k

/-- Writes a byte, keeping the canonical form: addresses rising, no byte listed that reads zero unlisted. -/
def Mem.set : Mem → Nat → BitVec 8 → Mem
  | [], k, v => if v = 0 then [] else [(k, v)]
  | (j, w) :: t, k, v =>
    if j = k then (if v = 0 then t else (k, v) :: t)
    else if k < j then (if v = 0 then (j, w) :: t else (k, v) :: (j, w) :: t)
    else (j, w) :: Mem.set t k v

/-- `n` bytes from an address. -/
def Mem.read (m : Mem) (a n : Nat) : List Byte := (List.range n).map fun i => Mem.get m (a + i)

/-- Writes bytes at an address, lowest first. -/
def Mem.write (m : Mem) (a : Nat) : List Byte → Mem
  | [] => m
  | b :: bs => Mem.write (Mem.set m a b) (a + 1) bs

/-- Every address of the memory is above `lo`, addresses rise, and no byte listed is zero. -/
def Mem.above : Nat → Mem → Bool
  | _, [] => true
  | lo, (j, v) :: t => decide (lo < j) && decide (v ≠ 0) && Mem.above j t

/-- The canonical form of a byte memory. -/
def Mem.wf : Mem → Bool
  | [] => true
  | (j, v) :: t => decide (v ≠ 0) && Mem.above j t

/-- Little-endian number of bytes (R3). -/
def leNat : List Byte → Nat
  | [] => 0
  | b :: bs => b.toNat + 256 * leNat bs

/-- `n` little-endian bytes of a number (R3). -/
def leBytes (n v : Nat) : List Byte := (List.range n).map fun i => BitVec.ofNat 8 (v / 256 ^ i)

/-- Bytes `i` to `i + n - 1` of a list, zero beyond its end. -/
def slice (l : List Byte) (i n : Nat) : List Byte := (List.range n).map fun k => l.getD (i + k) 0

/-- The little-endian field of `n` bytes at `i`. -/
def field (l : List Byte) (i n : Nat) : Nat := leNat (slice l i n)

/-- The status returned first of two (R9). -/
def Status.rank : Status → Nat
  | .nospt => 0 | .denied => 1 | .stalemsg => 2 | .unavail => 3 | .busy => 4 | .limit => 5 | .poison => 6 | .late => 7
  | .stale => 8 | .ok => 9

/-- The encoding of a status code (R8). -/
def Status.code : Status → Nat
  | .ok => 0 | .stale => 1 | .poison => 2 | .unavail => 3 | .busy => 4 | .late => 5 | .denied => 6 | .limit => 7
  | .nospt => 8 | .stalemsg => 9

/-- The status of a code; reserved codes are treated as failures in which nothing was performed (R8). -/
def Status.ofCode (n : Nat) : Status :=
  match n with
  | 0 => .ok | 1 => .stale | 2 => .poison | 3 => .unavail | 4 => .busy | 5 => .late | 6 => .denied | 7 => .limit | 8 => .nospt
  | 9 => .stalemsg | _ => .nospt

/-- The first applicable of two codes (R9). -/
def Status.first (a b : Status) : Status := if a.rank ≤ b.rank then a else b

end Sys2Proof.Machine
end

