-- ==== Sys2Proof/Machine/Flags.lean ====
section
/-! DEFINITION. Exact arithmetic on the element formats of R69, its rounding (R70) and the FLAGS bits it sets (R74). -/

namespace Sys2Proof.Machine

open Sys2Proof

/-- The FLAGS bits an operation raises: ISAT, INV, OVF, SAT in [3:0] (R74). -/
abbrev Fl := BitVec 4

/-- SAT. -/
def flSat : Fl := 1
/-- OVF. -/
def flOvf : Fl := 2
/-- INV. -/
def flInv : Fl := 4
/-- ISAT. -/
def flIsat : Fl := 8

/-- A value of a format: NaN, an infinity, or an exact sign, magnitude and power of two. -/
inductive Val where
  | nan
  | inf (neg : Bool)
  | fin (neg : Bool) (m : Nat) (e : Int)
deriving DecidableEq, Repr

/-- Plus zero. -/
def Val.zero : Val := .fin false 0 0

/-- A binary format: exponent and fraction bits, bias, and whether it has infinities and NaN (R69). -/
structure Fmt where
  eb : Nat
  fb : Nat
  bias : Int
  hasInf : Bool
  hasNan : Bool
deriving DecidableEq, Repr

/-- FP32. -/
def fp32 : Fmt := ⟨8, 23, 127, true, true⟩
/-- BF16. -/
def bf16 : Fmt := ⟨8, 7, 127, true, true⟩
/-- FP8 E4M3. -/
def e4m3 : Fmt := ⟨4, 3, 7, false, true⟩
/-- FP8 E5M2. -/
def e5m2 : Fmt := ⟨5, 2, 15, true, true⟩
/-- MXFP6 E2M3. -/
def e2m3 : Fmt := ⟨2, 3, 1, false, false⟩
/-- MXFP6 E3M2. -/
def e3m2 : Fmt := ⟨3, 2, 3, false, false⟩
/-- MXFP4 E2M1. -/
def e2m1 : Fmt := ⟨2, 1, 1, false, false⟩

/-- The value of an encoding (R69). -/
def Fmt.decode (f : Fmt) (n : Nat) : Val :=
  let fr := n % 2 ^ f.fb
  let ex := n / 2 ^ f.fb % 2 ^ f.eb
  let neg := n / 2 ^ (f.fb + f.eb) % 2 == 1
  let top := 2 ^ f.eb - 1
  if f.hasInf && ex == top then (if fr == 0 then .inf neg else .nan)
  else if f.hasNan && !f.hasInf && ex == top && fr == 2 ^ f.fb - 1 then .nan
  else if ex == 0 then .fin neg fr (1 - f.bias - f.fb)
  else .fin neg (2 ^ f.fb + fr) (ex - f.bias - f.fb)

/-- `m · 2^e` to nearest, ties to even, with at most `p` bits and no bit below `2^lo`: the magnitude and its exponent. -/
def roundNE (p : Nat) (lo : Int) (m : Nat) (e : Int) : Nat × Int :=
  let q := max (e + (Nat.log2 m + 1 : Nat) - p) lo
  if q ≤ e then (m * 2 ^ (e - q).toNat, q)
  else
    let d := (q - e).toNat
    let k := m / 2 ^ d
    let r := m % 2 ^ d
    let up := decide (2 ^ (d - 1) < r) || (decide (r = 2 ^ (d - 1)) && k % 2 == 1)
    (if up then k + 1 else k, q)

/-- The largest finite magnitude of a format, as a fraction field and exponent field together. -/
def Fmt.maxCode (f : Fmt) : Nat :=
  if f.hasInf then (2 ^ f.eb - 1) * 2 ^ f.fb - 1
  else if f.hasNan then 2 ^ (f.eb + f.fb) - 2 else 2 ^ (f.eb + f.fb) - 1

/-- The canonical NaN of a format (R70). -/
def Fmt.nan (f : Fmt) : Nat :=
  if f.hasInf then (2 ^ f.eb - 1) * 2 ^ f.fb + 2 ^ (f.fb - 1)
  else 2 ^ (f.eb + f.fb) - 1

/-- The magnitude code of a rounded finite value: exponent and fraction fields, unbounded above. -/
def Fmt.magCode (f : Fmt) (m : Nat) (e : Int) : Nat :=
  let lo : Int := 1 - f.bias - f.fb
  let (k, q) := roundNE (f.fb + 1) lo m e
  if k = 0 then 0
  else
    -- k has at most fb + 2 bits (a carry); the code rises continuously with the magnitude
    ((q - lo).toNat) * 2 ^ f.fb + k

/-- The encoding of a value in a format, and the flag its limits set (R70, Table: Conversion at the limits). A NaN in a format that
has none, whose block has no scale to say so (NOSCALE), leaves code 0 with INV (log 82, DESIGN CHOICE). -/
def Fmt.encode (f : Fmt) (v : Val) : Nat × Fl :=
  let sg (neg : Bool) (c : Nat) : Nat := if neg then 2 ^ (f.eb + f.fb) + c else c
  match v with
  | .nan => if f.hasNan then (f.nan, 0) else (0, flInv)
  | .inf neg =>
    if f.hasInf then (sg neg ((2 ^ f.eb - 1) * 2 ^ f.fb), 0) else (sg neg f.maxCode, flSat)
  | .fin neg m e =>
    let c := f.magCode m e
    if c ≤ f.maxCode then (sg neg c, 0)
    else if f.eb == 8 then (sg neg ((2 ^ f.eb - 1) * 2 ^ f.fb), flOvf)
    else (sg neg f.maxCode, flSat)

/-- An FP32 word as a value. -/
def val32 (w : W32) : Val := fp32.decode w.toNat

/-- A BF16 half as a value. -/
def val16 (w : BitVec 16) : Val := bf16.decode w.toNat

/-- A value rounded to FP32. -/
def to32 (v : Val) : W32 × Fl := let (n, f) := fp32.encode v; (BitVec.ofNat 32 n, f)

/-- The exact sum of two values; an exact zero sum is +0 unless both are −0 (IEEE 754 to nearest); Inf − Inf is NaN with INV. -/
def Val.add (a b : Val) : Val × Fl :=
  match a, b with
  | .nan, _ => (.nan, 0)
  | _, .nan => (.nan, 0)
  | .inf x, .inf y => if x = y then (.inf x, 0) else (.nan, flInv)
  | .inf x, _ => (.inf x, 0)
  | _, .inf y => (.inf y, 0)
  | .fin x m e, .fin y n g =>
    let q := min e g
    let sm : Int := (m * 2 ^ (e - q).toNat : Nat)
    let sn : Int := (n * 2 ^ (g - q).toNat : Nat)
    let t := (if x then -sm else sm) + (if y then -sn else sn)
    if t = 0 then (.fin (x && y && m == 0 && n == 0) 0 0, 0) else (.fin (decide (t < 0)) t.natAbs q, 0)

/-- The value with its sign changed. -/
def Val.neg : Val → Val
  | .nan => .nan
  | .inf x => .inf !x
  | .fin x m e => .fin (!x) m e

/-- The exact product; 0 × Inf is NaN with INV. -/
def Val.mul (a b : Val) : Val × Fl :=
  match a, b with
  | .nan, _ => (.nan, 0)
  | _, .nan => (.nan, 0)
  | .inf x, .inf y => (.inf (x != y), 0)
  | .inf x, .fin y m _ => if m = 0 then (.nan, flInv) else (.inf (x != y), 0)
  | .fin x m _, .inf y => if m = 0 then (.nan, flInv) else (.inf (x != y), 0)
  | .fin x m e, .fin y n g => (.fin (x != y) (m * n) (e + g), 0)

/-- The quotient, kept to enough bits that rounding it once is correct; x / 0 is an infinity, 0 / 0 and Inf / Inf are NaN. -/
def Val.div (a b : Val) : Val × Fl :=
  match a, b with
  | .nan, _ => (.nan, 0)
  | _, .nan => (.nan, 0)
  | .inf _, .inf _ => (.nan, flInv)
  | .inf x, .fin y _ _ => (.inf (x != y), 0)
  | .fin x _ _, .inf y => (.fin (x != y) 0 0, 0)
  | .fin x m e, .fin y n g =>
    if n = 0 then (if m = 0 then (.nan, flInv) else (.inf (x != y), flOvf))
    else
      let k := 32 + Nat.log2 n
      let q := m * 2 ^ k / n
      let st := if m * 2 ^ k % n = 0 then 0 else 1
      (.fin (x != y) (2 * q + st) (e - g - k - 1), 0)

/-- The integer square root. -/
def isqrt (n : Nat) : Nat := Nat.sqrt n

/-- The square root, kept to enough bits that rounding it once is correct (R89). -/
def Val.sqrt (a : Val) : Val × Fl :=
  match a with
  | .nan => (.nan, 0)
  | .inf false => (.inf false, 0)
  | .inf true => (.nan, flInv)
  | .fin x m e =>
    if m = 0 then (.fin x 0 0, 0)
    else if x then (.nan, flInv)
    else
      let odd : Nat := (e % 2).toNat
      let n := m * 2 ^ (odd + 64)
      let r := isqrt n
      let st := if r * r = n then 0 else 1
      (.fin false (2 * r + st) ((e - odd - 64) / 2 - 1), 0)

/-- Rounds a result to FP32 and joins its flags. -/
def rnd (r : Val × Fl) : W32 × Fl := let (w, f) := to32 r.1; (w, f ||| r.2)

/-- FP32 addition, rounded once (R70). -/
def fadd (a b : W32) : W32 × Fl := rnd ((val32 a).add (val32 b))
/-- FP32 subtraction. -/
def fsub (a b : W32) : W32 × Fl := rnd ((val32 a).add (val32 b).neg)
/-- FP32 multiplication. -/
def fmul (a b : W32) : W32 × Fl := rnd ((val32 a).mul (val32 b))
/-- FP32 division, correctly rounded. -/
def fdiv (a b : W32) : W32 × Fl := rnd ((val32 a).div (val32 b))
/-- a × b + c with one rounding. -/
def ffma (a b c : W32) : W32 × Fl :=
  let (p, f) := (val32 a).mul (val32 b)
  let (r, g) := p.add (val32 c)
  let (w, h) := to32 r
  (w, f ||| g ||| h)

/-- Order of two values that are no NaN: less than, with −0 below +0 when `zeros` is set. -/
def Val.lt (zeros : Bool) (a b : Val) : Bool :=
  match a, b with
  | .nan, _ => false
  | _, .nan => false
  | .inf x, .inf y => x && !y
  | .inf x, .fin _ _ _ => x
  | .fin _ _ _, .inf y => !y
  | .fin x m e, .fin y n g =>
    if m = 0 && n = 0 then zeros && x && !y
    else
      let q := min e g
      let sm : Int := (m * 2 ^ (e - q).toNat : Nat)
      let sn : Int := (n * 2 ^ (g - q).toNat : Nat)
      decide ((if x then -sm else sm) < (if y then -sn else sn))

/-- A NaN word. -/
def isNan (w : W32) : Bool := match val32 w with | .nan => true | _ => false

/-- max: NaN propagates, +0 > −0 (R88). -/
def fmax (a b : W32) : W32 :=
  if isNan a || isNan b then 0x7FC00000 else if Val.lt true (val32 a) (val32 b) then b else a
/-- min: NaN propagates, −0 < +0 (R88). -/
def fmin (a b : W32) : W32 :=
  if isNan a || isNan b then 0x7FC00000 else if Val.lt true (val32 b) (val32 a) then b else a

/-- An integer held in `w` bits, saturating, with ISAT (R70, R73). -/
def satInt (w : Nat) (v : Int) : BitVec w × Fl :=
  if v < -(2 ^ (w - 1)) then (BitVec.ofInt w (-(2 ^ (w - 1))), flIsat)
  else if 2 ^ (w - 1) - 1 < v then (BitVec.ofInt w (2 ^ (w - 1) - 1), flIsat)
  else (BitVec.ofInt w v, 0)

/-- A value to an integer, to nearest ties to even, saturating (R70): NaN gives 0 with INV. -/
def Val.toInt (w : Nat) : Val → BitVec w × Fl
  | .nan => (0, flInv)
  | .inf x => if x then (BitVec.ofInt w (-(2 ^ (w - 1))), flIsat) else (BitVec.ofInt w (2 ^ (w - 1) - 1), flIsat)
  | .fin x m e =>
    let (k, q) := roundNE (Nat.log2 m + 2) (max e 0) m e
    let n : Int := (k * 2 ^ q.toNat : Nat)
    satInt w (if x then -n else n)

/-- An integer as a value. -/
def Val.ofInt (n : Int) : Val := .fin (decide (n < 0)) n.natAbs 0

/-! ## VFUNC (R89) -/

/-- Fraction bits of the fixed-point numbers the reference values are formed in. -/
def fixBits : Nat := 160

/-- ln 2. -/
def ln2Fix : Nat := 1013035739299659071135698605846798551586536899366

/-- 2 √(2/π). -/
def geluFix : Nat := 2332219184028872162936766921774799528781383630017

/-- A number held to 2^10 either way, where every function of R89 has long reached its limit. -/
def clampFix (x : Int) : Int := max (-(2 ^ (fixBits + 10))) (min (2 ^ (fixBits + 10)) x)

/-- A finite magnitude and sign in fixed point. -/
def toFix (neg : Bool) (m : Nat) (e : Int) : Int :=
  let q := e + fixBits
  let n : Int := if 0 ≤ q then (m * 2 ^ (min q.toNat 512) : Nat) else (m / 2 ^ (min (-q).toNat 512) : Nat)
  clampFix (if neg then -n else n)

/-- A fixed-point number as a value. -/
def ofFix (x : Int) : Val := .fin (decide (x < 0)) x.natAbs (-fixBits)

/-- e^r for 0 ≤ r < ln 2, by its series. -/
def expSeries (r : Nat) : Nat :=
  ((List.range 48).foldl (fun (a : Nat × Nat) k => let t := a.2 * r / 2 ^ fixBits / (k + 1); (a.1 + t, t)) (2 ^ fixBits, 2 ^ fixBits)).1

/-- e^x as a magnitude and the power of two it is taken by. -/
def expFix (x : Int) : Nat × Int :=
  let n := x / ln2Fix
  (expSeries (x - n * ln2Fix).toNat, n - fixBits)

/-- e^x of x ≤ 0, in fixed point. -/
def expNeg (x : Int) : Nat := let p := expFix x; p.1 / 2 ^ (-(p.2 + fixBits)).toNat

/-- 1 / (1 + e^−x). -/
def sigmoidVal (x : Int) : Val :=
  let d := 2 ^ fixBits + expNeg (-x.natAbs)
  if 0 ≤ x then .fin false (2 ^ (2 * fixBits) / d) (-fixBits) else let p := expFix x; .fin false (p.1 * 2 ^ fixBits / d) p.2

/-- tanh x: x − x³/3 where |x| is small. -/
def tanhVal (x : Int) : Val :=
  let a := x.natAbs
  if a < 2 ^ (fixBits - 20) then ofFix (x - x * a * a / (3 * 2 ^ (2 * fixBits)))
  else let e := expNeg (-(2 * a : Nat)); .fin (decide (x < 0)) ((2 ^ fixBits - e) * 2 ^ fixBits / (2 ^ fixBits + e)) (-fixBits)

/-- ln of m · 2^e, by the series of (y − 1)/(y + 1) for y in [1, 2). -/
def logVal (m : Nat) (e : Int) : Val :=
  let l := Nat.log2 m
  let z := (m - 2 ^ l) * 2 ^ fixBits / (m + 2 ^ l)
  let s := ((List.range 56).foldl
    (fun (a : Nat × Nat) k => (a.1 + a.2 / (2 * k + 1), a.2 * z / 2 ^ fixBits * z / 2 ^ fixBits)) (0, z)).1
  ofFix (2 * s + (l + e) * ln2Fix)

/-- 1 / √(m · 2^e). -/
def rsqrtVal (m : Nat) (e : Int) : Val :=
  let odd : Nat := (e % 2).toNat
  .fin false (Nat.sqrt (2 ^ 320 / (m * 2 ^ odd))) (-160 - (e - odd) / 2)

/-- What a function of a finite nonzero operand would be with no error; none for those that are correctly rounded. -/
def vfuncRef (code : Nat) (neg : Bool) (m : Nat) (e : Int) : Option Val :=
  let x := toFix neg m e
  match code with
  | 0 => let p := expFix x; some (.fin false p.1 p.2)
  | 1 => some (logVal m e)
  | 3 => some (rsqrtVal m e)
  | 4 => some (if e < -60 - Nat.log2 m then .fin neg m e else tanhVal x)
  | 5 => some (sigmoidVal x)
  | 6 => some ((Val.fin neg m e).mul (sigmoidVal x)).1
  | 7 =>
    let u := clampFix (geluFix * (x + 44715 * x * x * x / (1000000 * 2 ^ (2 * fixBits))) / 2 ^ fixBits)
    some ((Val.fin neg m e).mul (sigmoidVal u)).1
  | _ => none

/-- Maximum error of a function in units of the last place. -/
def vfuncUlp (code : Nat) : Nat := if code = 3 then 1 else 2

/-- A result inside the error bound (R89): the reference rounded to FP32, moved by as many codes as the device's fixed algorithm makes
of it, a free value within the bound (log 10). Past the largest finite value it is infinite, with OVF. -/
def inBound (ulp : Nat) (dev : W32) (v : Val) : W32 × Fl :=
  let r := fp32.encode v
  if r.2 ≠ 0 then (BitVec.ofNat 32 r.1, r.2)
  else
    let mag := min (r.1 % 2 ^ 31 + dev.toNat % (2 * ulp + 1) - ulp) fp32.maxCode
    (BitVec.ofNat 32 (r.1 / 2 ^ 31 * 2 ^ 31 + mag), 0)

/-- VFUNC by code (R89): RECIP and SQRT correctly rounded, the special cases of every function, else the device's fixed algorithm, a
free value within the function's error bound; where the rule gives neither case nor bound, free altogether (log 10). -/
def vfuncW (code : Nat) (x : W32) : W32 × Fl :=
  let v := val32 x
  let dev : W32 := Config.vfunc code x
  let sub : W32 × Fl :=
    match v with
    | .fin s (m + 1) e => (match vfuncRef code s (m + 1) e with | some r => inBound (vfuncUlp code) dev r | none => (dev, 0))
    | .nan => (0x7FC00000, 0)
    | _ => if isNan dev then (0x7FC00000, 0) else (dev, 0)
  match code, v with
  | _, .nan => (0x7FC00000, 0)
  | 0, .inf true => (0, 0)
  | 0, .inf false => (0x7F800000, 0)
  | 0, .fin _ 0 _ => (0x3F800000, 0)
  | 1, .fin _ 0 _ => (0xFF800000, flOvf)
  | 1, .inf true => (0x7FC00000, flInv)
  | 1, .fin true _ _ => (0x7FC00000, flInv)
  | 2, w => rnd ((val32 0x3F800000).div w)
  | 3, .fin false 0 _ => (0x7F800000, flOvf)
  | 3, .inf true => (0x7FC00000, flInv)
  | 3, .fin true (_ + 1) _ => (0x7FC00000, flInv)
  | 4, .inf true => (0xBF800000, 0)
  | 4, .inf false => (0x3F800000, 0)
  | 5, .inf true => (0, 0)
  | 5, .inf false => (0x3F800000, 0)
  | 6, .inf true => (0x80000000, 0)
  | 6, .inf false => (0x7F800000, 0)
  | 7, .inf true => (0x80000000, 0)
  | 7, .inf false => (0x7F800000, 0)
  | 8, w => rnd w.sqrt
  | _, _ => sub

/-- EXP on FP32 (R97, R191): the VFUNC EXP algorithm. -/
def fexp (x : W32) : W32 × Fl := vfuncW 0 x

/-- Multiplies by a power of two, rounding once (R72). -/
def scale2 (w : W32) (k : Int) : W32 × Fl :=
  match val32 w with
  | .fin x m e => rnd (.fin x m (e + k), 0)
  | v => rnd (v, 0)

end Sys2Proof.Machine
end

