-- ==== Sys2Proof/WellFormed.lean ====
section
/-! DEFINITION. Which commands are well formed: their operands name units the spec numbers. -/

namespace Sys2Proof

/-- A stack number (R11). -/
def validStack (s : Nat) : Bool := decide (s < 20)

/-- A logical core ID that is not invalid (R15, R16). -/
def validLcid (c : Lcid) : Bool :=
  decide (c.toNat / 256 < 20) && decide (c.toNat % 16 < 15)

/-- A physical core site of a stack, column 15 included (R12). -/
def validSite (n : Nat) : Bool := decide (n < 5120)

/-- The site of a slice that holds crumb units in use, and a slice bank index (R14). -/
def validUnit (u : UnitId) : Bool := decide (u.slice < 5120) && decide (u.bank < 48)

/-- A quadrant number 4s + q (R389). -/
def validQuad (q : Nat) : Bool := decide (q < 80)

/-- A TLink port (R272). -/
def validPort (p : Nat) : Bool := decide (p < 6)

/-- A mailbox (R367). -/
def validMailbox (n : Nat) : Bool := decide (n < 256)

/-- A function: the PF or a VF (R367). -/
def validFn (n : Nat) : Bool := decide (n < 64)

/-- A lane of a die-edge link of a stack (R255), or of a TLink port of the I/O die (R272). -/
def validLane (l : LaneId) : Bool :=
  (decide (l.stack < 20) && decide (l.link < 3) && decide (l.lane < 34))
    || (decide (l.stack = 31) && decide (3 ≤ l.link) && decide (l.link < 9) && decide (l.lane < 9))

/-- A fault site (R297). -/
def validFault (f : FaultSite) : Bool := decide (f.stack < 20) && decide (f.site < 256) && decide (f.index < 48)

/-- A scope of a stage: a stack, or 0x1F for the device (R364). -/
def validScope (n : Nat) : Bool := decide (n < 20) || decide (n = 31)

/-- A command is well formed: every unit it names is one the spec numbers. -/
def Instr.wf : Instr → Bool
  | .internalBoundary _ => true
  | .tickInEdge _ _ _ => true
  | .flywheelBoundary _ => true
  | .tickSourceLost => true
  | .attemptAbandon => true
  | .coreCompletionReport c => validLcid c
  | .collectionReport stack => validStack stack
  | .faultReport f => validFault f
  | .spareShift _ => true
  | .nop c _ => validLcid c
  | .add c _ => validLcid c
  | .sub c _ => validLcid c
  | .mul c _ => validLcid c
  | .and c _ => validLcid c
  | .or c _ => validLcid c
  | .xor c _ => validLcid c
  | .shl c _ => validLcid c
  | .shr c _ => validLcid c
  | .sra c _ => validLcid c
  | .cmp c _ => validLcid c
  | .li c _ => validLcid c
  | .ld c _ => validLcid c
  | .st c _ => validLcid c
  | .br c _ => validLcid c
  | .call c _ => validLcid c
  | .ret c _ => validLcid c
  | .loop c _ => validLcid c
  | .halt c _ => validLcid c
  | .rdcsr c _ => validLcid c
  | .wrcsr c _ => validLcid c
  | .dset c _ => validLcid c
  | .dmod c _ => validLcid c
  | .tload c _ => validLcid c
  | .tstore c _ => validLcid c
  | .sliceTransferDone c => validLcid c
  | .tcopy c _ => validLcid c
  | .tzero c _ => validLcid c
  | .aload c _ => validLcid c
  | .astore c _ => validLcid c
  | .azero c _ => validLcid c
  | .sld c _ => validLcid c
  | .mma c _ => validLcid c
  | .aadd c _ => validLcid c
  | .amov c _ => validLcid c
  | .ascale c _ => validLcid c
  | .vadd c _ => validLcid c
  | .vsub c _ => validLcid c
  | .vmul c _ => validLcid c
  | .vfma c _ => validLcid c
  | .vmax c _ => validLcid c
  | .vmin c _ => validLcid c
  | .vscale c _ => validLcid c
  | .vadds c _ => validLcid c
  | .vfunc c _ => validLcid c
  | .vrsum c _ => validLcid c
  | .vrmax c _ => validLcid c
  | .vbadd c _ => validLcid c
  | .vbmul c _ => validLcid c
  | .vcmul c _ => validLcid c
  | .tcount c _ => validLcid c
  | .tin c _ => validLcid c
  | .rcfg c _ => validLcid c
  | .rgate c _ => validLcid c
  | .rsend c _ => validLcid c
  | .rrecv c _ => validLcid c
  | .rret c _ => validLcid c
  | .rcomb c _ => validLcid c
  | .rexit c _ => validLcid c
  | .rcompact c _ => validLcid c
  | .rstat c _ => validLcid c
  | .scfg c _ => validLcid c
  | .swalk c _ => validLcid c
  | .sappend c _ => validLcid c
  | .smerge c _ => validLcid c
  | .snorm c _ => validLcid c
  | .slen c _ => validLcid c
  | .sstat c _ => validLcid c
  | .cvec c _ => validLcid c
  | .cissue c _ => validLcid c
  | .crumbProgramStart u => validUnit u
  | .crumbGrant slice => validSite slice
  | .fenceCrumb c _ => validLcid c
  | .cstat c _ => validLcid c
  | .endProgram u _ => validUnit u
  | .ldi u _ => validUnit u
  | .addi u _ => validUnit u
  | .crumbAdd u _ => validUnit u
  | .crumbSub u _ => validUnit u
  | .fmt u _ => validUnit u
  | .mv u _ => validUnit u
  | .clra u _ => validUnit u
  | .retv u _ => validUnit u
  | .stv u _ => validUnit u
  | .crumbLoop u _ => validUnit u
  | .nput c _ => validLcid c
  | .mcast c _ => validLcid c
  | .mcastAbandon c _ => validLcid c
  | .fold c _ => validLcid c
  | .nwait c _ => validLcid c
  | .nsync c _ => validLcid c
  | .stsend c _ => validLcid c
  | .nstat c _ => validLcid c
  | .networkTransferDone c _ => validLcid c
  | .windowComplete c _ => validLcid c
  | .flitReadReq f _ => validStack f.stack
  | .flitReadData f _ => validStack f.stack
  | .flitWrite f _ => validStack f.stack
  | .flitPut f _ => validStack f.stack
  | .flitMcast f _ _ => validStack f.stack
  | .flitFold f _ => validStack f.stack
  | .flitRoute f _ => validStack f.stack
  | .flitCrumb f _ => validStack f.stack
  | .flitNack f _ => validStack f.stack
  | .flitComplete f _ => validStack f.stack
  | .flitCredit f _ => validStack f.stack
  | .flitCtrl f _ => validStack f.stack
  | .frameDescriptor f _ => validStack f.src && validStack f.dst
  | .frameData f _ => validStack f.src && validStack f.dst
  | .frameComplete f _ => validStack f.src && validStack f.dst
  | .frameCredit f _ => validStack f.src && validStack f.dst
  | .frameReplayReq f _ => validStack f.src && validStack f.dst
  | .frameIdle f _ => validStack f.src
  | .bundleFrameTimeout stack => validStack stack
  | .ioDieFrameTimeout stack => validStack stack
  | .stackReset stack => validStack stack
  | .laneMarginSample ln _ _ => validLane ln
  | .laneSwap ln => validLane ln
  | .laserLoss => true
  | .tlinkInput port _ _ => validPort port
  | .tlinkAck port _ _ => validPort port
  | .tlinkHold port _ _ => validPort port
  | .tlinkRelease port _ _ => validPort port
  | .tlinkMgmt port _ _ => validPort port
  | .tlinkLinkUp port _ => validPort port
  | .tlinkStale ring => decide (ring < 128)
  | .journalWrite => true
  | .sensorSample _ => true
  | .refreshBandFall quad => validQuad quad
  | .sensorSplitClear quad => validQuad quad
  | .rackRestart => true
  | .suddenStop _ => true
  | .suddenStopClear => true
  | .coolantReportLost => true
  | .coolingDegraded => true
  | .coolingDegradedStep => true
  | .coolingRestored => true
  | .throttleCapRaise => true
  | .refresh slice => validSite slice
  | .patrolScrub slice _ => validSite slice
  | .scrubPauseExpiry => true
  | .scrubPositionSave => true
  | .dramRetrain slice => validSite slice
  | .rewriteReread _ _ => true
  | .faultLogCopy => true
  | .faultMapWrite => true
  | .hearthWatchdogExpiry => true
  | .sealSignatureDone => true
  | .quoteSigned => true
  | .debugLevelLapse _ => true
  | .nonceExpiry fn => validFn fn
  | .fwStagingExpiry => true
  | .firmwareHandover _ => true
  | .zeroingDone => true
  | .quadrantReady quad => validQuad quad
  | .powerStateEntry => true
  | .perstNRelease _ => true
  | .perstNAssert => true
  | .stageP0 _ => true
  | .stageP1 _ => true
  | .stageP2 _ => true
  | .stageP3 _ => true
  | .stageP4 scope _ => validScope scope
  | .stageP5 scope _ => validScope scope
  | .stageP6 scope => validScope scope
  | .stageP7 => true
  | .stageP8 _ => true
  | .stageP9 => true
  | .stageTimeout scope => validScope scope
  | .p4ColdWaitTimeout stack => validStack stack
  | .p5ColdTimeout quad => validQuad quad
  | .supplyFault _ => true
  | .vcoreRestore => true
  | .referenceClockLoss _ => true
  | .functionLevelReset fn => validFn fn
  | .configRequest => true
  | .bar2Read _ _ => true
  | .bar2Write _ _ _ => true
  | .mailboxGo mb _ => validMailbox mb
  | .evTailWrite mb _ => validMailbox mb
  | .counterClear _ _ => true
  | .periodNsWrite _ => true
  | .sourceWrite _ => true
  | .wrapEnWrite _ => true
  | .rateWrite quad _ _ => validQuad quad
  | .globalStepsWrite _ => true
  | .budgetWrite _ => true
  | .globalWavesWrite _ => true
  | .bar2BaseWrite _ => true
  | .thermalConfigWrite _ _ => true
  | .maxRecoveryNsRead => true
  | .registerWrite _ _ _ => true
  | .sidebandReport _ _ => true
  | .sidebandWake => true
  | .i3cDynamicAddress _ => true
  | .idcode => true
  | .samplePreload => true
  | .extest => true
  | .extestPulse => true
  | .extestTrain => true
  | .dbgAccess _ _ => true
  | .bypass => true
  | .tapReset _ => true
  | .seqOpen m => validMailbox m.mb
  | .seqClose m => validMailbox m.mb
  | .seqHold m => validMailbox m.mb
  | .seqRelease m => validMailbox m.mb
  | .seqIngest m => validMailbox m.mb
  | .seqRead m => validMailbox m.mb
  | .planLoad m => validMailbox m.mb
  | .planUnload m => validMailbox m.mb
  | .planAdmit m => validMailbox m.mb
  | .planSuspend m => validMailbox m.mb
  | .planResume m => validMailbox m.mb
  | .planRead m => validMailbox m.mb
  | .tickSetPeriod m => validMailbox m.mb
  | .tickSetSource m => validMailbox m.mb
  | .tickRead m => validMailbox m.mb
  | .tickCntClear m => validMailbox m.mb
  | .tickWrapEn m => validMailbox m.mb
  | .memRead m => validMailbox m.mb
  | .memWrite m => validMailbox m.mb
  | .memFence m => validMailbox m.mb
  | .memConfig m => validMailbox m.mb
  | .memWindowSet m => validMailbox m.mb
  | .kvLayoutSet m => validMailbox m.mb
  | .kvPoolCreate m => validMailbox m.mb
  | .kvPoolDestroy m => validMailbox m.mb
  | .kvFork m => validMailbox m.mb
  | .kvTruncate m => validMailbox m.mb
  | .kvRetirePages m => validMailbox m.mb
  | .kvMap m => validMailbox m.mb
  | .kvUnmap m => validMailbox m.mb
  | .kvRead m => validMailbox m.mb
  | .kvRetireFrame m => validMailbox m.mb
  | .kvRepage m => validMailbox m.mb
  | .kvRehome m => validMailbox m.mb
  | .kvRestore m => validMailbox m.mb
  | .kvDigest m => validMailbox m.mb
  | .evdCapture m => validMailbox m.mb
  | .evdSeal m => validMailbox m.mb
  | .evdRead m => validMailbox m.mb
  | .evdLinks m => validMailbox m.mb
  | .evdJournalRead m => validMailbox m.mb
  | .evdAck m => validMailbox m.mb
  | .evdStatus m => validMailbox m.mb
  | .evdReplayBegin m => validMailbox m.mb
  | .evdReplayTick m => validMailbox m.mb
  | .evdReplayEnd m => validMailbox m.mb
  | .netRead m => validMailbox m.mb
  | .netCntClear m => validMailbox m.mb
  | .linkSetAddr m => validMailbox m.mb
  | .linkRetrain m => validMailbox m.mb
  | .linkRejoin m => validMailbox m.mb
  | .linkGlobalWaves m => validMailbox m.mb
  | .linkRead m => validMailbox m.mb
  | .thermRead m => validMailbox m.mb
  | .thermTelemetryRead m => validMailbox m.mb
  | .thermCalibrate m => validMailbox m.mb
  | .thermFlowMin m => validMailbox m.mb
  | .thermWarmup m => validMailbox m.mb
  | .pwrState m => validMailbox m.mb
  | .pwrGate m => validMailbox m.mb
  | .pwrUngate m => validMailbox m.mb
  | .pwrClockHalf m => validMailbox m.mb
  | .pwrStackOff m => validMailbox m.mb
  | .pwrStackOn m => validMailbox m.mb
  | .pwrRead m => validMailbox m.mb
  | .faultLogRead m => validMailbox m.mb
  | .faultMapRead m => validMailbox m.mb
  | .faultRetire m => validMailbox m.mb
  | .faultScrub m => validMailbox m.mb
  | .faultInject m => validMailbox m.mb
  | .faultDramFuse m => validMailbox m.mb
  | .secSessionOpen m => validMailbox m.mb
  | .secSessionClose m => validMailbox m.mb
  | .secSessionAdopt m => validMailbox m.mb
  | .secSessionRead m => validMailbox m.mb
  | .secFunctionLimit m => validMailbox m.mb
  | .secMailboxAssign m => validMailbox m.mb
  | .secExpertOpen m => validMailbox m.mb
  | .secExpertClose m => validMailbox m.mb
  | .secNonce m => validMailbox m.mb
  | .secQuote m => validMailbox m.mb
  | .secCertRead m => validMailbox m.mb
  | .secProvision m => validMailbox m.mb
  | .secCertInstall m => validMailbox m.mb
  | .secDeploy m => validMailbox m.mb
  | .secReturn m => validMailbox m.mb
  | .secSvnCommit m => validMailbox m.mb
  | .dbgRead m => validMailbox m.mb
  | .dbgWrite m => validMailbox m.mb
  | .dbgScan m => validMailbox m.mb
  | .dbgTapOpen m => validMailbox m.mb
  | .dbgClose m => validMailbox m.mb
  | .fwLoad m => validMailbox m.mb
  | .fwReplace m => validMailbox m.mb
  | .fwActivate m => validMailbox m.mb
  | .fwStatus m => validMailbox m.mb
  | .capRead m => validMailbox m.mb
  | .capEventRead m => validMailbox m.mb
  | .capStatus m => validMailbox m.mb
  | .quotaSliceSet m => validMailbox m.mb
  | .quotaStreamSet m => validMailbox m.mb
  | .quotaCrumbSet m => validMailbox m.mb
  | .quotaRead m => validMailbox m.mb
  | .tlinkPortDown port => validPort port
  | .stackResetRelease stack _ => validStack stack
  | .stackClockRegained stack _ => validStack stack
  | .serialSupplyReturn => true
  | .referenceClockReturn _ => true

end Sys2Proof
end

