-- ==== Sys2Proof/Machine/Ops.lean ====
section
/-! DEFINITION. The operations the meanings share: units by number, counters, events, the floor plan, slice addresses, and
the rerun of a tick. -/

namespace Sys2Proof.Machine

open Sys2Proof

/-- What a step answers. -/
abbrev Out := Host.Outcome State Fault Refusal

/-- The command does not take place in this state, or waits: nothing changes (log 1). -/
def skip (s : State) : Out := .next s

/-- Takes `t` if the condition holds, and otherwise nothing changes (log 1). -/
def when (b : Bool) (s t : State) : Out := .next (if b then t else s)

/-- Runs `k` where the operand names a unit that exists, and faults where it does not. -/
def unit (valid : Bool) (k : Out) : Out := if valid then k else .fault .noSuchUnit

/-! ## Counters, events, free values -/

/-- Counts an event of the tick's work; applied at its commit and dropped by a rerun (R7, R36). -/
def inc (c : Ctr) (n : Nat) (s : State) : State := { s with work := { s.work with incs := s.work.incs ++ [(c, n)] } }

/-- Counts on a performance counter for the tick's work. -/
def incP (c : Perf) (n : Nat) (s : State) : State := { s with work := { s.work with perfs := s.work.perfs ++ [(c, n)] } }

/-- Counts an event of the device's own logic, which a rerun keeps; applied at the next commit (R7). -/
def devInc (c : Ctr) (n : Nat) (s : State) : State := { s with devIncs := s.devIncs ++ [(c, n)] }

/-- Counts an event of the tick's own work, or of another reader of the device (R6, R7). -/
def countFor (tick : Bool) (c : Ctr) (n : Nat) (s : State) : State := if tick then inc c n s else devInc c n s

/-- The same on a performance counter. -/
def devIncP (c : Perf) (n : Nat) (s : State) : State := { s with devPerfs := s.devPerfs ++ [(c, n)] }

/-- The value of a counter as of the last commit (R6). -/
def ctrVal (s : State) (c : Ctr) : CtrVal := (s.counters.lookup c).getD ⟨0, false⟩

/-- The value of a performance counter as of the last commit. -/
def perfVal (s : State) (c : Perf) : BitVec 48 := (s.perfs.lookup c).getD 0

/-- A 32-bit counter after `n` more events: it stops at 0xFFFF_FFFF, and an event met there sets overflow (R6). -/
def CtrVal.bump (v : CtrVal) (n : Nat) : CtrVal :=
  if v.val.toNat + n ≤ 0xFFFFFFFF then ⟨v.val + BitVec.ofNat 32 n, v.ovf⟩ else ⟨0xFFFFFFFF, true⟩

/-- An event with an object and details. -/
def event (ev : Ev) (object : Option Nat) (detail : List Nat) : PEvent := ⟨ev, object, none, false, detail⟩

/-- Posts an event of the tick's work at its commit; dropped by a rerun. -/
def postWork (e : PEvent) (s : State) : State := { s with work := { s.work with events := s.work.events ++ [e] } }

/-- Posts an event of the device's own logic at the next commit. -/
def post (e : PEvent) (s : State) : State := { s with devEvents := s.devEvents ++ [e] }

/-- An object word (R389): number and kind. -/
def objWord (kind n : Nat) : Option Nat := some (n + kind * 2 ^ 32)

/-- Draws a free value and moves to the next (log 7). -/
def draw (s : State) : Nat × State := (s.fresh, { s with fresh := s.fresh + 1 })

/-- Bit of a condition. -/
def bit (b : Bool) (n : Nat) : Nat := if b then 2 ^ n else 0

/-! ## Units by number -/

/-- A lane map before training: down (R278). -/
def LaneMap.init : LaneMap := { badTx := 0, badRx := 0, width := 0, gen := 0 }

/-- A stack before bring-up (R23, R278). -/
def Stack.init : Stack :=
  { status := 2, isolated := none, inReset := false, refreshOk := true, op0 := LaneMap.init, op1 := LaneMap.init,
    bundle := LaneMap.init, failedEngines := [], deaf := false, narrow := [], swaps := [], westSlow := false,
    eastSlow := false, meshSlow := false, cut := false }

/-- A TLink port before training (R279). -/
def Port.init : Port :=
  { up := false, miswire := false, peer := 0, badTx := 0, badRx := 0, width := 0, gen := 0, replays := 0, retraining := false,
    swaps := [], linkSeq := 0 }

/-- A quadrant's regulators at reset (R133). -/
def Quad.init (q : Nat) : Quad :=
  let w := q % 2 == 0
  { sliceRate := if w then 640 else 560, streamRate := if w then 120 else 104,
    sliceLevel := if w then 2000000 else 1750000, streamLevel := if w then 375000 else 325000, sliceEmptied := false,
    streamEmptied := false, rateReject := false, slicePend := none, streamPend := none }

/-- A quadrant's sensors at reset (R345). -/
def Therm.init : Therm :=
  { a := 0, b := 0, c := 0, aFailed := false, bFailed := false, cFailed := false, split := false, apart := 0, close := 0,
    histA := [], histB := [], histC := [], slopes := [0, 0, 0], l := 0, cp := 0, f := 0, takesPart := false, band := 0, cool := 0,
    high := false, highC := false, low := false, x := 0, y := 0, e := 0, govern := 1000, governed := false, fitL := 1000, fitC := 1000 }

/-- A mailbox at reset (R374). -/
def Mailbox.init : Mailbox :=
  { eventIrq := false, doneIrq := false, lastStatus := 0, eventLost := false, overrun := false, done := false, busy := false,
    served := false, fn := 0, eventVector := 0, doneVector := 0, evHead := 0, evTail := 0, evMask := 0, area := [],
    resp := none, ring := [] }

/-- A core at the start of a tick (R66, R96, R196, R239), idle. -/
def CoreCtx.init : CoreCtx :=
  { pc := 0, run := .idle, slot := 0, budget := 0, resident := [], reported := false, s := [], sPoison := [], d := [], acc := [],
    flags := 0, loops := [], cycles := 0, bench := [], benchPoison := [], cache := [], xfers := [], stores := 0, route := [],
    routeCounts := [], rows := [], lasts := [], returns := [], part := [], score := [], scoreCounts := [], paid := 0,
    jobs := [], crumbStatus := .ok, crumbFault := none, windows := [], outbound := [], nextXfer := 0, syncStatus := .ok,
    netCounts := [], folded := [], netFault := false, ate := 0 }

/-- A crumb unit at the start of a tick (R144). -/
def CrumbUnit.init : CrumbUnit :=
  { prog := [], pc := 0, q := [], vec := [], vecPoison := [], acc := [], int := false, accPoison := [], fmt := none,
    flags := 0, loop := none, running := false, waiting := false, stvs := 0 }

/-- A floor-plan row with every site good (R24). -/
def FpRow.init : FpRow := { sites := 0xC0000000, shifted := false, col := 0 }

/-- The stack of a number. -/
def State.stackAt (s : State) (n : Nat) : Stack := Tab.getD s.stk n Stack.init
/-- Writes a stack. -/
def State.setStack (s : State) (n : Nat) (v : Stack) : State := { s with stk := Tab.set s.stk n v }
/-- The TLink port of a number. -/
def State.portAt (s : State) (n : Nat) : Port := Tab.getD s.ports n Port.init
/-- Writes a port. -/
def State.setPort (s : State) (n : Nat) (v : Port) : State := { s with ports := Tab.set s.ports n v }
/-- The regulators of quadrant 4s + q. -/
def State.quadAt (s : State) (q : Nat) : Quad := Tab.getD s.quads q (Quad.init q)
/-- Writes a quadrant's regulators. -/
def State.setQuad (s : State) (q : Nat) (v : Quad) : State := { s with quads := Tab.set s.quads q v }
/-- The sensors of quadrant 4s + q. -/
def State.thermAt (s : State) (q : Nat) : Therm := Tab.getD s.therm q Therm.init
/-- Writes a quadrant's sensors. -/
def State.setTherm (s : State) (q : Nat) (v : Therm) : State := { s with therm := Tab.set s.therm q v }
/-- The mailbox of a number. -/
def State.mbAt (s : State) (n : Nat) : Mailbox := Tab.getD s.mailboxes n Mailbox.init
/-- Writes a mailbox. -/
def State.setMb (s : State) (n : Nat) (v : Mailbox) : State := { s with mailboxes := Tab.set s.mailboxes n v }
/-- The core of a logical core ID. -/
def State.core (s : State) (c : Lcid) : CoreCtx := Tab.getD s.cores c.toNat CoreCtx.init
/-- Writes a core. -/
def State.setCore (s : State) (c : Lcid) (k : CoreCtx) : State := { s with cores := Tab.set s.cores c.toNat k }
/-- The crumb unit beside a bank, keyed 48·site + bank. -/
def State.crumbAt (s : State) (u : UnitId) : CrumbUnit := Tab.getD s.crumbUnits (48 * u.slice + u.bank) CrumbUnit.init
/-- Writes a crumb unit. -/
def State.setCrumb (s : State) (u : UnitId) (v : CrumbUnit) : State :=
  { s with crumbUnits := Tab.set s.crumbUnits (48 * u.slice + u.bank) v }
/-- The plan in a slot. -/
def State.planAt (s : State) (slot : Nat) : Option Plan := Tab.get s.plans slot
/-- Writes a plan. -/
def State.setPlan (s : State) (slot : Nat) (p : Plan) : State := { s with plans := Tab.set s.plans slot p }
/-- The sequence of a slot, if open. -/
def State.seqAt (s : State) (slot : Nat) : Option SeqRec :=
  match Tab.get s.seqs slot with
  | some r => if r.isOpen then some r else none
  | none => none
/-- The floor-plan row being worked on, 16·stack + row. -/
def State.rowAt (s : State) (n : Nat) : FpRow := Tab.getD s.newRows n FpRow.init
/-- Admitted plans with their slots, in slot order. -/
def State.admitted (s : State) : List (Nat × Plan) := s.plans.filter fun e => decide (e.2.st = .admitted)

/-! ## Logical and physical cores (R12-R20) -/

/-- STACK of a logical core ID. -/
def lcStack (c : Lcid) : Nat := c.toNat / 256
/-- ROW. -/
def lcRow (c : Lcid) : Nat := c.toNat / 16 % 16
/-- COL. -/
def lcCol (c : Lcid) : Nat := c.toNat % 16
/-- The logical ordinal 240·s + 15·r + c. -/
def lcOrd (c : Lcid) : Nat := 240 * lcStack c + 15 * lcRow c + lcCol c
/-- The logical core of an ordinal. -/
def ordLc (q : Nat) : Lcid := BitVec.ofNat 16 (256 * (q / 240) + 16 * (q % 240 / 15) + q % 15)
/-- The site of a logical core's slice: 256·stack + 16·row + col. -/
def lcSite (c : Lcid) : Nat := c.toNat

/-- Two-bit site state of physical column `p` (R24): 0 good, 1 hole or failed test, 2 field-failed, 3 good and idle. -/
def FpRow.site (r : FpRow) (p : Nat) : Nat := (r.sites.toNat / 4 ^ p) % 4

/-- Marks the site state of a column. -/
def FpRow.setSite (r : FpRow) (p v : Nat) : FpRow :=
  { r with sites := BitVec.ofNat 32 (r.sites.toNat - r.site p * 4 ^ p + v * 4 ^ p) }

/-- The columns of a row that are not holes, from `k` to 15. -/
def FpRow.notHoles (r : FpRow) (k : Nat) : List Nat := (List.range 16).filter fun p => decide (k ≤ p) && r.site p != 1

/-- The physical column serving a logical column, or none when it is absent (R19, R20). -/
def FpRow.physCol (r : FpRow) (lc : Nat) : Option Nat :=
  if r.site lc == 1 then none
  else if !r.shifted || decide (lc < r.col.toNat) then (if r.site lc == 2 then none else some lc)
  else
    let cols := r.notHoles r.col.toNat
    let i := (cols.filter fun p => decide (p < lc)).length
    match cols[i + 1]? with
    | none => none
    | some p => if r.site p == 2 then none else some p

/-- SPARELESS of a row (R24): its column-15 site is not good. -/
def FpRow.spareless (r : FpRow) : Bool := r.site 15 == 1 || r.site 15 == 2

/-- The row word of the floor plan (R24). -/
def FpRow.word (r : FpRow) : W64 :=
  BitVec.ofNat 64 (r.sites.toNat + (if r.shifted then r.col.toNat * 2 ^ 38 + 2 ^ 42 else 0)
    + (if r.spareless then 2 ^ 43 else 0) + (if r.shifted && decide (r.col.toNat ≤ 7) then 2 ^ 44 else 0))

/-- The physical site serving a logical core on the placement in force: 256·stack + 16·row + col (R19). -/
def State.serving (s : State) (c : Lcid) : Option Nat :=
  match (s.rowAt (16 * lcStack c + lcRow c)).physCol (lcCol c) with
  | none => none
  | some p => some (256 * lcStack c + 16 * lcRow c + p)

/-- The quadrant 4s + q of a physical site (R12). -/
def siteQuad (n : Nat) : Nat := 4 * (n / 256) + 2 * (n / 16 % 16 / 8) + n % 16 / 8

/-- Applies a spare shift at column `k` (R19), or leaves the core absent where it cannot (R20): the row, and whether a core
was left absent. A hole, or a spare that failed manufacturing test, takes no part (R17, R18). -/
def FpRow.fail (r : FpRow) (k : Nat) : FpRow × Bool :=
  if r.site k = 1 then (r, false)
  else if k = 15 && !r.shifted then (r.setSite 15 2, false)
  else if r.shifted || r.spareless then (r.setSite k 2, true)
  else ({ (r.setSite k 2).setSite 15 0 with shifted := true, col := BitVec.ofNat 4 k }, false)

/-! ## Reachability (R118, R270, R326) -/

/-- The stack is isolated or unpowered. -/
def State.stackGone (s : State) (n : Nat) : Bool := decide ((s.stackAt n).status ≠ 0) || (s.stackAt n).isolated.isSome

/-- A stack that takes no traffic from off it: it is gone, or it hears no frame of the I/O die and refuses all until it rejoins
(R269). -/
def State.refusing (s : State) (n : Nat) : Bool := s.stackGone n || (s.stackAt n).deaf

/-- The quadrant is gated or in reset. -/
def State.quadGone (s : State) (q : Nat) : Bool := s.power.off.contains q || s.quadReset.contains q

/-- Device memory is in self-refresh: Rest, Dormant or Rack (R326, R337). -/
def State.asleep (s : State) : Bool :=
  decide (s.power.state = .rest) || decide (s.power.state = .dormant) || decide (s.power.state = .rack)

/-- A slice's controller cannot be reached (R118). -/
def State.sliceGone (s : State) (site : Nat) : Bool :=
  s.stackGone (site / 256) || s.quadGone (siteQuad site) || s.sliceReset.contains site || s.asleep

/-- A slice as traffic from off its stack reaches it (R118, R269). -/
def State.sliceShut (s : State) (site : Nat) : Bool := s.sliceGone site || (s.stackAt (site / 256)).deaf

/-! ## Slice addresses (R114-R117, R134) -/

/-- The global banks of every slice, in increasing index, at a GLOBAL_STEPS (R114). -/
def globalBanks (n : Nat) : List Nat :=
  let steps : List (List Nat) :=
    [[3, 15, 27, 39], [7, 19, 31, 43], [11, 23, 35, 47], [2, 14, 26, 38], [6, 18, 30, 42], [10, 22, 34, 46]]
  let taken := (steps.take n).flatten
  (List.range 48).filter fun b => taken.contains b

/-- The private banks, in increasing index. -/
def privateBanks (n : Nat) : List Nat := (List.range 48).filter fun b => !(globalBanks n).contains b

/-- The private size of a slice (R114). -/
def privateSize (n : Nat) : Nat := (48 - 4 * n) * 0x400000

/-- GLOBAL_SIZE (R134). -/
def globalSize (n : Nat) : Nat := 4800 * n * 0x1000000

/-- Where private offset `o` lies: bank · 4 MiB + row · 2 KiB + byte (R115). -/
def privLoc (n o : Nat) : Nat :=
  let p := 48 - 4 * n
  let g := o / 2048
  (privateBanks n).getD (g % p) 0 * 0x400000 + g / p * 2048 + o % 2048

/-- The site and place of a global address (R134). -/
def globLoc (n a : Nat) : Nat × Nat :=
  let g := a / 4096
  let ord := g / 20 % 240
  let site := 256 * (g % 20) + 16 * (ord / 15) + ord % 15
  let byte := g / 4800 * 4096 + a % 4096
  let h := byte / 2048
  (site, (globalBanks n).getD (h % (4 * n)) 0 * 0x400000 + h / (4 * n) * 2048 + byte % 2048)

/-- The private offset of bank offset `b` of bank `p` (R139). -/
def bankToPriv (n p b : Nat) : Nat :=
  let j := (privateBanks n).findIdx (fun x => x == p)
  (b / 2048 * (48 - 4 * n) + j) * 2048 + b % 2048

/-- The site and place of reserve offset `v` of a stack (R26): the slice of the row spare of its row, taken linearly. -/
def reserveLoc (stack v : Nat) : Nat × Nat := (256 * stack + 16 * (v / 0x0C000000) + 15, v % 0x0C000000)

/-- The DRAM byte key of a place in a site's slice, through the remap table (R288): a remapped row is its spare's. -/
def State.phys (s : State) (site loc : Nat) : Nat :=
  let bank := loc / 0x400000
  let row := loc % 0x400000 / 2048
  match Tab.get s.faultMap.remaps site with
  | none => site * 2 ^ 28 + loc
  | some b =>
    match b.entries.find? (fun e => e.2.bank == bank && e.2.row == row) with
    | none => site * 2 ^ 28 + loc
    | some e => site * 2 ^ 28 + 0x0C000000 + (bank * 8 + e.2.spare) * 2048 + loc % 2048

/-- The committed byte at a place of a slice. -/
def State.byteAt (s : State) (site loc : Nat) : Byte := Mem.get s.dram (s.phys site loc)

/-- The committed bytes of a place, which must not leave one 2 KiB row. -/
def State.bytesAt (s : State) (site loc n : Nat) : List Byte := Mem.read s.dram (s.phys site loc) n

/-- The code of a 64-bit word of DRAM, by its address / 8: clean unless listed, or in a user slice whose contents were lost. -/
def State.wordSt (s : State) (w : Nat) : WordSt :=
  match Tab.get s.words w with
  | some x => x
  | none => if s.lostStacks.contains (w / 2 ^ 33) && decide (w / 2 ^ 25 % 16 ≠ 15) then .poison else .clean

/-- Sets the code of a 64-bit word of DRAM. -/
def State.setWord (s : State) (w : Nat) (x : WordSt) : State :=
  { s with words := if x = .clean ∧ s.lostStacks.isEmpty then Tab.del s.words w else Tab.set s.words w x }

/-- Sets the codes of the eight words of the line whose first word is `w`. -/
def State.setLine (s : State) (w : Nat) (x : WordSt) : State := (List.range 8).foldl (fun t i => t.setWord (w + i) x) s

/-- A line is delivered poisoned when any of its words is uncorrectable or carries the poison encoding (R281). -/
def State.linePoison (s : State) (site loc : Nat) : Bool :=
  let w := s.phys site (loc / 64 * 64) / 8
  (List.range 8).any fun i =>
    match s.wordSt (w + i) with
    | .poison => true
    | .uncorrectable => true
    | _ => false

/-- Writes the 64 bytes of a line with clean codes, or with the poison encoding (R161, R281). -/
def State.putLine (s : State) (site loc : Nat) (bytes : List Byte) (poison : Bool) : State :=
  let a := s.phys site (loc / 64 * 64)
  let ws := (List.range 8).foldl
    (fun t i => if poison then Tab.set t (a / 8 + i) WordSt.poison
      else if s.lostStacks.isEmpty then Tab.del t (a / 8 + i) else Tab.set t (a / 8 + i) WordSt.clean) s.words
  { s with dram := Mem.write s.dram a (slice bytes 0 64), words := ws }

/-- Writes bytes at a place of a slice, line by line, with clean codes. -/
def State.putBytes (s : State) (site loc : Nat) (bytes : List Byte) : State :=
  (List.range (ceilDiv bytes.length 64)).foldl (fun t i => t.putLine site (loc + 64 * i) (slice bytes (64 * i) 64) false) s

/-! ## Field-fault records (R309, R310) -/

/-- Lanes in use of an optical port of a stack, 0 OP0 and 1 OP1; none while it is down (R256). -/
def State.portWidth (s : State) (stack port : Nat) : Nat :=
  if port = 0 then (s.stackAt stack).op0.width else (s.stackAt stack).op1.width

/-- The port an engine attaches at: SE0-SE3 and GE at OP0, SE4-SE7 at OP1; while one port is down, every engine at the other
(R259). -/
def State.enginePort (s : State) (stack e : Nat) : Nat :=
  let own := if e < 4 ∨ e = 8 then 0 else 1
  if s.portWidth stack own = 0 ∧ s.portWidth stack (1 - own) ≠ 0 then 1 - own else own

/-- A record of the log with no detail. -/
def faultRec (kind cls stack site unitCode ix : Nat) : FaultRec :=
  { index := 0, time := 0, tick := 0, boot := 0, kind := kind, cls := cls, attempt := 0, flags := 0, stack := stack,
    site := site, unit := unitCode, unitIx := ix, detail := 0, addr := 0, pfn := none, count := 1, gen := 0 }

/-- Stages a field-fault record: it takes the next LOG_INDEX, the time, the tick and the boot count (R309). -/
def logFault (r : FaultRec) (s : State) : State :=
  { s with
    staging := s.staging ++ [{ r with index := s.logNext, time := s.seqr.time, tick := s.seqr.tick,
                                      boot := s.mram.bootCount % 2 ^ 32 }]
    logNext := s.logNext + 1 }

/-- A drain cause, set with its structure at the next commit (R305, R306). -/
def raiseDrain (bit structureNo : Nat) (s : State) : State := { s with drainPend := s.drainPend ++ [(bit, structureNo, true)] }

/-- A drain cause of a unit failed for this boot only, which the fault map does not record (R358). -/
def raiseBootDrain (bit structureNo : Nat) (s : State) : State :=
  { s with drainPend := s.drainPend ++ [(bit, structureNo, false)] }

/-- Decides the suspension of a plan at the next commit (R460). -/
def suspendPlan (slot cause : Nat) (s : State) : State :=
  if s.seqr.suspend.any (fun e => e.1 == slot) then s
  else { s with seqr := { s.seqr with suspend := s.seqr.suspend ++ [(slot, cause)] } }

/-- Leaves a plan out of the later attempts of the tick (R20, R300). -/
def leaveOut (slot : Nat) (s : State) : State := { s with seqr := { s.seqr with leftOut := s.seqr.leftOut ++ [slot] } }

/-! ## Rerun (R41, R48, R49, R249, R297-R299) -/

/-- A core that has no work: its bench memory is not cleared (R66). -/
def CoreCtx.rest (k : CoreCtx) : CoreCtx := { CoreCtx.init with bench := k.bench, benchPoison := k.benchPoison }

/-- Every core and crumb unit stops at its next step boundary (R49). Crumb programs and bench memory stay. -/
def stopUnits (s : State) : State :=
  { s with
    cores := s.cores.map fun e => (e.1, e.2.rest)
    crumbUnits := s.crumbUnits.map fun e => (e.1, { CrumbUnit.init with prog := e.2.prog }) }

/-- The flush of one stack's routers: the tick's bulk and stream flits and its fold state go; control flits and traffic of the
device's own logic stay (R249). -/
def flushStack (n : Nat) (s : State) : State :=
  { s with
    flits := s.flits.filter fun f => f.sys || f.stack != n || f.vc == 0
    frames := s.frames.filter fun f => f.flit.sys || f.src != n
    foldBuf := s.foldBuf.filter fun f => f.stack != n }

/-- What the flush leaves at the boundary after it: nothing of the tick (R249, R297). -/
def flushAll (s : State) : State :=
  { s with
    flits := s.flits.filter fun f => f.sys && f.kind != 0xB
    frames := s.frames.filter fun f => f.flit.sys
    foldBuf := []
    absorbed := [] }

/-- The flit that carries the stop to a stack on its control channel, from the I/O edge at (0, 7) (R249). -/
def stopFlit (s : State) (n : Nat) : NetFlit :=
  { stack := n, tag := BitVec.ofNat 16 s.seqr.count, seq := 0, group := 0, dest := 0x07, src := 0x07, kind := 0xB, vc := 0,
    poison := false, last := true, status := 0, orig := BitVec.ofNat 5 n, sys := true, offset := 0, payload := [],
    node := (0, 0), ofFold := false, far := none, core := 0xFFFF }

/-- Stacks the sequencer reaches: powered and not isolated. -/
def State.online (s : State) : List Nat := (List.range 20).filter fun n => !s.stackGone n

/-- The stop: units stop, the stop travels to every stack, and the tick's uncommitted state is discarded, but for the inputs
fixed at its first start (R44) and remaps to repeat (R288). -/
def discard (s : State) : State :=
  let t := stopUnits s
  { t with
    flits := t.flits ++ s.online.map (stopFlit s)
    work := { Work.empty with inputs := s.work.inputs, remaps := s.work.remaps } }

/-- An attempt has failed: the tick is discarded and is to run again with ATTEMPT increased (R49). After an eighth failure
the ninth attempt runs no plan, every plan is suspended and the device drains with cause ATTEMPTS (R299). -/
def failAttempt (s : State) : State :=
  let t := discard s
  let n := s.seqr.attempt
  let t : State := devInc .rerun 1
    { t with seqr := { t.seqr with phase := .rerun, attempt := n + 1, boundaries := 0, prevFault := t.seqr.curFault,
                                   curFault := none, prevProg := t.seqr.curProg, curProg := none } }
  if n = 8 then
    let slots := (s.admitted).map Prod.fst
    raiseDrain 8 0 (slots.foldl (fun u i => suspendPlan i 6 (leaveOut i u)) t)
  else t

end Sys2Proof.Machine
end

