-- ==== Sys2Proof/Machine/Events.lean ====
section
/-! DEFINITION. Events and counters at a commit: codes, delivery to the log and the rings, and counter updates
(R6, R7, R59, R393-R396, R428). -/

namespace Sys2Proof.Machine

open Sys2Proof

/-! ## Codes (R393, R428) -/

/-- The events of each class in code order. -/
def evClasses : List (List Ev) :=
  [ [.tickLate, .tickEdgeMissed, .tickSourceLost, .ingestBackpressure, .counterWrap],
    [.planSuspended, .planFault, .poisonConsumed],
    [.kvPoolEmpty, .kvPoolLow, .kvStoreLow, .kvAppendMismatch],
    [.evdSpaceLow, .evdReplayMismatch],
    [.laneSpared, .linkNarrowed, .linkDown, .laserSwitch, .tlinkMiswire, .tlinkUnreachable, .tlinkRingOverrun, .tlinkReject,
      .tlinkStale],
    [.stackIsolated, .stackRejoined, .stackContentsLost],
    [.faultTransient, .faultLasting, .coreSpared, .crumbFailed, .rowRemapped, .retireRequest, .patrolFail, .scrubPass, .drain],
    [.sensorSplit, .sensorFailed, .tempHigh, .tempLow, .throttle, .coolingDegraded, .coolingRestored, .coolantStop,
      .coolantRestored, .coolantReportLost, .inletRange, .thermalTrip, .rackExit, .warmupDone],
    [.powerState],
    [.ready, .hearthRestart, .fwReplaced, .fwReplaceFailed, .sessionOrphaned],
    [.debugLevel, .lifecycle, .tokenRejected, .sigIndexLow, .signingStopped, .dieAuthFailed, .fwRejected] ]

/-- The class of an event. -/
def Ev.cls (e : Ev) : Nat := evClasses.findIdx fun l => l.contains e

/-- CODE: 256 times the class plus the place in it. -/
def Ev.code (e : Ev) : Nat := 256 * e.cls + (evClasses.getD e.cls []).findIdx fun x => decide (x = e)

/-- The grant bit a class needs in a function's ceiling; class 9 needs none. -/
def clsGrant (n : Nat) : Option Nat :=
  match n with
  | 0 => some 0 | 1 => some 0 | 2 => some 1 | 3 => some 4 | 4 => some 5 | 5 => some 0 | 6 => some 7 | 7 => some 6 | 8 => some 6
  | 10 => some 9 | _ => none

/-! ## Functions and ownership (R383, R384) -/

/-- The grants of Table: Grants. -/
def allGrants : BitVec 32 := 0x3FFF

/-- The grant ceiling of a function: every grant for the PF, 0 for a VF until it is set (R383). -/
def State.ceiling (s : State) (fn : Nat) : BitVec 32 := if fn = 0 then allGrants else Tab.getD s.host.ceilings fn 0

/-- The function that owns the object an event names, if it names an owned one (R384). -/
def State.ownerFn (s : State) (object : Option Nat) : Option Nat :=
  match object with
  | none => none
  | some w =>
    let n := w % 2 ^ 32
    match w / 2 ^ 32 with
    | 1 => (s.planAt n).map fun p => p.fn
    | 2 => (Tab.get s.seqs n).map fun r => r.fn
    | 7 => (Tab.get s.pools n).map fun p => p.fn
    | 8 => (Tab.get s.layoutOwners n).map fun x => x.2
    | 9 => (Tab.get s.sessions n).map fun x => x.fn
    | _ => none

/-! ## Delivery (R395, R396) -/

/-- Vectors of a function's MSI-X table (R367). -/
def vectors (fn : Nat) : Nat := if fn = 0 then 1024 else 16

/-- Sends an MSI-X message; a vector beyond the function's table sends none (R374), and none is sent before P9 (R351). -/
def sendVector (fn vec : Nat) (s : State) : State :=
  if vec < vectors fn ∧ s.boot.readyIndex.isSome then { s with host := { s.host with msix := s.host.msix ++ [(fn, vec)] } } else s

/-- Zororlon serves: the device has reached Ready, it runs and no handover is under way (R307, R349, R399). -/
def State.serves (s : State) : Bool := s.boot.readyIndex.isSome && s.hearth.up && s.hearth.running && s.hearth.handover.isNone

/-- A mailbox's ring takes events of a class about an object. -/
def ringTakes (s : State) (r : EventRec) (m : Mailbox) : Bool :=
  m.evMask.getLsbD r.ev.cls
    && (match clsGrant r.ev.cls with | none => true | some g => (s.ceiling m.fn).getLsbD g)
    && (m.fn == 0 || (match s.ownerFn r.object with | none => true | some f => f == m.fn))

/-- Writes a record to one mailbox's ring, or counts it lost where the ring is full. -/
def toRing (r : EventRec) (n : Nat) (s : State) : State :=
  let m := s.mbAt n
  if m.evHead - m.evTail = 64 then devInc (.evLost n) 1 (s.setMb n { m with eventLost := true })
  else s.setMb n { m with ring := Tab.set m.ring (m.evHead.toNat % 64) r, evHead := m.evHead + 1 }

/-- Writes an event record to the log and to the rings that take it: the state and the mailboxes it went to. -/
def writeRecord (r : EventRec) (s : State) : State × List Nat :=
  let r := { r with index := s.nextEvent }
  let takers := (s.mailboxes.filter fun e => ringTakes s r e.2).map Prod.fst
  let into := takers.filter fun n => decide ((s.mbAt n).evHead - (s.mbAt n).evTail ≠ 64)
  (takers.foldl (fun t n => toRing r n t) { s with eventLog := s.eventLog ++ [r], nextEvent := s.nextEvent + 1 }, into)

/-- Sends the event vectors of mailboxes, once each. -/
def ringVectors (l : List Nat) (s : State) : State :=
  l.eraseDups.foldl
    (fun t n => let m := s.mbAt n; if m.eventIrq then sendVector m.fn m.eventVector.toNat t else t) s

/-- The record of an event as posted now. -/
def PEvent.record (p : PEvent) (tick : Nat) (atOnce : Bool) (s : State) : EventRec :=
  { index := 0, tick := tick, time := s.seqr.time, ev := p.ev, atOnce := atOnce, injected := p.injected, held := false,
    object := p.object, log := p.log, detail := p.detail.take 11 }

/-- Posts events at a commit, in order; while Zororlon does not run they are held (R396). -/
def postAll (l : List PEvent) (tick : Nat) (s : State) : State :=
  if s.serves then
    let r := l.foldl (fun (a : State × List Nat) p => let b := writeRecord (p.record tick false s) a.1; (b.1, a.2 ++ b.2)) (s, [])
    ringVectors r.2 r.1
  else { s with heldEvents := s.heldEvents ++ l.map fun p => p.record tick false s }

/-- Posts an event at once: written as it arises, also while the Hearth is down (R396). -/
def postNow (p : PEvent) (s : State) : State :=
  let r := writeRecord (p.record s.seqr.count true s) s
  ringVectors r.2 r.1

/-- Delivers the events held, in order, with HELD set, when Zororlon runs again. -/
def releaseHeld (s : State) : State :=
  let r := s.heldEvents.foldl
    (fun (a : State × List Nat) e => let b := writeRecord { e with held := true } a.1; (b.1, a.2 ++ b.2))
    ({ s with heldEvents := [] }, [])
  ringVectors r.2 r.1

/-! ## Counters (R6, R7, R59) -/

/-- WRAP_EN bit of a performance counter's kind. -/
def Perf.kind : Perf → Nat
  | .sliceTokens _ => 0 | .crumbCycles => 1 | .walkBlocks => 2 | .flits _ => 3 | .frames _ => 4 | .scrubBytes _ => 5
  | .energy => 6 | .commands => 7 | .expert _ _ => 8

/-- What EV_COUNTER_WRAP names: the BAR0 offset, or plan slot and expert (R59). -/
def Perf.detail : Perf → List Nat
  | .sliceTokens q => [0x01000000 + q / 4 * 0x100000 + 0x8000 + q % 4 * 0x40 + 0x20]
  | .crumbCycles => [0x03004010]
  | .walkBlocks => [0x03005010]
  | .flits s => [0x01000000 + s * 0x100000 + 0x9020]
  | .frames s => [0x01000000 + s * 0x100000 + 0xA050]
  | .scrubBytes s => [0x01000000 + s * 0x100000 + 0xB028]
  | .energy => [0x03008050]
  | .commands => [0x03001020]
  | .expert p e => [p, e]

/-- Sets a counter. -/
def setCtr (c : Ctr) (v : CtrVal) (s : State) : State := { s with counters := (c, v) :: s.counters.filter fun e => e.1 != c }

/-- Adds to a counter (R6). -/
def addCtr (e : Ctr × Nat) (s : State) : State := setCtr e.1 ((ctrVal s e.1).bump e.2) s

/-- Adds to a performance counter; a wrap posts its event where WRAP_EN enables the kind (R59). -/
def addPerf (e : Perf × Nat) (s : State) : State :=
  let v := perfVal s e.1
  let t : State := { s with perfs := (e.1, v + BitVec.ofNat 48 e.2) :: s.perfs.filter fun x => x.1 != e.1 }
  if 2 ^ 48 ≤ v.toNat + e.2 ∧ s.seqr.wrapEn.getLsbD e.1.kind then post (event .counterWrap none e.1.detail) t else t

/-- Counter updates of a commit: clears first, then the increments of the tick and of the device's own logic (R7). -/
def commitCounters (s : State) : State :=
  let t : State := { s with
    counters := s.counters.filter fun e => !s.clears.contains e.1
    perfs := s.perfs.filter fun e => !s.perfClears.contains e.1
    clears := [], perfClears := [], devIncs := [], devPerfs := [] }
  let t := (s.work.incs ++ s.devIncs).foldl (fun t e => addCtr e t) t
  (s.work.perfs ++ s.devPerfs).foldl (fun t e => addPerf e t) t

end Sys2Proof.Machine
end

