-- ==== Sys2Proof/Machine/Crypto.lean ====
section
/-! DEFINITION. CRC-32C, CRC-16 and SHAKE256, which the spec names and does not define (log 8, PRESUMED: RFC 3720, the
polynomial of R237, FIPS 202). -/

namespace Sys2Proof.Machine

open Sys2Proof

/-- One byte into a reflected CRC-32C. -/
def crc32cByte (c : BitVec 32) (b : Byte) : BitVec 32 :=
  (List.range 8).foldl (fun c _ => if c.getLsbD 0 then (c >>> 1) ^^^ 0x82F63B78 else c >>> 1) (c ^^^ b.setWidth 32)

/-- CRC-32C of bytes: initial value and final inversion all ones. -/
def crc32c (l : List Byte) : BitVec 32 := ~~~ l.foldl crc32cByte 0xFFFFFFFF

/-- One byte into CRC-16, polynomial 0x1021, most significant bit first. -/
def crc16Byte (c : BitVec 16) (b : Byte) : BitVec 16 :=
  (List.range 8).foldl (fun c _ => if c.getMsbD 0 then (c <<< 1) ^^^ 0x1021 else c <<< 1) (c ^^^ (b.setWidth 16 <<< 8))

/-- CRC-16 with initial value 0xFFFF (R237). -/
def crc16 (l : List Byte) : BitVec 16 := l.foldl crc16Byte 0xFFFF

/-! ## Keccak-f[1600], on 25 lanes of 64 bits with lane (x, y) at 5y + x -/

/-- θ: each lane takes in the parities of the columns beside it. -/
def kTheta (a : List W64) : List W64 :=
  let parity (x : Nat) : W64 := (List.range 5).foldl (fun v y => v ^^^ a.getD (5 * y + x % 5) 0) 0
  let mix := (List.range 5).map fun x => parity (x + 4) ^^^ (parity (x + 1)).rotateLeft 1
  (List.range 25).map fun i => a.getD i 0 ^^^ mix.getD (i % 5) 0

/-- Where `n` lanes go in ρ and π, from lane (x, y) as step `t` of the walk (x, y) → (y, 2x + 3y): its place, its new place, and
(t + 1)(t + 2) / 2 bits of rotation. -/
def kWalk : Nat → Nat → Nat → Nat → List (Nat × Nat × Nat)
  | 0, _, _, _ => []
  | n + 1, t, x, y =>
    let z := (2 * x + 3 * y) % 5
    (5 * y + x, 5 * z + y, (t + 1) * (t + 2) / 2) :: kWalk n (t + 1) y z

/-- ρ and π along the walk of the 24 lanes other than (0, 0). -/
def kMove (walk : List (Nat × Nat × Nat)) (a : List W64) : List W64 :=
  walk.foldl (fun b w => b.set w.2.1 ((a.getD w.1 0).rotateLeft (w.2.2 % 64))) a

/-- χ, in each plane of five lanes. -/
def kChi (a : List W64) : List W64 :=
  (List.range 25).map fun i =>
    let lane (k : Nat) : W64 := a.getD (i / 5 * 5 + (i + k) % 5) 0
    lane 0 ^^^ (~~~ lane 1 &&& lane 2)

/-- One step of the register of ι, x⁸ + x⁶ + x⁵ + x⁴ + 1. -/
def kShift (r : Nat) : Nat := if r < 128 then 2 * r else (2 * r) ^^^ 0x171

/-- The constant of a round, whose bits 2^j − 1 the register gives, and the register after it. -/
def kConst (r : Nat) : W64 × Nat :=
  (List.range 7).foldl (fun c j => (if c.2 % 2 = 1 then c.1 ||| (1 <<< (2 ^ j - 1)) else c.1, kShift c.2)) (0, r)

/-- Rounds of Keccak-f[1600] with the walk and the register of ι. -/
def kRounds (walk : List (Nat × Nat × Nat)) : Nat → Nat → List W64 → List W64
  | 0, _, a => a
  | n + 1, r, a =>
    let c := kConst r
    let b := kChi (kMove walk (kTheta a))
    kRounds walk n c.2 (b.set 0 (b.getD 0 0 ^^^ c.1))

/-- Keccak-f[1600]. -/
def keccak (a : List W64) : List W64 := kRounds (kWalk 24 0 1 0) 24 1 a

/-- XORs a block of bytes into the state. -/
def kAbsorb (a : List W64) (block : List Byte) : List W64 :=
  (List.range 25).map fun i => a.getD i 0 ^^^ BitVec.ofNat 64 (field block (8 * i) 8)

/-- Absorbs a padded message of whole blocks of 136 bytes. -/
def kSponge : Nat → List Byte → List W64 → List W64
  | 0, _, a => a
  | n + 1, l, a => kSponge n (l.drop 136) (keccak (kAbsorb a (l.take 136)))

/-- SHAKE256 with an output of 32 bytes. -/
def shake256 (l : List Byte) : List Byte :=
  let n := l.length / 136 + 1
  let pad := n * 136 - l.length
  let tail : List Byte := if pad = 1 then [0x9F] else 0x1F :: (List.replicate (pad - 2) 0 ++ [0x80])
  let a := kSponge n (l ++ tail) (List.replicate 25 0)
  ((List.range 4).map fun i => leBytes 8 (a.getD i 0).toNat).flatten

end Sys2Proof.Machine
end

