-- ==== Sys2Proof/Machine/Faults.lean ====
section
/-! DEFINITION. Faults in the tick: what a plan uses, isolation of a stack (R269, R270), classification by rerun (R297-R300)
and program faults (R91, R92). -/

namespace Sys2Proof.Machine

open Sys2Proof

/-! ## What a plan uses -/

/-- Logical cores whose site a unit of the plan lies at. -/
def Plan.lcids (p : Plan) : List Lcid :=
  p.cores.map (fun x => x.lcid) ++ p.crumbs.map (fun x => x.lcid) ++ p.evds.map (fun x => x.lcid)
    ++ p.nets.map (fun x => x.lcid) ++ p.rings.map (fun x => x.lcid)

/-- A unit of the plan, stream engines included, lies on a stack (R270). -/
def Plan.onStack (p : Plan) (n : Nat) : Bool :=
  p.lcids.any (fun c => lcStack c == n) || p.streams.any (fun x => x.nearStack == n || x.farStack == n)

/-- A unit of the plan lies on a logical core (R20). -/
def Plan.onCore (p : Plan) (c : Lcid) : Bool := p.lcids.contains c

/-- A unit of the plan depends on a quadrant: its serving site, or the slice of its own site, lies there (R13). -/
def Plan.inQuad (p : Plan) (s : State) (q : Nat) : Bool :=
  p.lcids.any fun c => siteQuad (lcSite c) == q || (match s.serving c with | some n => siteQuad n == q | none => false)

/-- The plan holds a stream engine (R260). -/
def Plan.usesEngine (p : Plan) (stack e : Nat) : Bool :=
  p.streams.any fun x => (x.nearStack == stack && x.nearEngine == e) || (x.farStack == stack && x.farEngine == e)

/-- The plan has a core, a crumb unit or a sequence's pages in a slice (R297). -/
def Plan.inSlice (p : Plan) (s : State) (slot site : Nat) : Bool :=
  p.lcids.any (fun c => lcSite c == site)
    || s.seqs.any fun e => e.2.isOpen && e.2.plan == slot && e.2.groups.any (fun g => lcSite g.lcid == site)

/-- Slots of admitted plans that satisfy a test. -/
def State.slotsOf (s : State) (f : Nat → Plan → Bool) : List Nat :=
  (s.admitted.filter fun e => f e.1 e.2).map Prod.fst

/-- Plans that lose a unit: left out of later attempts of the tick, and suspended at its commit with UNIT_LOST (R20, R297,
R300, R460). -/
def lose (slots : List Nat) (s : State) : State := slots.foldl (fun t i => suspendPlan i 4 (leaveOut i t)) s

/-! ## Isolation and quadrant reset -/

/-- A fault in the tick that is no fault site (R300): it applies until every stack has reported. -/
def lostInTick (slots : List Nat) (s : State) : State :=
  let t := lose slots s
  if s.seqr.phase = .executing then failAttempt t else t

/-- The Hearth is reset: Zororlon is gone, and stage P7 asks the host for it again. Whether what it left can be adopted is
free (log 41). -/
def hearthReset (s : State) : State :=
  let (k, s) := draw s
  let hour := 3600000000000
  let l := s.seqr.time :: s.hearth.restarts.filter fun x => decide (s.seqr.time < x + hour)
  let t : State := { s with
    hearth := { s.hearth with up := false, running := false, handover := none, restarts := l, adoptable := decide (Config.freeNat k % 2 = 0) }
    changes := s.changes.filter fun c => match c with | .fwActivate _ => false | _ => true
    boot := { s.boot with stage := 7, kind := if s.boot.stage = 10 then .hearthRestart else s.boot.kind, st := .running } }
  if l.length = 3 then raiseDrain 9 0 t else t

/-- The mailbox of an FW_ACTIVATE that gets no response is free again (log 39, DESIGN CHOICE). -/
def freeMailbox (mb : Nat) (s : State) : State := s.setMb mb { s.mbAt mb with busy := false, served := false }

/-- The record of a Hearth restart. -/
def hearthRec : FaultRec := faultRec 0x11 3 0x1F 0 0x0F 0

/-- The Hearth restarts in service, with its event at once and its record; a handover under way has failed (R307, R399). -/
def hearthRestart (s : State) : State :=
  match s.hearth.handover with
  | some mb => postNow { event .fwReplaceFailed none [] with log := some s.logNext } (logFault hearthRec (freeMailbox mb (hearthReset s)))
  | none => postNow { event .hearthRestart none [] with log := some s.logNext } (logFault hearthRec (hearthReset s))

/-- Every copy of the running image lies on a stack that cannot be reached: the Hearth has no code store, and Zororlon restarts
from the host as for a Hearth failure (R28). -/
def loseStore (s : State) : State :=
  if s.boot.stage = 10 && s.hearth.running && !s.hearth.mirrors.isEmpty && s.hearth.mirrors.all (fun n => s.stackGone n) then hearthRestart s
  else s

/-- Isolates a stack (R269, R270); the trigger is the row of Table: Isolation triggers. STATUS, the suspensions and the
sequence holds follow at the next commit. -/
def isolate (n trigger : Nat) (s : State) : State :=
  if (s.stackAt n).isolated.isSome then s
  else
    let t := s.setStack n { s.stackAt n with isolated := some trigger, refreshOk := true }
    loseStore (lostInTick (s.slotsOf fun _ p => p.onStack n) (post (event .stackIsolated (objWord 3 n) [trigger]) t))

/-- A quadrant enters reset (R248, R300). -/
def enterReset (q : Nat) (s : State) : State :=
  if s.quadReset.contains q then s
  else lostInTick (s.slotsOf fun _ p => p.inQuad s q) { s with quadReset := q :: s.quadReset }

/-! ## Fault sites (R297) -/

/-- UNIT of a field-fault record for a fault site (R310). -/
def unitCode : SiteUnit → Nat
  | .core => 1 | .bench => 2 | .lineCache => 1 | .crumb => 3 | .sliceCtl => 5 | .bankStage => 6 | .router => 7 | .engine => 8 | .ge => 9 | .ioDie => 14

/-- The fault site that an injection of a residue mismatch names: its stack, and the INDEX, UNIT and SITE of a record (log 59). -/
def Inject.site (j : Inject) : FaultSite :=
  { stack := j.unit / 2 ^ 24
    site := j.unit % 256
    unit := if j.unit / 256 % 256 = 3 then .crumb else if j.unit / 256 % 256 = 7 then .router else .core
    index := j.unit / 2 ^ 16 % 256
    check := 3 }

/-- An injection of a residue mismatch acts in this attempt: it was accepted before the tick, and has attempts left (R312). -/
def State.injecting (s : State) : Option FaultSite :=
  match s.inject with
  | some j => if j.kind = 1 ∧ j.tick < s.seqr.tick ∧ s.seqr.attempt ≤ j.attempts then some j.site else none
  | none => none

/-- An injection of a residue mismatch has made this fault (R312). -/
def State.injected (s : State) (f : FaultSite) : Bool := decide (s.injecting = some f)

/-- INJECT_ARMED: an injection awaits its tick (R312). -/
def State.injectArmed (s : State) : Bool :=
  (match s.inject with | some j => decide (s.seqr.tick ≤ j.tick) | none => false)
    || s.changes.any fun c => match c with | .inject _ _ _ _ => true | _ => false

/-- A unit whose lasting fault the fault map records itself (R297, R308); a router's and the I/O die's is a drain cause there. -/
def marksMap : SiteUnit → Bool
  | .router => false
  | .ioDie => false
  | _ => true

/-- The field-fault record of a fault: its check names the record's TYPE, and MAP tells that the fault map changes (R310). -/
def siteRec (f : FaultSite) (cls attempt : Nat) (inj : Bool) : FaultRec :=
  { faultRec f.check cls f.stack f.site (unitCode f.unit) f.index with
    attempt := attempt, flags := if inj then 1 else if cls = 1 && marksMap f.unit then 2 else 0, detail := f.check }

/-- Counts the check that fired in its stack (R314). -/
def countCheck (f : FaultSite) (s : State) : State :=
  if f.check = 3 ∨ f.check = 4 then devInc (.residue f.stack) 1 s
  else if f.check = 5 then devInc (.patrolFail f.stack) 1 s else s

/-- The logical core a physical site serves (R19). -/
def State.servedAt (s : State) (site : Nat) : Option Lcid :=
  ((List.range 15).map fun col => BitVec.ofNat 16 (site / 16 * 16 + col)).find? fun c => s.serving c == some site

/-- A fault on the attempt after a shift, at the new site of the same logical core with the same check, is charged to the
slice side of that site (R297). -/
def State.chargedTo (s : State) (f : FaultSite) : FaultSite :=
  if s.seqr.shiftedTo = some f then
    { f with unit := .sliceCtl, site := match s.servedAt (256 * f.stack + f.site) with | some c => c.toNat % 256 | none => f.site }
  else f

/-- The patrol group of a unit (R295). -/
def patrolGroup (s : State) (f : FaultSite) : Nat :=
  match f.unit with
  | .crumb => (240 * f.stack + 15 * (f.site / 16) + f.site % 16 + f.index) % 64
  | .router => f.site % 64
  | .engine => f.stack % 64
  | .ge => f.stack % 64
  | _ => match s.servedAt (256 * f.stack + f.site) with | some c => lcOrd c % 64 | none => (16 * f.stack + f.site / 16) % 64

/-- The power domain whose patrols a unit's are: its quadrant, its stack's crumb domain, or the stack (R13, R295). -/
def patrolDomain (f : FaultSite) : Nat :=
  match f.unit with
  | .crumb => 80 + f.stack
  | .router => 100 + f.stack
  | .engine => 100 + f.stack
  | .ge => 100 + f.stack
  | _ => siteQuad (256 * f.stack + f.site)

/-- Domains whose patrols wait: gated, in reset, or of an unpowered stack. -/
def State.patrolsDown (s : State) : List Nat :=
  let dark := (List.range 20).filter fun n => decide ((s.stackAt n).status = 2)
  ((s.power.off.filter fun d => decide (d < 120)) ++ s.quadReset
    ++ dark.flatMap fun n => [4 * n, 4 * n + 1, 4 * n + 2, 4 * n + 3, 80 + n, 100 + n]).eraseDups

/-- The unit runs a patrol before the tick: it has one, its group is the counter's, and it is powered (R295). -/
def State.patrolDue (s : State) (f : FaultSite) : Bool :=
  (match f.unit with | .core => true | .crumb => true | .router => true | .engine => true | .ge => true | _ => false)
    && patrolGroup s f == s.seqr.patrol.toNat && !s.patrolsDown.contains (patrolDomain f)

/-- LAST_PASS_TICK of a unit (R296): its group's last start, unless it was down then, or for a core that took another logical core in
a shift the patrol that ended the shift. -/
def State.lastPassOf (s : State) (f : FaultSite) : Nat :=
  let g := patrolGroup s f
  let group := match Tab.get s.lastPass.held (128 * g + patrolDomain f) with | some t => t | none => Tab.getD s.lastPass.last g 0
  let row := 16 * f.stack + f.site / 16
  if f.unit = .core ∧ (s.rowAt row).shifted ∧ (s.rowAt row).col.toNat < f.site % 16 then max group (Tab.getD s.lastPass.shifted row 0) else group

/-- A core found lasting: a spare shift where R19 allows one, which SPARE_SHIFT then makes and the commit after it publishes
(R301); an idle row spare loses its row the spare (R302); else the logical core becomes absent and the device drains with cause
CORE (R20). A hole has no core and takes part in no shift (R17). -/
def failCore (f : FaultSite) (s : State) : State :=
  let n := 256 * f.stack + f.site
  let key := 16 * f.stack + f.site / 16
  let col := f.site % 16
  let r := s.rowAt key
  let t : State := { s with
    faultMap := { s.faultMap with failed := n :: s.faultMap.failed.filter (fun x => x != n) }
    mapDirty := true }
  let changed (t : State) : State := { t with seqr := { t.seqr with fpChanged := true } }
  if r.site col = 1 then s
  else if col = 15 && !r.shifted then changed { t with newRows := Tab.set t.newRows key (r.setSite 15 2) }
  else if r.shifted || r.spareless then
    let t := changed { t with newRows := Tab.set t.newRows key (r.setSite col 2) }
    let t := raiseDrain 0 n t
    match s.servedAt n with
    | some c => lose (s.slotsOf fun _ p => p.onCore c) t
    | none => t
  else
    { t with
      faultMap := { t.faultMap with shifts := Tab.set t.faultMap.shifts key col }
      seqr := { t.seqr with shift := some ⟨f.stack, f.site / 16, col⟩ } }

/-- A slice whose controller or bank stage failed lasting: held in reset, its plans suspended, and the device drains (R297). -/
def failSlice (n : Nat) (s : State) : State :=
  let t : State := { s with
    faultMap := { s.faultMap with slices := n :: s.faultMap.slices }, mapDirty := true, sliceReset := n :: s.sliceReset }
  lose (s.slotsOf fun i p => p.inSlice s i n) (raiseDrain 1 n t)

/-- Table: Action on a lasting fault. -/
def actLasting (f : FaultSite) (s : State) : State :=
  let n := 256 * f.stack + f.site
  match f.unit with
  | .core => failCore f s
  | .bench => failCore f s
  | .lineCache => failCore f s
  | .crumb =>
    let t : State := { s with faultMap := { s.faultMap with crumbs := (n, f.index) :: s.faultMap.crumbs }, mapDirty := true }
    lose (s.slotsOf fun _ p => p.crumbs.any fun x => lcSite x.lcid == n && x.mask.getLsbD f.index)
      (post (event .crumbFailed (objWord 3 f.stack) []) t)
  | .sliceCtl => failSlice n s
  | .bankStage => failSlice n s
  | .router => raiseDrain 2 n (isolate f.stack 6 s)
  | .engine =>
    let t := s.setStack f.stack { s.stackAt f.stack with failedEngines := f.index :: (s.stackAt f.stack).failedEngines }
    let t : State := { t with faultMap := { t.faultMap with engines := (f.stack, f.index) :: t.faultMap.engines }, mapDirty := true }
    lose (s.slotsOf fun _ p => p.usesEngine f.stack f.index) (raiseDrain 3 f.stack t)
  | .ge =>
    let t : State := { s with faultMap := { s.faultMap with engines := (f.stack, 8) :: s.faultMap.engines }, mapDirty := true }
    raiseDrain 4 f.stack (isolate f.stack 6 t)
  | .ioDie => raiseDrain 5 f.index s

/-- The attempt fails if isolation has not failed it already. -/
def failOnce (attempt : Nat) (s : State) : State := if s.seqr.attempt = attempt then failAttempt s else s

/-- The logical core a site serves, as an event names it: 0xFFFF for none. -/
def servedNo (s : State) (f : FaultSite) : Nat :=
  match s.servedAt (256 * f.stack + f.site) with | some c => c.toNat | none => 0xFFFF

/-- A lasting fault (R297): counted and logged, the site acted on, and a patrol failure names the suspect ticks (R296). An
injected one is logged and the injection ends, and no action follows (R312). -/
def lastingFault (f : FaultSite) (s : State) : State :=
  let inj := s.injected f
  let s0 := s.seqr.attempt
  let pass := s.lastPassOf f
  let t := devInc .lasting 1 (post { event .faultLasting (objWord 3 f.stack) [] with log := some s.logNext, injected := inj } s)
  let r := siteRec f 1 s.seqr.attempt inj
  let t := logFault (if f.check = 5 then { r with addr := pass } else r) t
  let e := event .patrolFail (objWord 3 f.stack) [pass, s.seqr.tick, servedNo s f]
  let t := if f.check = 5 then post { e with log := some s.logNext, injected := inj } t else t
  let t : State := if inj then { t with inject := none } else actLasting f t
  failOnce s0 { t with seqr := { t.seqr with curFault := some f } }

/-- A transient fault: the tick is rerun, and the fault counted; its event is posted once per tick (R297). -/
def transientFault (f : FaultSite) (s : State) : State :=
  let e := { event .faultTransient (objWord 3 f.stack) [] with log := some s.logNext, injected := s.injected f }
  let t := if s.devEvents.any (fun p => decide (p.ev = .faultTransient)) then s else post e s
  let t := logFault (siteRec f 0 s.seqr.attempt (s.injected f)) t
  failAttempt (devInc .transient 1 { t with seqr := { t.seqr with curFault := some f } })

/-- A report that stands for a fault: the check cannot correct the error, and a wrong signature comes from a patrol that ran. -/
def State.reportStands (s : State) (f : FaultSite) : Bool :=
  decide (f.unit ≠ .lineCache) && decide (f.check ≠ 1) && (decide (f.check ≠ 5) || s.patrolDue f)

/-- A corrected bench or register error is counted and has no other effect (R90). -/
def noteCorrection (f : FaultSite) (s : State) : State :=
  let n := 256 * f.stack + f.site
  { s with corrected := Tab.set s.corrected n (Tab.getD s.corrected n 0 + 1) }

/-- A line of a line cache whose parity is wrong is dropped, to be fetched again when it is next read, and counted (R280). -/
def refetchLine (f : FaultSite) (s : State) : State :=
  match s.servedAt (256 * f.stack + f.site) with
  | none => s
  | some c =>
    let k := s.core c
    if f.index < k.cache.length then devInc (.cacheParity f.stack) 1 (s.setCore c { k with cache := k.cache.eraseIdx f.index }) else s

/-- A report that is no fault in the tick: a line-cache parity error, a corrected error, or a signature of no patrol that ran. -/
def noteReport (f : FaultSite) (s : State) : State :=
  if f.unit = .lineCache then refetchLine f s else if f.check = 1 then noteCorrection f s else s

/-- A fault report (R297): the first of an attempt is classified by the previous attempt's; later ones of a stopped attempt
are logged as transient. -/
def reportFault (f : FaultSite) (s : State) : State :=
  if !s.reportStands f then noteReport f s
  else if s.seqr.phase = .executing ∨ s.seqr.phase = .completed then
    let t := countCheck f s
    let g := s.chargedTo f
    if s.seqr.prevFault = some f ∨ g ≠ f then lastingFault g t else transientFault f t
  else
    let n := if s.seqr.phase = .rerun then s.seqr.attempt - 1 else s.seqr.attempt
    logFault (siteRec f 0 n (s.injected f)) (countCheck f s)

/-! ## Program faults (R91, R92) -/

/-- Step 2 of R91: the attempt is abandoned, the plan is suspended at the commit and the tick runs again without it. -/
def dropPlan (c : Lcid) (slot cause pc : Nat) (s : State) : State :=
  let s := if cause = 0xC then post (event .poisonConsumed (objWord 1 slot) [(s.core c).ate + 1]) s else s
  let s := post (event .planFault (objWord 1 slot) [c.toNat, pc, cause]) s
  failAttempt (leaveOut slot (suspendPlan slot 3 s))

/-- A program fault of a core (R91, R92): the first is a fault in the tick; the same again, or poison used in control,
drops the plan; a different one on the rerun is a hardware fault of the core, reported as one of check RESIDUE, which R91 does not name
(log 24, DESIGN CHOICE). -/
def progFault (c : Lcid) (cause pc slot : Nat) (s : State) : State :=
  if s.seqr.phase ≠ .executing then s
  else if cause = 0xC then dropPlan c slot cause pc s
  else
    match s.seqr.prevProg with
    | none => failAttempt { s with seqr := { s.seqr with curProg := some (c.toNat, cause, pc) } }
    | some p =>
      if p = (c.toNat, cause, pc) then dropPlan c slot cause pc s
      else reportFault ⟨lcStack c, (s.serving c).getD c.toNat % 256, .core, 0, 3⟩ s

end Sys2Proof.Machine
end

