-- ==== Sys2Proof/Machine/Operands.lean ====
section
/-! DEFINITION. The operand forms of tile programs: the instruction word and its fields (R80), registers, bench memory
(R65), tile descriptors (R75-R76) and their elements, and the issue of one instruction (R61, R81, R90-R93). -/

namespace Sys2Proof.Machine

open Sys2Proof

/-- Why an instruction does not complete: it waits, or it stops the core with a cause code (R91). -/
inductive Stop where
  | wait
  | trap (cause : Nat)
deriving DecidableEq, Repr

/-- A computation of one instruction that can stop. -/
abbrev Tr := Except Stop

/-- Stops with a cause where the condition fails. -/
def need (b : Bool) (cause : Nat) : Tr Unit := if b then .ok () else .error (.trap cause)

/-- Waits until the condition holds (R61). -/
def await (b : Bool) : Tr Unit := if b then .ok () else .error .wait

/-! ## The instruction word (R80) -/

/-- The 64-bit word of an opcode and its fields. -/
def tileWord (op : BitVec 8) (o : Op) : W64 := op ++ o.dst ++ o.a ++ o.b ++ o.mod ++ o.imm

/-- The register file a field of an opcode names; `ds` names the descriptor and the scalar of one number, in the
instructions whose operation names both in one field (R109, DEDUCED, log 27). -/
inductive RegUse where
  | no | s | d | acc | ds
deriving DecidableEq, Repr

/-- Which fields an opcode uses: register files, MOD bits, IMM bits, and whether MOD[8] puts IMM in place of sb. -/
structure Shape where
  dst : RegUse
  a : RegUse
  b : RegUse
  mods : BitVec 9
  imms : BitVec 32
  alt : Bool
deriving DecidableEq, Repr

/-- A register field outside its file, REG_RANGE. -/
def RegUse.bad (u : RegUse) (r : BitVec 5) : Bool :=
  match u with
  | .no => false
  | .s => false
  | .d => decide (16 ≤ r.toNat)
  | .acc => decide (8 ≤ r.toNat)
  | .ds => decide (16 ≤ r.toNat)

/-- The field names a scalar register. -/
def RegUse.scalar (u : RegUse) : Bool := decide (u = .s) || decide (u = .ds)

/-- An unused register field that is not zero. -/
def RegUse.dirty (u : RegUse) (r : BitVec 5) : Bool := decide (u = .no) && decide (r ≠ 0)

/-- RESERVED_FIELD, then REG_RANGE (R80). -/
def checkFields (h : Shape) (o : Op) : Tr Unit := do
  let useImm := h.alt && o.mod.getLsbD 8
  let b := if useImm then RegUse.no else h.b
  let imms : BitVec 32 := if h.alt then (if useImm then 0xFFFFFFFF else 0) else h.imms
  let mods := if h.alt then h.mods ||| 0x100 else h.mods
  need (!(h.dst.dirty o.dst || h.a.dirty o.a || b.dirty o.b || decide (o.mod &&& ~~~mods ≠ 0)
    || decide (o.imm &&& ~~~imms ≠ 0))) 2
  need (!(h.dst.bad o.dst || h.a.bad o.a || b.bad o.b)) 3

/-- The immediate sign-extended to 64 bits. -/
def simm (o : Op) : W64 := o.imm.signExtend 64

/-- Opcodes a tile program may hold (R80, R60, R84, R86, R88, R109, R149, R200, R250). -/
def opcodeDefined (n : Nat) : Bool :=
  decide (n ≤ 0x0D) || (decide (0x10 ≤ n) && decide (n ≤ 0x16)) || (decide (0x20 ≤ n) && decide (n ≤ 0x29))
  || (decide (0x40 ≤ n) && decide (n ≤ 0x43)) || (decide (0x60 ≤ n) && decide (n ≤ 0x6D))
  || (decide (0x80 ≤ n) && decide (n ≤ 0x86)) || (decide (0x90 ≤ n) && decide (n ≤ 0x98))
  || (decide (0xA0 ≤ n) && decide (n ≤ 0xA6)) || (decide (0xB0 ≤ n) && decide (n ≤ 0xB3))
  || decide (n = 0xC0) || decide (n = 0xC1)

/-! ## Registers -/

/-- Scalar register `r`: s0 reads as zero (R80). -/
def CoreCtx.sreg (k : CoreCtx) (r : BitVec 5) : W64 := if r = 0 then 0 else Tab.getD k.s r.toNat 0

/-- Whether a scalar register is poisoned (R90). -/
def CoreCtx.sbad (k : CoreCtx) (r : BitVec 5) : Bool := r != 0 && k.sPoison.contains r.toNat

/-- Writes scalar register `r` with its poison: s0 ignores writes. -/
def CoreCtx.sset (k : CoreCtx) (r : BitVec 5) (v : W64) (poison : Bool) : CoreCtx :=
  if r = 0 then k
  else { k with
    s := Tab.set k.s r.toNat v
    sPoison := if poison then r.toNat :: k.sPoison.filter (fun x => x != r.toNat) else k.sPoison.filter (fun x => x != r.toNat) }

/-- Descriptor register. -/
def CoreCtx.dreg (k : CoreCtx) (r : BitVec 5) : BitVec 128 := Tab.getD k.d r.toNat 0

/-- Accumulator; after a tick start it is zero, of type FP32 and not poisoned (R66). -/
def CoreCtx.areg (k : CoreCtx) (r : BitVec 5) : Acc := Tab.getD k.acc r.toNat ⟨false, false, []⟩

/-- Writes an accumulator. -/
def CoreCtx.aset (k : CoreCtx) (r : BitVec 5) (v : Acc) : CoreCtx := { k with acc := Tab.set k.acc r.toNat v }

/-- Element (i, j) of an accumulator. -/
def Acc.at (v : Acc) (i j : Nat) : W32 := Tab.getD v.elems (16 * i + j) 0

/-- ORs flags into FLAGS (R74). -/
def CoreCtx.orFlags (k : CoreCtx) (f : Fl) : CoreCtx := { k with flags := k.flags ||| f.setWidth 64 }

/-- Folds a completion status into FLAGS.LOAD_STATUS (R74, R85). -/
def CoreCtx.foldStatus (k : CoreCtx) (st : Status) : CoreCtx :=
  let old := Status.ofCode (k.flags.toNat / 256 % 256)
  let new := Status.first old st
  { k with flags := (k.flags &&& ~~~(0xFF00 : W64)) ||| BitVec.ofNat 64 (new.code * 256) }

/-- An instruction consumed poison (R90). -/
def CoreCtx.eat (k : CoreCtx) (b : Bool) : CoreCtx := if b then { k with ate := k.ate + 1 } else k

/-- The address or length a register gives; poison used in control stops the core (R92). -/
def CoreCtx.addr (k : CoreCtx) (r : BitVec 5) : Tr W64 := do
  need (!k.sbad r) 0xC
  return k.sreg r

/-! ## Bench memory (R65) -/

/-- Two byte ranges overlap. -/
def overlaps (a n b m : Nat) : Bool := decide (a < b + m) && decide (b < a + n) && decide (0 < n) && decide (0 < m)

/-- The last bench address is 0x3F_FFFF. -/
def benchSize : Nat := 0x400000

/-- A range overlaps a window not yet retired (R239). -/
def CoreCtx.inWindow (k : CoreCtx) (a n : Nat) : Bool := 
  k.windows.any fun w => !w.retired && w.ranges.any fun r => overlaps a n r.1 r.2

/-- A range overlaps an unfenced return range (R151). -/
def CoreCtx.inReturn (k : CoreCtx) (a n : Nat) : Bool := k.jobs.any fun j => overlaps a n j.retBase j.retLen

/-- A range overlaps a pending write range, in 64-byte lines (R61). -/
def CoreCtx.inFlight (k : CoreCtx) (a n : Nat) : Bool :=
  k.xfers.any fun x =>
    (decide (x.kind = .tload) || decide (x.kind = .tin))
    && overlaps (a / 64 * 64) (roundUp (a % 64 + n) 64) x.bench (roundUp x.len 64)
    || decide (x.kind = .tloadCached) && overlaps (a / 64 * 64) (roundUp (a % 64 + n) 64) x.bench x.want.2

/-- A range overlaps, in 64-byte lines, the pending read range of a transfer whose last flit is not yet injected (R61, R241). -/
def CoreCtx.reading (k : CoreCtx) (a n : Nat) : Bool :=
  k.outbound.any fun x => !x.unsent.isEmpty && x.reads.any fun r =>
    overlaps (a / 64 * 64) (roundUp (a % 64 + n) 64) (r.1 / 64 * 64) (roundUp (r.1 % 64 + r.2) 64)

/-- Checks common to every bench access. -/
def CoreCtx.access (k : CoreCtx) (a n : Nat) : Tr Unit := do
  need (decide (a + n ≤ benchSize)) 4
  need (!k.inWindow a n) 0x13
  need (!k.inReturn a n) 0xE
  await (!k.inFlight a n)

/-- A range overlaps a resident region. -/
def CoreCtx.isResident (k : CoreCtx) (a n : Nat) : Bool := k.resident.any fun r => overlaps a n r.1 r.2

/-- Any line of a range is poisoned. -/
def CoreCtx.dirty (k : CoreCtx) (a n : Nat) : Bool :=
  k.benchPoison.any fun l => overlaps a n (64 * l) 64

/-- Reads a range. -/
def CoreCtx.rd (k : CoreCtx) (a n : Nat) : Tr (List Byte) := do
  k.access a n
  return Mem.read k.bench a n

/-- Lines, of those a list of bytes touches, that end poisoned: a line wholly covered takes the poison of its data, another
keeps its own as well (R65). -/
def poisonAfter (old : List Nat) (w : List (Nat × Byte × Bool)) : List Nat :=
  let lines := (w.map fun e => e.1 / 64).dedup
  let kept := old.filter fun l => !(lines.contains l && decide (((w.map Prod.fst).dedup.filter fun a => decide (a / 64 = l)).length = 64))
  let new := lines.filter fun l => w.any fun e => decide (e.1 / 64 = l) && e.2.2
  kept ++ new.filter fun l => !kept.contains l

/-- Puts bytes, each with its poison, into bench memory. -/
def CoreCtx.put (k : CoreCtx) (w : List (Nat × Byte × Bool)) : CoreCtx :=
  { k with
    bench := w.foldl (fun m e => Mem.set m e.1 e.2.1) k.bench
    benchPoison := poisonAfter k.benchPoison w }

/-- Bytes at consecutive addresses. -/
def runOf (a : Nat) (l : List Byte) (poison : Bool) : List (Nat × Byte × Bool) :=
  (List.range l.length).map fun i => (a + i, l.getD i 0, poison)

/-- Checks a write of a range by the program. -/
def CoreCtx.canWrite (k : CoreCtx) (a n : Nat) : Tr Unit := do
  k.access a n
  need (!k.isResident a n) 4
  await (!k.reading a n)

/-- Writes a range. -/
def CoreCtx.wr (k : CoreCtx) (a : Nat) (l : List Byte) (poison : Bool) : Tr CoreCtx := do
  k.canWrite a l.length
  return k.put (runOf a l poison)

/-! ## Tile descriptors (R75, R76) -/

/-- The fields of a descriptor. -/
structure TileD where
  fmt : Nat
  sparse : Nat
  trans : Bool
  noscale : Bool
  metaBase : Nat
  scale : Nat
  stride : Nat
  rows : Nat
  cols : Nat
  base : Nat
deriving DecidableEq, Repr

/-- The descriptor in 128 bits. -/
def tileD (d : BitVec 128) : TileD :=
  { fmt := d.toNat / 2 ^ 124, sparse := d.toNat / 2 ^ 122 % 4, trans := d.getLsbD 121, noscale := d.getLsbD 120,
    metaBase := d.toNat / 2 ^ 98 % 2 ^ 22, scale := d.toNat / 2 ^ 76 % 2 ^ 22, stride := d.toNat / 2 ^ 64 % 2 ^ 12,
    rows := d.toNat / 2 ^ 48 % 2 ^ 16, cols := d.toNat / 2 ^ 32 % 2 ^ 16, base := d.toNat % 2 ^ 22 }

/-- Bits of an element (R69). -/
def fmtBits (n : Nat) : Nat :=
  match n with | 0 => 32 | 1 => 16 | 2 => 8 | 3 => 8 | 4 => 6 | 5 => 6 | 6 => 4 | 7 => 8 | 8 => 4 | _ => 32

/-- The MX formats. -/
def isMx (n : Nat) : Bool := decide (2 ≤ n) && decide (n ≤ 6)

/-- The binary format of a code; none for the integers. -/
def fmtOf (n : Nat) : Option Fmt :=
  match n with
  | 0 => some fp32 | 1 => some bf16 | 2 => some e4m3 | 3 => some e5m2 | 4 => some e2m3 | 5 => some e3m2 | 6 => some e2m1
  | _ => none

/-- Stored rows: those of the tile, or its columns when TRANS is set. -/
def TileD.major (t : TileD) : Nat := if t.trans then t.cols else t.rows
/-- Elements of a stored row. -/
def TileD.minor (t : TileD) : Nat := if t.trans then t.rows else t.cols
/-- Bytes of a stored row. -/
def TileD.rowBytes (t : TileD) : Nat := ceilDiv (t.minor * fmtBits t.fmt) 8
/-- The pitch. -/
def TileD.pitch (t : TileD) : Nat := if t.stride = 0 then t.rowBytes else t.stride * 64

/-- Checks of R76 that need no access. -/
def TileD.check (t : TileD) : Tr Unit := do
  need (decide (t.fmt ≤ 9) && decide (t.sparse ≠ 3)) 7
  need (!(decide (t.stride = 0) && decide (fmtBits t.fmt < 8) && decide (t.minor * fmtBits t.fmt % 8 ≠ 0))) 7
  need (!(t.trans && decide (fmtBits t.fmt < 8))) 7
  need (decide (t.base % 16 = 0) && decide (t.metaBase % 16 = 0)) 5
  need (decide (t.rows ≠ 0) && decide (t.cols ≠ 0)) 6
  need (decide (t.stride = 0) || decide (t.rowBytes ≤ t.stride * 64)) 6

/-- The byte ranges of the stored rows. -/
def TileD.ranges (t : TileD) : List (Nat × Nat) :=
  if t.stride = 0 then [(t.base, t.major * t.rowBytes)]
  else (List.range t.major).map fun r => (t.base + r * t.pitch, t.rowBytes)

/-- Bytes of dense scales: per row of the tile, or per block of rows for the B operand of an MMA. -/
def TileD.scaleBytes (t : TileD) (asB : Bool) : Nat :=
  if asB then ceilDiv t.rows 32 * t.cols else t.rows * ceilDiv t.cols 32

/-- Where the scale byte of element (i, j) lies among the scales (R75). Of a TRANS = 1 tile that is no B operand of an MMA, which R75 does
not lay out, by logical rows of ⌈cols / 32⌉ (log 82, DESIGN CHOICE). -/
def TileD.scaleIx (t : TileD) (asB : Bool) (i j : Nat) : Nat :=
  if asB then (if t.trans then j * ceilDiv t.rows 32 + i / 32 else i / 32 * t.cols + j) else i * ceilDiv t.cols 32 + j / 32

/-- The bit position of element (i, j) from the base, as byte and bit. -/
def TileD.place (t : TileD) (i j : Nat) : Nat × Nat :=
  let (r, c) := if t.trans then (j, i) else (i, j)
  let b := c * fmtBits t.fmt
  (t.base + r * t.pitch + b / 8, b % 8)

/-- The code of element (i, j). -/
def TileD.code (t : TileD) (k : CoreCtx) (i j : Nat) : Nat :=
  let (a, sh) := t.place i j
  let n := ceilDiv (sh + fmtBits t.fmt) 8
  leNat (Mem.read k.bench a n) / 2 ^ sh % 2 ^ fmtBits t.fmt

/-- Element (i, j) lies in a poisoned line, or its scale does. -/
def TileD.bad (t : TileD) (k : CoreCtx) (asB : Bool) (i j : Nat) : Bool :=
  let (a, sh) := t.place i j
  k.dirty a (ceilDiv (sh + fmtBits t.fmt) 8)
  || (isMx t.fmt && !t.noscale && k.dirty (t.scale + t.scaleIx asB i j) 1)

/-- The scale byte of element (i, j): 127 with NOSCALE or where the format has none. -/
def TileD.scaleOf (t : TileD) (k : CoreCtx) (asB : Bool) (i j : Nat) : Nat :=
  if isMx t.fmt && !t.noscale then (Mem.get k.bench (t.scale + t.scaleIx asB i j)).toNat else 127

/-- The unscaled value of a code. -/
def codeVal (fmt n : Nat) : Val :=
  match fmtOf fmt with
  | some f => f.decode n
  | none =>
    let w := fmtBits fmt
    Val.ofInt (if n < 2 ^ (w - 1) then n else n - 2 ^ w)

/-- A value times 2^(x − 127); scale 0xFF makes it NaN (R69, R71). -/
def Val.scaled (v : Val) (x : Nat) : Val :=
  if x = 0xFF then .nan
  else match v with
    | .fin s m e => .fin s m (e + x - 127)
    | w => w

/-- The value of element (i, j). -/
def TileD.val (t : TileD) (k : CoreCtx) (asB : Bool) (i j : Nat) : Val :=
  (codeVal t.fmt (t.code k i j)).scaled (t.scaleOf k asB i j)

/-- The ranges a tile's elements and scales lie in. -/
def TileD.touched (t : TileD) (asB : Bool) : List (Nat × Nat) :=
  t.ranges ++ (if isMx t.fmt && !t.noscale then [(t.scale, t.scaleBytes asB)] else [])

/-- Sparsity applies to the B operand of an MMA alone (R77). -/
def TileD.dense (t : TileD) : Tr Unit := need (decide (t.sparse = 0)) 7

/-- The checks of reading a dense tile: form, then access to its elements and scales. -/
def TileD.canRead (t : TileD) (k : CoreCtx) : Tr Unit := do
  t.check
  t.dense
  (t.touched false).forM fun r => k.access r.1 r.2

/-- The checks of writing a tile. -/
def TileD.canWrite (t : TileD) (k : CoreCtx) : Tr Unit := do
  t.check
  t.dense
  (t.touched false).forM fun r => k.canWrite r.1 r.2

/-! ## Writing tiles (R70, R71) -/

/-- floor(log2 |v|) of a finite nonzero value. -/
def Val.ilog : Val → Option Int
  | .fin _ 0 _ => none
  | .fin _ m e => some (e + Nat.log2 m)
  | _ => none

/-- *e* of R71. -/
def mxE (fmt : Nat) : Int := match fmt with | 2 => 8 | 3 => 15 | 4 => 2 | 5 => 4 | _ => 2

/-- The scale exponent of a block (R71), and whether an element is NaN. -/
def mxScale (fmt : Nat) (l : List Val) : Int × Bool :=
  let isNaN := l.any fun v => decide (v = .nan)
  let fins := l.filter fun v => match v with | .fin _ _ _ => true | _ => false
  let top : Option Int := (fins.filterMap Val.ilog).foldl (fun m x => match m with | none => some x | some y => some (max x y)) none
  let x : Int :=
    match top with
    | some t => max (-127) (min 127 (t - mxE fmt))
    | none => if fins.isEmpty then 0 else -127
  (x, isNaN)

/-- One element in a format. -/
def encodeElem (fmt : Nat) (v : Val) : Nat × Fl :=
  match fmtOf fmt with
  | some f => f.encode v
  | none => let (b, f) := v.toInt (fmtBits fmt); (b.toNat, f)

/-- Row-major blocks of 32 along the columns. -/
def blocksOf (l : List Val) : Nat → List (List Val)
  | 0 => []
  | n + 1 => l.take 32 :: blocksOf (l.drop 32) n

/-- The element codes, scale bytes and flags of one row of values in a format. -/
def encodeRow (fmt : Nat) (noscale : Bool) (l : List Val) : List Nat × List Nat × Fl :=
  if isMx fmt && !noscale then
    (blocksOf l (ceilDiv l.length 32)).foldl
      (fun acc b =>
        let (x, isNaN) := mxScale fmt b
        let es := b.map fun v => encodeElem fmt (match v with | .fin s m e => .fin s m (e - x) | w => w)
        (acc.1 ++ es.map Prod.fst, acc.2.1 ++ [if isNaN then 0xFF else (x + 127).toNat],
          es.foldl (fun f e => f ||| e.2) acc.2.2)) ([], [], 0)
  else
    let es := l.map (encodeElem fmt)
    (es.map Prod.fst, [], es.foldl (fun f e => f ||| e.2) 0)

/-- The bytes of element codes packed little-endian (R69). -/
def packCodes (bits : Nat) (l : List Nat) : List Byte :=
  let n := (List.range l.length).foldl (fun acc i => acc + l.getD i 0 * 2 ^ (bits * i)) 0
  leBytes (ceilDiv (bits * l.length) 8) n

/-- Writes the rows of a tile, values and which elements are fed by poison, in the tile's format. A poisoned element
poisons the lines its bytes, and in an MX block its scale, lie in. -/
def TileD.store (t : TileD) (k : CoreCtx) (rows : List (List (Val × Bool))) : Tr CoreCtx := do
  t.canWrite k
  -- stored rows: the columns when TRANS is set
  let at2 (i j : Nat) : Val × Bool := (rows.getD i []).getD j (Val.zero, false)
  let encoded := (List.range t.rows).map fun i =>
    encodeRow t.fmt t.noscale ((List.range t.cols).map fun j => (at2 i j).1)
  let blk (i j : Nat) : Bool :=
    if isMx t.fmt && !t.noscale then
      (List.range 32).any fun q => decide (j / 32 * 32 + q < t.cols) && (at2 i (j / 32 * 32 + q)).2
    else (at2 i j).2
  let code (i j : Nat) : Nat := ((encoded.getD i ([], [], 0)).1).getD j 0
  let elems := (List.range t.major).flatMap fun r =>
    let bytes := packCodes (fmtBits t.fmt) ((List.range t.minor).map fun c => if t.trans then code c r else code r c)
    (List.range bytes.length).map fun q =>
      let hit := (List.range t.minor).any fun c =>
        let b := c * fmtBits t.fmt
        decide (b / 8 ≤ q) && decide (q ≤ (b + fmtBits t.fmt - 1) / 8) && (if t.trans then blk c r else blk r c)
      (t.base + r * t.pitch + q, bytes.getD q 0, hit)
  let scales :=
    if isMx t.fmt && !t.noscale then
      (List.range t.rows).flatMap fun i =>
        let ss := (encoded.getD i ([], [], 0)).2.1
        (List.range ss.length).map fun b =>
          (t.scale + i * ceilDiv t.cols 32 + b, BitVec.ofNat 8 (ss.getD b 0), blk i (32 * b))
    else []
  let fl := encoded.foldl (fun f e => f ||| e.2.2) (0 : Fl)
  return (k.put (elems ++ scales)).orFlags fl

/-! ## Issuing one instruction -/

/-- The word a core's sequencer fetches next (R80). -/
def CoreCtx.fetch (k : CoreCtx) : W64 := BitVec.ofNat 64 (leNat (Mem.read k.bench k.pc 8))

/-- What the fetch of the next instruction stops with: outside resident regions BENCH_RANGE, in a window or an unfenced
return range their faults, an undefined opcode ILLEGAL (R65, R80, R151, R239). -/
def CoreCtx.fetchTrap (k : CoreCtx) : Option Nat :=
  if !(k.resident.any fun r => decide (r.1 ≤ k.pc) && decide (k.pc + 8 ≤ r.1 + r.2)) then some 4
  else if k.inWindow k.pc 8 then some 0x13
  else if k.inReturn k.pc 8 then some 0xE
  else if !opcodeDefined (k.fetch.toNat / 2 ^ 56) then some 1
  else none

/-- A core takes a tile row when it runs, its tick executes, and the word it fetched is the row's (log 3). -/
def issues (s : State) (c : Lcid) (op : BitVec 8) (o : Op) : Bool :=
  decide (s.seqr.phase = .executing) && decide ((s.core c).run = .running) && decide ((s.core c).fetch = tileWord op o)

/-- The pc after the instruction at `pc`, with the loops that end there (R82). Only the innermost loop's end is compared, so a body that ends
beyond the enclosing loop's runs on to its own end (log 83, DESIGN CHOICE). -/
def loopBack (pc : Nat) : List LoopCtx → Nat × List LoopCtx
  | [] => (pc + 8, [])
  | l :: ls =>
    if l.last = pc then
      (if l.left = 0 then loopBack pc ls else (l.first, { l with left := l.left - 1 } :: ls))
    else (pc + 8, l :: ls)

/-- Moves to the next instruction. -/
def CoreCtx.step (k : CoreCtx) : CoreCtx :=
  let r := loopBack k.pc k.loops
  { k with pc := r.1, loops := r.2 }

/-- The core stops with a program fault at its present instruction (R91). -/
def coreFault (c : Lcid) (cause : Nat) (s : State) : State :=
  progFault c cause (s.core c).pc (s.core c).slot s

/-- Ends an instruction whose result is `k`: the next fetch of a core still running is checked. -/
def endInstr (c : Lcid) (k : CoreCtx) (s : State) : State :=
  match k.fetchTrap with
  | none => s.setCore c k
  | some cause =>
    if k.run = .running then progFault c cause k.pc k.slot (s.setCore c k) else s.setCore c k

/-- An SLD or TIN still under way writes scalar register `r` (R61). -/
def CoreCtx.regPending (k : CoreCtx) (r : BitVec 5) : Bool :=
  k.xfers.any fun x => (decide (x.kind = .sld) || decide (x.kind = .tin)) && x.reg == r.toNat && r != 0

/-- A scalar register the instruction reads or writes has a write pending (R61). -/
def CoreCtx.fieldPending (k : CoreCtx) (h : Shape) (o : Op) : Bool :=
  (h.dst.scalar && k.regPending o.dst) || (h.a.scalar && k.regPending o.a) || (h.b.scalar && k.regPending o.b)

/-- Issues one instruction: the row is taken if the core fetched it; fields are checked, the cycles counted (R93), and the
body run; it waits, faults the core, or gives the new core and state. `body` leaves the pc at the next instruction. -/
def issue (c : Lcid) (op : BitVec 8) (h : Shape) (o : Op) (s : State)
    (body : CoreCtx → Tr (CoreCtx × State)) : Out :=
  unit (validLcid c) <|
    if issues s c op o then
      let k := s.core c
      let n := max k.cycles o.cyc
      let r : Tr (CoreCtx × State) := do
        checkFields h o
        await (!k.fieldPending h o)
        let r ← body { k with cycles := n }
        need (decide (n ≤ k.budget)) 0xB
        return r
      match r with
      | .ok (k', s') => .next (endInstr c k' s')
      | .error .wait => .next s
      | .error (.trap cause) => .next (coreFault c cause s)
    else skip s

/-- An instruction that changes its core alone. -/
def issueK (c : Lcid) (op : BitVec 8) (h : Shape) (o : Op) (s : State) (body : CoreCtx → Tr CoreCtx) : Out :=
  issue c op h o s fun k => do
    let k' ← body k
    return (k'.step, s)

/-- The second operand: sb, or the immediate where MOD[8] allows it, with its poison (R81). -/
def CoreCtx.opb (k : CoreCtx) (o : Op) : W64 × Bool :=
  if o.mod.getLsbD 8 then (simm o, false) else (k.sreg o.b, k.sbad o.b)

end Sys2Proof.Machine
end

