-- ==== Sys2Proof/Machine/Net.lean ====
section
/-! DEFINITION. The mesh and the die edges: flits and frames sent, arriving, failing their CRC and absorbed (R228-R249,
R255-R263). -/

namespace Sys2Proof.Machine

open Sys2Proof

/-! ## Sites and ports -/

/-- The physical site, within its stack, that serves a logical core; the core's own where it is absent. -/
def State.siteOf (s : State) (c : Lcid) : Nat := ((s.serving c).getD c.toNat) % 256

/-- Hops between two sites of a die (R25). -/
def hops (a b : Nat) : Nat :=
  (a / 16 - b / 16) + (b / 16 - a / 16) + (a % 16 - b % 16) + (b % 16 - a % 16)

/-- The router a stream engine attaches at: OP0's (7, 0) or OP1's (8, 15) (R228, R259). -/
def State.portSite (s : State) (stack engine : Nat) : Nat := if s.enginePort stack engine = 1 then 0x8F else 0x70

/-- Coordinates passed from one to another, the first left out. -/
def coords (a b : Nat) : List Nat :=
  if a ≤ b then (List.range (b - a)).map fun i => a + 1 + i else (List.range (a - b)).map fun i => a - 1 - i

/-- The routers a flit passes: along the row of its source, then along the column of its destination (R229). -/
def xyPath (a b : Nat) : List Nat :=
  a :: (coords (a % 16) (b % 16)).map (fun x => a / 16 * 16 + x) ++ (coords (a / 16) (b / 16)).map fun y => 16 * y + b % 16

/-- The way a core's stream number leads, of its plan (R260). -/
def wayOfEnd (engine : Nat) (e : Nat × Nat) : Way := ⟨e.1, engine, e.2⟩

/-- The global access engine's way to a stack (R263). -/
def globalWay (stack : Nat) : Way := ⟨stack, 8, 8⟩

/-- The way back of a transfer that came from a stack. -/
def wayBack (w : Way) (home : Nat) : Way := ⟨home, w.enter, w.out⟩

/-- The stream engine a core's stack uses for a stream number, and the stack and engine at its far end (R260). -/
def Plan.farEnd (p : Plan) (stack stream : Nat) : Option (Nat × Nat) :=
  (p.streams.findSome? fun x =>
    if x.nearStack = stack ∧ x.nearEngine = stream then some (x.farStack, x.farEngine)
    else if x.farStack = stack ∧ x.farEngine = stream then some (x.nearStack, x.nearEngine) else none)

/-- The plan a core serves. -/
def State.planOf (s : State) (c : Lcid) : Option Plan := s.planAt (s.core c).slot

/-! ## Headers (R235, R237, R257) -/

/-- Header bits [111:0] of a flit (R235). -/
def flitHeader (f : NetFlit) : BitVec 112 :=
  f.tag ++ f.seq ++ f.group ++ f.dest ++ f.src ++ f.kind ++ f.vc ++ BitVec.ofBool f.poison ++ BitVec.ofBool f.last ++ f.status ++ f.orig
    ++ BitVec.ofBool f.sys ++ (0 : BitVec 2) ++ f.offset

/-- Bytes of a number of `8·n` bits, most significant first. -/
def beBytes (n v : Nat) : List Byte := (leBytes n v).reverse

/-- The payload as sent: 64 bytes, zeros where the flit carries none. -/
def flitLine (f : NetFlit) : List Byte := slice f.payload 0 64

/-- CRC: over header bits [111:0], most significant first, then the payload bytes (R237). -/
def flitCrc (f : NetFlit) : BitVec 16 := crc16 (beBytes 14 (flitHeader f).toNat ++ flitLine f)

/-- The 128-bit header of a flit (R235). -/
def flitWord (f : NetFlit) : BitVec 128 := flitCrc f ++ flitHeader f

/-- The fields of a flit that a DESCRIPTOR carries, with the logical core in place of DEST, and the length of the transfer: their
order in the payload is the model's (R257, DESIGN CHOICE, log 104). -/
def frameDescriptor (f : NetFrame) : List Byte :=
  let h : NetFlit := f.flit
  let w : BitVec 136 := flitCrc h ++ h.tag ++ h.seq ++ h.group ++ h.core ++ h.src ++ h.kind ++ h.vc ++ BitVec.ofBool h.poison
    ++ BitVec.ofBool h.last ++ h.status ++ h.orig ++ BitVec.ofBool h.sys ++ (0 : BitVec 2) ++ h.offset
  leBytes 17 w.toNat ++ leBytes 4 f.length ++ List.replicate 43 0

/-- Header bits [47:0] of a frame (R257). -/
def frameHeader (f : NetFrame) : BitVec 48 :=
  f.fseq ++ f.engine ++ f.kind ++ BitVec.ofBool f.poison ++ BitVec.ofBool f.last ++ (0 : BitVec 22)

/-- The payload line of a frame. -/
def frameLine (f : NetFrame) : List Byte := if f.kind = 0 then frameDescriptor f else flitLine f.flit

/-- CRC of a frame: over header bits [47:0] and then the payload bytes (R257). -/
def frameCrc (f : NetFrame) : BitVec 16 := crc16 (beBytes 6 (frameHeader f).toNat ++ frameLine f)

/-! ## Sending -/

/-- A flit of a core's transfer on its own die, before its fields of place are set. -/
def flitFrom (s : State) (c : Lcid) (id : Nat) (kind : BitVec 4) (vc : BitVec 2) : NetFlit :=
  { stack := lcStack c, tag := BitVec.ofNat 16 s.seqr.count, seq := 0, group := 0, dest := 0, src := BitVec.ofNat 8 (s.siteOf c),
    kind := kind, vc := vc, poison := false, last := false, status := 0, orig := BitVec.ofNat 5 (lcStack c), sys := false,
    offset := 0, payload := [], node := (c.toNat, id), ofFold := false, far := none, core := 0xFFFF }

/-- Puts flits in flight. -/
def fly (l : List NetFlit) (s : State) : State := { s with flits := s.flits ++ l }

/-- Puts flits in flight, counting those a core injects (R250). -/
def inject (c : Lcid) (l : List NetFlit) (s : State) : State :=
  let k := s.core c
  fly l (s.setCore c { k with netCounts := Tab.set k.netCounts 0 (Tab.getD k.netCounts 0 0 + l.length) })

/-- Takes up to `n` tokens from a level: what is left, and whether the piece may go (R131). -/
def takeTokens (level n : Nat) : Nat × Bool := if level = 0 then (0, false) else (level - min level n, true)

/-- Takes slice tokens of a piece from the quadrant of the logical core's site: the state and whether the piece goes. The
first time in a tick that the bucket is empty is counted (R131). -/
def sliceTokens (c : Lcid) (n : Nat) (s : State) : State × Bool :=
  let q := siteQuad (lcSite c)
  let k := s.quadAt q
  let (lv, go) := takeTokens k.sliceLevel n
  let t := if go then incP (.sliceTokens q) (min k.sliceLevel n) s else s
  let t := if lv = 0 && !k.sliceEmptied then inc (.sliceEmpty q) 1 t else t
  (t.setQuad q { k with sliceLevel := lv, sliceEmptied := k.sliceEmptied || decide (lv = 0) }, go)

/-- Takes one stream token for a flit's payload (R131). -/
def streamToken (c : Lcid) (s : State) : State × Bool :=
  let q := siteQuad (lcSite c)
  let k := s.quadAt q
  let (lv, go) := takeTokens k.streamLevel 1
  let t := if lv = 0 && !k.streamEmptied then inc (.streamEmpty q) 1 s else s
  (t.setQuad q { k with streamLevel := lv, streamEmptied := k.streamEmptied || decide (lv = 0) }, go)

/-- Sends flits that take stream tokens until the bucket is empty: the state, and the flits left. Copies of flits the core has
injected already for its own stack are not counted again (R250). -/
def sendStream (c : Lcid) (counted : Bool) : List NetFlit → State → State × List NetFlit
  | [], s => (s, [])
  | f :: l, s =>
    let (t, go) := streamToken c s
    if go then sendStream c counted l (if counted then inject c [f] t else fly [f] t) else (t, f :: l)

/-! ## Arrival of a flit -/

/-- A flit is next of its source, destination and channel (R231). -/
def State.flitFirst (s : State) (f : NetFlit) : Bool :=
  match s.flits.find? (fun g => g.stack == f.stack && g.orig == f.orig && g.src == f.src && g.dest == f.dest && g.vc == f.vc) with
  | some g => decide (g = f)
  | none => false

/-- The fault site of a router. -/
def routerSite (stack site : Nat) : FaultSite := ⟨stack, site, .router, 0, 6⟩

/-- The router a flit entered its present mesh at: its sender's, or the port of the engine that brought it (R262). -/
def State.entrySite (s : State) (f : NetFlit) : Nat :=
  if f.orig.toNat = f.stack then f.src.toNat else s.portSite f.stack (match f.far with | some w => w.enter | none => 8)

/-- The routers of a flit's path on its die (R229). -/
def State.pathOf (s : State) (f : NetFlit) : List Nat := xyPath (s.entrySite f) f.dest.toNat

/-- A network transfer of a core, by its number. -/
def State.netOf (s : State) (c : Lcid) (id : Nat) : Option NetXfer := (s.core c).outbound.find? fun x => x.id == id

/-- The sites the copies of a flit go to on its die, in member order: those of a multicast or of rows to a group (R242). -/
def State.copySites (s : State) (f : NetFlit) : List Nat :=
  if f.kind = 4 ∨ f.kind = 6 then
    match s.netOf (BitVec.ofNat 16 f.node.1) f.node.2 with
    | some x => (x.dests.filter fun m => lcStack m == f.stack).map s.siteOf
    | none => []
  else []

/-- The routers that forward a flit: of copies along one tree, those no copy before it in member order has passed (R242, R254). -/
def State.forwards (s : State) (f : NetFlit) : Nat :=
  let before := (s.copySites f).takeWhile fun d => d != f.dest.toNat
  ((s.pathOf f).filter fun r => !before.any fun d => (xyPath (s.entrySite f) d).contains r).length

/-- A flit of a row's TYPE arrives: a router of its path that finds its CRC wrong has it replayed and counted, and a second
mismatch discards it and faults the tick at the router that met it (R237); the routers that forward it count it (R254). A
reserved TYPE is discarded and counted as a CRC failure (R236). A flit of a stopped attempt is discarded (R249). `bad` names the
routers that find a mismatch, in order. -/
def arrive (kind : BitVec 4) (f : NetFlit) (bad : List Nat) (s : State) (k : State → State) : Out :=
  unit (validStack f.stack) <|
    if s.flitFirst f then
      let t : State := { s with flits := s.flits.erase f }
      if 0xC ≤ f.kind.toNat then .next (devInc (.crcFail f.stack) 1 t)
      else if f.kind = kind then
        match bad.filter fun r => (s.pathOf f).contains r with
        | _ :: r :: _ =>
          .next (reportFault (routerSite f.stack r) (devInc (.crcFail f.stack) 1 (devInc (.crcReplay f.stack) 1 t)))
        | l =>
          let t := if l.isEmpty then t else devInc (.crcReplay f.stack) 1 t
          let t := incP (.flits f.stack) (s.forwards f) t
          if f.sys || decide (s.seqr.phase = .executing) then .next (k t) else .next t
      else skip s
    else skip s

/-! ## Frames (R257) -/

/-- Key of an engine pair and direction. -/
def edgeKey (src : Nat) (w : Way) : Nat := 8192 * src + 256 * w.stack + 16 * w.out + w.enter

/-- An engine pair whose key is given ends on a stack. -/
def keyOnStack (n key : Nat) : Bool := key / 8192 == n || key / 256 % 32 == n

/-- The frames of an engine pair are counted from zero again on a stack whose links have been trained (R257, R267; DESIGN CHOICE,
log 104). -/
def resetFseqs (n : Nat) (s : State) : State :=
  { s with fseqs := s.fseqs.filter (fun e => !keyOnStack n e.1), edgeCredits := s.edgeCredits.filter fun e => !keyOnStack n e.1 }

/-- Sends a frame: it takes the next FSEQ of its engine pair, and the stack counts it. -/
def sendFrame (src : Nat) (w : Way) (kind : BitVec 4) (len : Nat) (f : NetFlit) (s : State) : State :=
  let key := edgeKey src w
  let n := Tab.getD s.fseqs key 0
  incP (.frames src) 1
    { s with
      fseqs := Tab.set s.fseqs key (n + 1)
      edgeCredits := if kind = 1 then Tab.set s.edgeCredits key (Tab.getD s.edgeCredits key 0 + 1) else s.edgeCredits
      frames := s.frames ++ [{ src := src, dst := w.stack, fseq := n, engine := BitVec.ofNat 4 w.out, peer := BitVec.ofNat 4 w.enter,
                               kind := kind, poison := f.poison, last := f.last, tries := 0, held := false, length := len, flit := f }] }

/-- The way of a frame, and the way back to its sender. -/
def frameWay (f : NetFrame) : Way := ⟨f.dst, f.engine.toNat, f.peer.toNat⟩

/-- Answers a frame with one of its own pair's other direction. -/
def answerFrame (f : NetFrame) (kind : BitVec 4) (g : NetFlit) (s : State) : State := sendFrame f.dst (wayBack (frameWay f) f.src) kind 0 g s

/-- A frame is next of its engine pair and waits for no replay. -/
def State.frameFirst (s : State) (f : NetFrame) : Bool :=
  !f.held &&
  if f.kind = 3 ∨ f.kind = 4 then decide (f ∈ s.frames) else
  match s.frames.find? (fun g => g.src == f.src && g.dst == f.dst && g.engine == f.engine && g.kind ≠ 4 && g.kind ≠ 3) with
  | some g => decide (g = f)
  | none => decide (f ∈ s.frames)

/-- The fault site of a stream engine. -/
def engineSite (s : State) (f : NetFrame) : FaultSite :=
  ⟨f.src, s.portSite f.src f.engine.toNat, if f.engine = 8 then .ge else .engine, f.engine.toNat % 8, 6⟩

/-- A frame arrives: its first CRC mismatch is answered with REPLAY_REQ and counted, its second faults the tick (R257). -/
def arriveFrame (kind : BitVec 4) (f : NetFrame) (bad : Nat) (s : State) (k : State → State) : Out :=
  unit (validStack f.src && validStack f.dst) <|
    if f.kind = kind && s.frameFirst f then
      let t : State := { s with frames := s.frames.erase f }
      if bad = 0 then (if f.flit.sys || decide (s.seqr.phase = .executing) then .next (k t) else .next t)
      else if f.tries = 0 then
        let held : State := { s with frames := s.frames.map fun g => if g = f then { f with tries := 1, held := true } else g }
        .next (answerFrame f 4 f.flit (devInc (.frameReplay f.src) 1 held))
      else .next (reportFault (engineSite s f) (devInc (.frameFail f.src) 1 t))
    else skip s

/-! ## Transfers -/

/-- Changes a slice transfer of a core, by its number. -/
def modXfer (c : Lcid) (id : Nat) (g : SliceXfer → SliceXfer) (s : State) : State :=
  let k := s.core c
  s.setCore c { k with xfers := k.xfers.map fun x => if x.order = id then g x else x }

/-- A slice transfer of a core, by its number. -/
def State.xferOf (s : State) (c : Lcid) (id : Nat) : Option SliceXfer := (s.core c).xfers.find? fun x => x.order == id

/-- Changes a network transfer of a core. -/
def modNet (c : Lcid) (id : Nat) (g : NetXfer → NetXfer) (s : State) : State :=
  let k := s.core c
  s.setCore c { k with outbound := k.outbound.map fun x => if x.id = id then g x else x }

/-- The site and place of byte `off` of a slice transfer of core `c`, as an address of its space (R115-R118, R134). -/
def State.sliceAt (s : State) (c : Lcid) (a off : Nat) : Nat × Nat :=
  let n := s.cfg.globalSteps
  match a / 2 ^ 40 % 4 with
  | 0 => (lcSite c, privLoc n (a % 2 ^ 28 + off))
  | 1 => globLoc n (a % 2 ^ 39 + off)
  | _ => (256 * lcStack c + a / 2 ^ 28 % 256, privLoc n (a % 2 ^ 28 + off))

/-- The controller of a slice has no power, is in reset, or its layers refresh themselves (R118, R326). -/
def State.sliceDead (s : State) (site : Nat) : Bool :=
  decide ((s.stackAt (site / 256)).status = 2) || s.quadGone (siteQuad site) || s.sliceReset.contains site || s.asleep

/-- A slice as a core reaches it: from another stack, isolation of either end closes the way too (R118, R135, R270). -/
def State.sliceUnreach (s : State) (c : Lcid) (site : Nat) : Bool :=
  s.sliceDead site
    || (lcStack c != site / 256 && (s.refusing (site / 256) || s.refusing (lcStack c)))

/-- Granule pieces of a range: offset and length, none crossing a 2 KiB boundary (R117). -/
def piecesFrom : Nat → Nat → Nat → Nat → List (Nat × Nat)
  | 0, _, _, _ => []
  | fuel + 1, a, off, n =>
    if n = 0 then []
    else
      let m := min n (2048 - a % 2048)
      (off, m) :: piecesFrom fuel (a + m) (off + m) (n - m)

/-- The pieces of `n` bytes at address `a`. -/
def pieces (a n : Nat) : List (Nat × Nat) := piecesFrom (n / 2048 + 2) a 0 n

/-- A flit is the first of its transfer, or of its piece of a slice transfer, and is led by a DESCRIPTOR (R257, R263). -/
def State.leads (s : State) (f : NetFlit) : Bool :=
  if f.kind = 1 ∨ f.kind = 2 then
    match s.xferOf (BitVec.ofNat 16 f.node.1) f.node.2 with
    | some x => (pieces x.addr.toNat x.len).any fun p => p.1 == f.offset.toNat
    | none => false
  else f.seq == 0

/-- The length of the transfer a DESCRIPTOR leads: of a network transfer, or of a piece of a slice transfer (R257). -/
def State.transferLen (s : State) (f : NetFlit) : Nat :=
  let c : Lcid := BitVec.ofNat 16 f.node.1
  match s.netOf c f.node.2 with
  | some x => 64 * x.flits.length
  | none =>
    match s.xferOf c f.node.2 with
    | some x => ((pieces x.addr.toNat x.len).find? fun p => p.1 == f.offset.toNat).elim 0 Prod.snd
    | none => 0

/-- A flit reaches the port it leaves its die by: the first flit of a transfer is led by a DESCRIPTOR, a read request is one,
a report goes as a COMPLETE (R257, R262, R263). -/
def leaveDie (f : NetFlit) (w : Way) (s : State) : State :=
  let n := s.transferLen f
  if f.kind = 0 then sendFrame f.stack w 0 n f s
  else if f.kind = 8 ∨ f.kind = 9 then sendFrame f.stack w 2 0 f s
  else
    let t := if s.leads f then sendFrame f.stack w 0 n { f with payload := [] } s else s
    sendFrame f.stack w 1 0 f t

/-- The request flits of one piece of a slice transfer that leaves its own slice: a READ_REQ, or WRITE flits (R117, R235,
R263). -/
def pieceFlits (s : State) (c : Lcid) (x : SliceXfer) (p : Nat × Nat) : List NetFlit :=
  let site := (s.sliceAt c x.addr.toNat p.1).1
  let here := site / 256 == lcStack c
  let base : NetFlit :=
    { flitFrom s c x.order 0 (if here then 1 else 2) with
      dest := BitVec.ofNat 8 (if here then site % 256 else s.portSite (lcStack c) 8)
      far := if here then none else some (globalWay (site / 256))
      core := BitVec.ofNat 16 site }
  if x.kind = .tstore then
    (List.range (p.2 / 64)).map fun i =>
      { base with kind := 2, seq := BitVec.ofNat 16 (p.1 / 64 + i), offset := BitVec.ofNat 32 (p.1 + 64 * i),
                  payload := slice x.data (p.1 + 64 * i) 64, poison := x.poisonLines.contains (p.1 / 64 + i),
                  last := decide (p.1 + 64 * i + 64 = x.len) }
  else [{ base with seq := BitVec.ofNat 16 (p.1 / 2048), offset := BitVec.ofNat 32 p.1, last := decide (p.1 + p.2 = x.len) }]

/-- Issues the pieces of a slice transfer while its bucket holds tokens (R131). -/
def issuePieces (c : Lcid) (x : SliceXfer) : List (Nat × Nat) → State → State × List (Nat × Nat)
  | [], s => (s, [])
  | p :: l, s =>
    let (t, go) := sliceTokens c (ceilDiv p.2 64) s
    if go then
      let private_ := decide (x.addr.toNat / 2 ^ 40 % 4 = 0)
      issuePieces c x l (if private_ then t else inject c (pieceFlits s c x p) t)
    else (t, p :: l)

/-- Takes the tokens of the pieces of a walk or an append, from the first that has none yet, while the bucket holds any (R131): how many
have theirs. -/
def payPieces (c : Lcid) : List Nat → Nat → State → Nat × State
  | [], p, s => (p, s)
  | n :: l, p, s =>
    let (t, go) := sliceTokens c n s
    if go then payPieces c l (p + 1) t else (p, t)

/-- The tokens of the granule pieces of a run (R117, R131). -/
def runTokens (a n : Nat) : List Nat := (pieces a n).map fun p => ceilDiv p.2 64

/-- Resumes the slice transfers of a core that wait for tokens, in order. -/
def resumeSlice (c : Lcid) (s : State) : State :=
  ((s.core c).xfers.filter fun x => !x.todo.isEmpty).foldl (fun t x =>
    let (u, left) := issuePieces c x x.todo t
    modXfer c x.order (fun y => { y with todo := left }) u) s

/-! ## Network transfers (R241, R242, R262) -/

/-- A network transfer with nothing taken. -/
def NetXfer.init (kind : BitVec 4) (group xfer : Nat) (stream : Option Nat) (dests : List Lcid)
    (flits : List (Nat × List Byte × Bool)) : NetXfer :=
  { id := 0, batch := 0, reads := [], kind := kind, group := group, xfer := xfer, stream := stream, dests := dests, flits := flits,
    got := [], reported := [], missing := [], unsent := [], status := .ok, done := false }

/-- A transfer of the core that NSYNC waits for and R241 bounds: every one but the returns of crumb programs, which slices send. -/
def NetXfer.sent (x : NetXfer) : Bool := !(x.kind == 7 && x.xfer % 4 == 2)

/-- The instructions whose outbound transfers have not all completed (R241). -/
def CoreCtx.netOut (k : CoreCtx) : List Nat := ((k.outbound.filter fun x => x.sent && !x.done).map fun x => x.batch).eraseDups

/-- A core may have 16 outbound transfers that have not completed; a 17th waits (R241). -/
def CoreCtx.netRoom (k : CoreCtx) : Bool := decide (k.netOut.length < 16)

/-- Destinations on the sender's own stack. -/
def NetXfer.near (x : NetXfer) (c : Lcid) : List Lcid := x.dests.filter fun m => lcStack m == lcStack c

/-- Destinations on other stacks. -/
def NetXfer.away (x : NetXfer) (c : Lcid) : List Lcid := x.dests.filter fun m => lcStack m != lcStack c

/-- Resumes the network transfers of a core that wait for stream tokens. -/
def resumeStream (c : Lcid) (s : State) : State :=
  ((s.core c).outbound.filter fun x => x.kind != 5).foldl (fun t x =>
    let (u, left) := sendStream c (x.near c).isEmpty x.unsent t
    modNet c x.id (fun y => { y with unsent := left }) u) s

/-- The flits of one copy of a transfer from core `c`, to one core or, over a stream, to all of its cores at the far end. -/
def copyFlits (s : State) (c : Lcid) (x : NetXfer) (vc : BitVec 2) (dest : Nat) (to_ : Lcid) (far : Option Way) : List NetFlit :=
  (List.range x.flits.length).map fun i =>
    let e := x.flits.getD i (0, [], false)
    { flitFrom s c x.id x.kind vc with
      seq := BitVec.ofNat 16 i, group := BitVec.ofNat 8 (if x.kind = 3 then x.xfer else if x.kind = 4 then x.group else 0),
      offset := BitVec.ofNat 32 e.1, payload := e.2.1, poison := e.2.2, last := decide (i + 1 = x.flits.length),
      dest := BitVec.ofNat 8 dest, far := far, core := to_ }

/-- The destinations of a transfer that lie on other stacks can be reached by its stream (R241, R260). -/
def streamReaches (s : State) (c : Lcid) (x : NetXfer) : Bool :=
  x.dests.all fun m => lcStack m == lcStack c ||
    (match x.stream with
     | none => false
     | some e => match (s.planOf c).bind fun p => p.farEnd (lcStack c) e with
       | some t => t.1 == lcStack m
       | none => false)

/-- The way of a transfer to other stacks, over its stream. -/
def State.wayOf (s : State) (c : Lcid) (x : NetXfer) : Option Way :=
  x.stream.bind fun e => ((s.planOf c).bind fun p => p.farEnd (lcStack c) e).map (wayOfEnd e)

/-- The core a copy over a stream is bound for: the one there, or 0xFFFF for the copies of a multicast. -/
def NetXfer.farCore (x : NetXfer) (c : Lcid) : Lcid := match x.away c with | [m] => m | _ => 0xFFFF

/-- Begins a network transfer: it takes the core's next number; each of its flits is injected once, with a copy for every
destination on the core's own stack, and one copy goes to the stack at the far end of its stream while stream tokens last (R131,
R241, R250). -/
def startNet (c : Lcid) (k : CoreCtx) (batch : Nat) (x : NetXfer) (s : State) : CoreCtx × State :=
  let x := { x with id := k.nextXfer, batch := batch }
  let s := s.setCore c { k with nextXfer := k.nextXfer + 1, outbound := k.outbound ++ [x] }
  let copy (t : State) (m : Lcid) : List NetFlit := copyFlits t c x 1 (t.siteOf m) m none
  let t := match x.near c with
    | [] => s
    | m :: l => l.foldl (fun t m => fly (copy t m) t) (inject c (copy s m) s)
  match t.wayOf c x, x.away c with
  | some w, _ :: _ =>
    let (u, left) := sendStream c (x.near c).isEmpty (copyFlits t c x 2 (t.portSite (lcStack c) w.out) (x.farCore c) (some w)) t
    let u := modNet c x.id (fun y => { y with unsent := left }) u
    (u.core c, u)
  | _, _ => (t.core c, t)

/-! ## Reports and refusals -/

/-- A control flit from the site where a flit arrived, back to the sender of its transfer (R230, R242, R262). -/
def answerFlit (s : State) (f : NetFlit) (kind : BitVec 4) (st : Status) : NetFlit :=
  let c : Lcid := BitVec.ofNat 16 f.node.1
  let home := lcStack c
  let way := wayBack (f.far.getD (globalWay f.stack)) home
  { f with
    src := f.dest, orig := BitVec.ofNat 5 f.stack, kind := kind, vc := 0, status := BitVec.ofNat 8 st.code, payload := [],
    poison := false, last := true, group := 0, offset := 0, core := c,
    dest := BitVec.ofNat 8 (if f.ofFold then f.src.toNat else if home = f.stack then s.siteOf c else s.portSite f.stack way.out)
    far := if f.ofFold ∨ home = f.stack then none else some way }

/-- Puts a control flit in flight. -/
def sendCtl (f : NetFlit) (s : State) : State := fly [f] s

/-- What a router remembers of a transfer it has refused: its stack and site, and the transfer, or the fold and its group. -/
def refusalOf (f : NetFlit) : Nat × Nat × Nat × Nat × Nat :=
  if f.ofFold then (f.stack, f.dest.toNat, 0x10000 + f.group.toNat, f.node.1, 0) else (f.stack, f.dest.toNat, 0, f.node.1, f.node.2)

/-- A flit addressed into a quadrant in reset or gated is absorbed by its site's router: one NACK with UNAVAIL per transfer,
counted (R248). -/
def absorb (f : NetFlit) (s : State) : State :=
  if s.absorbed.contains (refusalOf f) then s
  else
    let t := devInc (.nackUnavail f.stack) 1 (sendCtl { answerFlit s f 8 .unavail with seq := 0 } s)
    { t with absorbed := refusalOf f :: t.absorbed }

/-- The site a flit arrived at lies in a quadrant that takes no flits. -/
def State.siteDown (s : State) (f : NetFlit) : Bool := s.quadGone (siteQuad (256 * f.stack + f.dest.toNat))

/-- The number of a transfer's destination that a report or refusal comes from. -/
def destNo (s : State) (x : NetXfer) (f : NetFlit) : Option Nat :=
  if x.kind = 7 then some 0 else x.dests.findIdx? fun c => lcStack c == f.orig.toNat && s.siteOf c == f.src.toNat

/-- A destination has taken flit `seq` of a transfer; when it has taken every flit, it reports (R241). -/
def tookFlit (f : NetFlit) (s : State) : State :=
  let c : Lcid := BitVec.ofNat 16 f.node.1
  match s.netOf c f.node.2 with
  | none => s
  | some x =>
    match destNo s x { f with src := f.dest, orig := BitVec.ofNat 5 f.stack } with
    | none => s
    | some d =>
      if x.got.contains (d, f.seq.toNat) then s
      else
        let x' := { x with got := (d, f.seq.toNat) :: x.got }
        let t := modNet c x.id (fun _ => x') s
        if (x'.got.filter fun g => g.1 == d).length = x.flits.length then sendCtl (answerFlit s f 9 .ok) t else t

/-- The report of a destination reaches the sender (R241). -/
def reportDone (f : NetFlit) (s : State) : State :=
  let c : Lcid := BitVec.ofNat 16 f.node.1
  match s.netOf c f.node.2 with
  | none => s
  | some x =>
    match destNo s x f with
    | none => s
    | some d => modNet c x.id (fun y => { y with reported := d :: y.reported.filter (fun e => e != d),
                                                  status := Status.first y.status (Status.ofCode f.status.toNat) }) s

/-- A destination is left out of a transfer with a status: a refusal or an isolated stack (R242, R270). -/
def leaveDest (c : Lcid) (id d : Nat) (st : Status) (s : State) : State :=
  modNet c id (fun y => { y with missing := d :: y.missing.filter (fun e => e != d), status := Status.first y.status st }) s

/-- A flit of a transfer sent again to one destination as a unicast PUT (R242). -/
def resendFlit (s : State) (c : Lcid) (x : NetXfer) (d seq : Nat) : Option NetFlit :=
  match x.dests[d]?, x.flits[seq]? with
  | some m, some (off, bytes, poison) =>
    let way := if lcStack m = lcStack c then none else s.wayOf c x
    some { flitFrom s c x.id 3 (if way.isNone then 1 else 2) with
      seq := BitVec.ofNat 16 seq, group := BitVec.ofNat 8 x.xfer, offset := BitVec.ofNat 32 off, payload := bytes,
      poison := poison, last := decide (seq + 1 = x.flits.length),
      dest := BitVec.ofNat 8 (match way with | none => s.siteOf m | some w => s.portSite (lcStack c) w.out)
      far := way, core := m }
  | _, _ => none

/-- Sends one flit of a core: on its own stack at once, on a stream while tokens last, after what already waits there (R131, R242). -/
def sendOne (c : Lcid) (id : Nat) (f : NetFlit) (s : State) : State :=
  if f.far.isNone then inject c [f] s
  else
    let waits := match s.netOf c id with | some x => x.unsent | none => []
    let (u, left) := if waits.isEmpty then sendStream c true [f] s else (s, [f])
    modNet c id (fun y => { y with unsent := y.unsent ++ left }) u

/-- A NACK reaches the sender: BUSY is sent again, UNAVAIL is not retried; for a slice transfer it ends the wait (R118,
R242, R248). -/
def refused (f : NetFlit) (s : State) : State :=
  let c : Lcid := BitVec.ofNat 16 f.node.1
  let k := s.core c
  let t := s.setCore c { k with netCounts := Tab.set k.netCounts 2 (Tab.getD k.netCounts 2 0 + 1) }
  match t.netOf c f.node.2 with
  | none => modXfer c f.node.2 (fun x => { x with away := 0 }) t
  | some x =>
    match destNo s x f with
    | none => t
    | some d =>
      if f.status.toNat = Status.code .busy && !x.done then
        match resendFlit s c x d f.seq.toNat with
        | none => t
        | some g =>
          let k := t.core c
          let t := t.setCore c { k with netCounts := Tab.set k.netCounts 3 (Tab.getD k.netCounts 3 0 + 1) }
          inc (.mcastRetry (lcStack c)) 1 (sendOne c x.id g t)
      else leaveDest c x.id d .unavail t

/-! ## Windows (R239) -/

/-- A line of a window landed, and whether poisoned. -/
def WinState.lines (w : WinState) : Nat := w.len / 64

/-- Changes a window of a core. -/
def CoreCtx.modWin (k : CoreCtx) (x : Nat) (g : WinState → WinState) : CoreCtx :=
  { k with windows := k.windows.map fun w => if w.xfer = x then g w else w }

/-- The window of a number. -/
def CoreCtx.win (k : CoreCtx) (x : Nat) : Option WinState := k.windows.find? fun w => w.xfer == x

/-- A flit lands in a window of core `c`; `place` says which bench bytes it writes. A duplicate is dropped; a line landed
otherwise twice is a conflict until the NWAIT that retires the window; a line filled when the window completed early takes no
more; and a flit with no window faults its sender later (R239). -/
def landIn (c : Lcid) (f : NetFlit) (place : CoreCtx → WinState → List (Nat × Byte × Bool)) (s : State) : State :=
  let k := s.core c
  let lost : State :=
    let o : Lcid := BitVec.ofNat 16 f.node.1
    s.setCore o { s.core o with netFault := true }
  match k.win f.group.toNat with
  | none => lost
  | some w =>
    if w.len < f.offset.toNat + 64 then lost
    else if w.retired then s
    else
      let line := f.offset.toNat / 64
      let key := (line, f.orig.toNat, f.src.toNat, f.seq.toNat)
      if w.landed.any (fun l => (l.1, l.2.1, l.2.2.1, l.2.2.2.1) == key) then s
      else if w.landed.any (fun l => l.1 == line) then s.setCore c (k.modWin w.xfer fun w => { w with conflict := true })
      else if w.complete then s
      else
        let k := (k.put (place k w)).modWin w.xfer fun w =>
          { w with landed := w.landed ++ [(line, f.orig.toNat, f.src.toNat, f.seq.toNat, f.poison)] }
        s.setCore c { k with netCounts := Tab.set k.netCounts 1 (Tab.getD k.netCounts 1 0 + 1) }

/-- Plain landing: the payload line at BASE + OFFSET. -/
def plainPlace (f : NetFlit) (_ : CoreCtx) (w : WinState) : List (Nat × Byte × Bool) :=
  runOf (w.base + f.offset.toNat) (slice f.payload 0 64) f.poison

/-- Fills the lines a window lacks with poisoned zeros (R242, R248). -/
def fillMissing (k : CoreCtx) (w : WinState) : CoreCtx :=
  let lacks := (List.range w.lines).filter fun l => !w.landed.any (fun e => e.1 == l)
  if w.fold then k
  else lacks.foldl (fun k l => k.put (runOf (w.base + 64 * l) (List.replicate 64 0) true)) k

/-- The 32-byte bitmap of a list of numbers (R242, R248). -/
def bitmap32 (l : List Nat) : List Byte :=
  leBytes 32 ((l.filter fun i => decide (i < 256)).eraseDups.foldl (fun n i => n + 2 ^ i) 0)

end Sys2Proof.Machine
end

