-- ==== Sys2Proof/Machine/Floor.lean ====
section
/-! DEFINITION. The floor-plan record: counts, row words, distances and its digest (R21-R25, R360). -/

namespace Sys2Proof.Machine

open Sys2Proof

/-- A row of the published floor plan. -/
def State.pubRow (s : State) (n : Nat) : FpRow := Tab.getD s.rows n FpRow.init

/-- Present logical cores of a row. -/
def FpRow.good (r : FpRow) : Nat := ((List.range 15).filter fun c => (r.physCol c).isSome).length

/-- Sums a number over the rows of some stacks. -/
def sumRows (s : State) (ks : List Nat) (f : FpRow → Nat) : Nat :=
  ks.foldl (fun n k => (List.range 16).foldl (fun n r => n + f (s.pubRow (16 * k + r))) n) 0

/-- GOOD: 0 before the floor plan is published (R22). -/
def State.good (s : State) : Nat := if s.fpLive then sumRows s (List.range 20) FpRow.good else 0

/-- FIELD_FAILED: sites marked field-failed. -/
def State.fieldFailed (s : State) : Nat := sumRows s (List.range 20) fun r => ((List.range 16).filter fun p => r.site p == 2).length

/-- The minimum of each grade (R1). -/
def gradeMin (g : Nat) : Nat := match g with | 0 => 4704 | 1 => 4512 | _ => 4224

/-- BELOW_GRADE. -/
def State.belowGrade (s : State) : Bool := s.fpLive && decide (s.good < gradeMin s.fuses.grade)

/-- Sites bad for this boot only: found bad by their test, marked field-failed in the floor plan, and not in the fault map
(R22, R356, R357). -/
def State.bootOnly (s : State) : List Nat :=
  s.boot.bad.filter fun n => (s.pubRow (n / 16)).site (n % 16) == 2 && !s.faultMap.failed.contains n

/-- FLAGS of the floor-plan header. -/
def State.fpFlagBits (s : State) : Nat := bitsNat [s.belowGrade, decide (s.drain ≠ 0), !s.bootOnly.isEmpty]
where
  /-- Bits of a list, the first at bit 0. -/
  bitsNat (l : List Bool) : Nat := l.foldr (fun b n => 2 * n + if b then 1 else 0) 0

/-- Bit map of the rows of a stack that meet a test. -/
def rowMap (s : State) (k : Nat) (f : FpRow → Bool) : Nat :=
  (List.range 16).foldl (fun n r => n + if f (s.pubRow (16 * k + r)) then 2 ^ r else 0) 0

/-- The distance entry of a logical core (R25), from its column and row. -/
def distEntry (r : FpRow) (row col : Nat) : Nat :=
  match r.physCol col with
  | none => 0xFFFFFF08
  | some p =>
    let n := 16 * row + p
    hops n 0x07 * 2 ^ 24 + hops n 0x8F * 2 ^ 16 + hops n 0x70 * 256 + p * 16 + 2 * (row / 8) + p / 8

/-- A stack block (R23-R25). -/
def stackBlock (s : State) (k : Nat) : List Byte :=
  leBytes 1 (s.stackAt k).status ++ [0]
    ++ leBytes 2 (if s.fpLive then sumRows s [k] FpRow.good else 0)
    ++ leBytes 2 (rowMap s k fun r => r.shifted) ++ leBytes 2 (rowMap s k fun r => r.spareless) ++ List.replicate 8 0
    ++ ((List.range 16).flatMap fun r => leBytes 8 (s.pubRow (16 * k + r)).word.toNat)
    ++ (List.range 240).flatMap fun i =>
      leBytes 4 (if s.fpLive then distEntry (s.pubRow (16 * k + i / 15)) (i / 15) (i % 15) else 0xFFFFFF08)

/-- The header up to DIGEST (R22). -/
def fpHead (s : State) : List Byte :=
  leBytes 2 1 ++ leBytes 2 s.fuses.stepping.toNat ++ leBytes 4 s.fpGen.toNat ++ leBytes 8 s.fpTick ++ leBytes 2 s.good
    ++ leBytes 2 s.fuses.factoryGood ++ leBytes 2 s.fuses.holes.length ++ leBytes 2 s.fieldFailed ++ leBytes 1 s.fuses.grade
    ++ leBytes 1 s.fpFlags.toNat ++ leBytes 2 (sumRows s (List.range 20) fun r => if r.shifted then 1 else 0)
    ++ leBytes 2 (sumRows s (List.range 20) fun r => if r.spareless then 1 else 0) ++ [0, 0]

/-- DIGEST: zero before the floor plan is published. -/
def fpDigest (s : State) : List Byte :=
  if s.fpLive then shake256 (fpHead s ++ (List.range 20).flatMap (stackBlock s)) else List.replicate 32 0

/-- The floor-plan record. -/
def fpRecord (s : State) : List Byte := fpHead s ++ fpDigest s ++ (List.range 20).flatMap (stackBlock s)

/-- Publishes the floor plan as worked on (R21). -/
def publishFloor (tick : Nat) (s : State) : State :=
  let t : State := { s with rows := s.newRows, fpGen := s.fpGen + 1, fpTick := tick, fpLive := true }
  { t with fpFlags := BitVec.ofNat 8 t.fpFlagBits }

end Sys2Proof.Machine
end

