-- ==== Sys2Proof/Machine/Caps.lean ====
section
/-! DEFINITION. The capability list (R371, R372, R430) and what security state it shows (R408, R412, R416). -/

namespace Sys2Proof.Machine

open Sys2Proof

/-! ## Lifecycle and debug level -/

/-- Codes of the lifecycle states (R412). -/
def Life.code : Life → Nat
  | .blank => 0 | .provisioned => 1 | .deployed => 2 | .returned => 3

/-- The default debug level of a lifecycle state. -/
def Life.level : Life → Nat
  | .deployed => 0 | _ => 1

/-- VENDOR_OK of the deploy record. -/
def Mram.vendorOk (m : Mram) : Bool := match m.deploy with | some r => decide (field r 2 2 % 2 = 1) | none => false

/-- AUTHORITY_SCHEME of the deploy record, 0 for none. -/
def Mram.authority (m : Mram) : Nat := match m.deploy with | some r => field r 0 2 | none => 0

/-- Levels reachable in the lifecycle state (R412). -/
def Mram.levels (m : Mram) : List Nat :=
  match m.life with
  | .blank => [1, 2]
  | .provisioned => [1, 2]
  | .deployed => if m.vendorOk ∨ m.authority ≠ 0 then [0, 1, 2] else [0]
  | .returned => [1, 2, 3]

/-- SHAKE256 of the identity public key; zero before it is made. -/
def Mram.idDigest (m : Mram) : List Byte := match m.identity with | some k => shake256 k | none => List.replicate 32 0

/-- AUTHORITY_DIGEST (R415). -/
def Mram.authorityDigest (m : Mram) : List Byte := match m.deploy with | some r => shake256 r | none => List.replicate 32 0

/-- Open sessions holding DEBUG. -/
def State.debugSessions (s : State) : Nat := (s.sessions.filter fun e => e.2.dbgLevel.isSome).length

/-! ## Entries -/

/-- An entry: header, body and padding to 8 bytes. -/
def capEntry (id : Nat) (body : List Byte) : List Byte :=
  let n := roundUp body.length 8
  leBytes 2 id ++ [1, 0] ++ leBytes 4 (8 + n) ++ body ++ List.replicate (n - body.length) 0

/-- Mailboxes of a function: MB0 and those not assigned are the PF's (R373, R383). -/
def State.mbFn (s : State) (n : Nat) : Nat := (s.mbAt n).fn

/-- Entry 0x0003 of a function. -/
def capMailbox (s : State) (fn : Nat) : List Byte :=
  let mine := (List.range 256).filter fun n => s.mbFn n == fn
  capEntry 3 (leBytes 1 fn ++ [0] ++ leBytes 2 mine.length
    ++ leBytes 32 (mine.foldl (fun n i => n + 2 ^ i) 0)
    ++ leBytes 2 4096 ++ leBytes 2 (s.sessions.filter fun e => !e.2.pendingOpen).length ++ leBytes 2 4000
    ++ leBytes 2 (vectors fn) ++ leBytes 4 (s.ceiling fn).toNat)

/-- Bits of the ports up. -/
def State.portsUp (s : State) : Nat := (List.range 6).foldl (fun n p => n + if (s.portAt p).up then 2 ^ p else 0) 0

/-- Entry 0x0001. -/
def capIdentity (s : State) : List Byte :=
  capEntry 1 (leBytes 1 s.fuses.grade ++ [0] ++ leBytes 2 s.fuses.stepping.toNat ++ leBytes 8 s.fuses.serial.toNat
    ++ s.hearth.measurement ++ leBytes 1 s.mram.life.code ++ [0, 0, 0])

/-- Entry 0x0002. -/
def capFloor (s : State) : List Byte :=
  capEntry 2 (leBytes 4 Config.floorPlanOffset ++ leBytes 4 22144 ++ leBytes 2 s.good ++ leBytes 1 s.fuses.grade
    ++ leBytes 1 s.fpFlags.toNat)

/-- Entries 0x0004 to 0x0013. -/
def capRest (s : State) : List Byte :=
  capEntry 4 (leBytes 4 20000 ++ leBytes 4 10000000 ++ leBytes 4 40 ++ leBytes 2 128 ++ leBytes 2 64)
    ++ capEntry 5 (leBytes 2 0x3FF ++ leBytes 2 0x1FF) ++ capEntry 6 (leBytes 4 7)
    ++ capEntry 7 (leBytes 2 256 ++ leBytes 1 16 ++ leBytes 1 4)
    ++ capEntry 8 (leBytes 1 1 ++ leBytes 1 8 ++ leBytes 2 0x1FC ++ leBytes 2 64 ++ [0, 0])
    ++ capEntry 9 (leBytes 1 7 ++ leBytes 1 4 ++ leBytes 1 12 ++ leBytes 1 255 ++ leBytes 4 131072 ++ leBytes 4 1048576)
    ++ capEntry 10 (leBytes 2 16 ++ leBytes 2 64 ++ leBytes 4 4096) ++ capEntry 11 (leBytes 2 0x1F ++ leBytes 2 240)
    ++ capEntry 12 (leBytes 1 8 ++ leBytes 1 32 ++ leBytes 1 4 ++ leBytes 1 16)
    ++ capEntry 13 (leBytes 1 6 ++ leBytes 1 s.portsUp ++ leBytes 2 s.cfg.devAddr.toNat ++ leBytes 1 s.cfg.dims.toNat ++ [0, 0, 0])
    ++ capEntry 14 (leBytes 2 1840 ++ leBytes 2 1648) ++ capEntry 15 (leBytes 2 600 ++ leBytes 2 180 ++ leBytes 2 124 ++ [0, 0])
    ++ capEntry 16 (leBytes 2 s.drain.toNat ++ [0, 0] ++ leBytes 4 4096)
    ++ capEntry 17 (leBytes 1 s.mram.life.code ++ leBytes 1 (if s.signingStopped then 1 else 0) ++ leBytes 2 1
      ++ leBytes 8 s.mram.nextIndex ++ leBytes 4 s.mram.svnFloor ++ leBytes 4 s.hearth.svn ++ s.mram.idDigest ++ s.mram.authorityDigest)
    ++ capEntry 18 (leBytes 1 s.debugLevel ++ leBytes 1 s.mram.life.level
      ++ leBytes 1 (s.mram.levels.foldl (fun n l => n + 2 ^ l) 0)
      ++ leBytes 1 ((if s.tapOpen then 1 else 0) + (if s.mram.vendorOk then 2 else 0)) ++ leBytes 2 s.debugSessions ++ [0, 0])
    ++ capEntry 19 (leBytes 4 Config.expertBlocks.length
      ++ Config.expertBlocks.flatMap fun b => leBytes 2 b.1 ++ [0, 0] ++ leBytes 4 b.2)

/-- Entries the list holds (R351): 0x0001 and 0x0003 from the end of P1, 0x0002 from P6, the rest from P8. -/
def capEntries (s : State) (fn : Nat) : Nat × List Byte :=
  let n := if s.boot.readyIndex.isSome then 9 else s.boot.stage
  if n < 2 then (0, [])
  else if n < 7 then (2, capIdentity s ++ capMailbox s fn)
  else if n < 9 then (3, capIdentity s ++ capFloor s ++ capMailbox s fn)
  else (19, capIdentity s ++ capFloor s ++ capMailbox s fn ++ capRest s)

/-- The capability list of a function (R371). -/
def capList (s : State) (fn : Nat) : List Byte :=
  let e := capEntries s fn
  leBytes 2 1 ++ leBytes 2 e.1 ++ leBytes 4 (16 + e.2.length) ++ leBytes 4 s.host.capGen.toNat ++ [0, 0, 0, 0] ++ e.2

/-- Every function's entries together. -/
def capAll (s : State) : List Byte := (capEntries s 0).2 ++ (List.range 63).flatMap fun i => capMailbox s (i + 1)

/-- The entries as the first P9 leaves them: later commits find what changes from there (R371; log 99). -/
def capStart (s : State) : State := { s with host := { s.host with capSeen := capAll s } }

/-- A commit that finds an entry changed increments GENERATION (R371). -/
def capCommit (s : State) : State :=
  let e := capAll s
  if e = s.host.capSeen then s else { s with host := { s.host with capSeen := e, capGen := s.host.capGen + 1 } }

end Sys2Proof.Machine
end

