-- ==== Sys2Proof/Machine/DevMem.lean ====
section
/-! DEFINITION. Device memory by its addresses (R119), and the errors that reads of DRAM words meet (R280, R281, R309). -/

namespace Sys2Proof.Machine

open Sys2Proof

/-- Where the device memory addresses of private shares begin. -/
def devPrivate : Nat := 0x0100_0000_0000

/-- Where those of the reserves begin. -/
def devReserve : Nat := 0x0400_0000_0000

/-- The device memory address of a place in a slice (R26, R115, R119, R134). -/
def devAddr (n site loc : Nat) : Nat :=
  let stack := site / 256
  let row := site / 16 % 16
  let col := site % 16
  let bank := loc / 0x400000
  let ord := 15 * row + col
  if col = 15 then devReserve + stack * 2 ^ 32 + row * 0x0C000000 + loc
  else if (globalBanks n).contains bank then
    let h := loc % 0x400000 / 2048 * (4 * n) + (globalBanks n).findIdx (fun b => b == bank)
    let byte := h * 2048 + loc % 2048
    (byte / 4096 * 4800 + ord * 20 + stack) * 4096 + byte % 4096
  else devPrivate + (240 * stack + ord) * 2 ^ 28 + bankToPriv n bank (loc % 0x400000)

/-- The spaces of the device memory map. -/
inductive DevSpace where
  | global | priv | reserve
deriving DecidableEq, Repr

/-- The space, site and place a device memory address names; none outside the map (R119). -/
def State.devLoc (s : State) (a : Nat) : Option (DevSpace × Nat × Nat) :=
  let n := s.cfg.globalSteps
  if a < globalSize n then (let p := globLoc n a; some (.global, p.1, p.2))
  else if devPrivate ≤ a ∧ a < devPrivate + 4800 * 2 ^ 28 ∧ (a - devPrivate) % 2 ^ 28 < privateSize n then
    some (.priv, (ordLc ((a - devPrivate) / 2 ^ 28)).toNat, privLoc n ((a - devPrivate) % 2 ^ 28))
  else if devReserve ≤ a ∧ a < devReserve + 20 * 2 ^ 32 ∧ (a - devReserve) % 2 ^ 32 < 0xC0000000 then
    (let p := reserveLoc ((a - devReserve) / 2 ^ 32) ((a - devReserve) % 2 ^ 32); some (.reserve, p.1, p.2))
  else none

/-- Distinct lines that core and crumb stores have staged in a bank stage. -/
def stageLines (s : State) (site bank : Nat) : List Nat :=
  ((s.work.staged.filter fun w => w.site == site && w.line / 0x400000 == bank).map fun w => w.line).eraseDups

/-- A MEM_WRITE's portion of the tick: its place among the changes, its mailbox, what is left to write, and the lines it takes, by
site and place. -/
structure Portion where
  order : Nat
  mb : Nat
  addr : Nat
  bytes : List Byte
  lines : List (Nat × Nat)
deriving DecidableEq, Repr

/-- Bytes a portion takes. -/
def Portion.size (p : Portion) : Nat := 64 * p.lines.length

/-- The lines from the address on that one portion takes: up to 16 lines of each bank stage, those that portions before it in the tick
took counted, and none past the 192nd of a stage (R128, R391; log 106). -/
def portionLines (s : State) (taken : List (Nat × Nat)) (addr n : Nat) : List (Nat × Nat) :=
  ((List.range (n / 64)).foldl
    (fun (a : List (Nat × Nat) × Bool) i =>
      match a.2, s.devLoc (addr + 64 * i) with
      | false, some (_, site, loc) =>
        let all := taken ++ a.1
        let here := (all.filter fun x => x.1 == site && x.2 / 0x400000 == loc / 0x400000).eraseDups
        let own := stageLines s site (loc / 0x400000)
        if all.contains (site, loc) || (decide (here.length < 16) && (own.contains loc || decide ((here.map Prod.snd ++ own).eraseDups.length < 192)))
        then (a.1 ++ [(site, loc)], false) else (a.1, true)
      | _, _ => (a.1, true)) ([], false)).1

/-- The portions of the tick, in the order of their changes (R129, R391). -/
def State.portions (s : State) (l : List Change) : List Portion :=
  ((List.range l.length).zip l).foldl
    (fun a p =>
      match p.2 with
      | .memWrite mb addr bytes => a ++ [⟨p.1, mb, addr, bytes, portionLines s (a.flatMap fun x => x.lines) addr bytes.length⟩]
      | _ => a) []

/-- The changes that the tick's commit makes: of its own commands, then of the command records it replays (R226). -/
def State.tickChanges (s : State) : List Change :=
  s.changes ++ match s.replay with | some r => if r.running.isSome then s.replayChanges else [] | none => []

/-- Lines of a bank stage that the portions of this tick take. -/
def State.mailLines (s : State) (site bank : Nat) : List Nat :=
  ((s.portions s.tickChanges).flatMap fun p => p.lines.filter fun x => x.1 == site && x.2 / 0x400000 == bank).map Prod.snd

/-- A portion of a MEM_WRITE of this tick stores to a line (R128, R391). -/
def State.mailLine (s : State) (site loc : Nat) : Bool := (s.portions s.tickChanges).any fun p => p.lines.contains (site, loc / 64 * 64)

/-- A line has writes of the tick staged (R85, R128), other than append lines where these do not count (R202). -/
def State.stagedLine (s : State) (site loc : Nat) (appends : Bool) : Bool :=
  (s.work.staged.any fun w => w.site == site && w.line == loc / 64 * 64 && (appends || !w.append)) || s.mailLine site loc

/-- Bytes of a page of a layout (R171). -/
def pageBytes (l : Layout) (pageLog2 : Nat) : Nat :=
  2 ^ pageLog2 * (l.heads * (2 * (l.headDim * (if l.fmt = 1 then 2 else 1)) + (if l.fmt = 1 then 0 else l.headDim / 16)))

/-- The KV frame that holds a device memory address (R292). -/
def State.frameAt (s : State) (a : Nat) : Option Nat :=
  if a < devPrivate ∨ devReserve ≤ a then none
  else
    let site := (ordLc ((a - devPrivate) / 2 ^ 28)).toNat
    let o := (a - devPrivate) % 2 ^ 28
    (s.descs.find? fun e =>
      e.2.st != .unused && e.2.lcid.toNat == site && decide (e.2.off ≤ o) &&
        (match Tab.get s.layouts e.2.layout with
         | some l => decide (o < e.2.off + roundUp (pageBytes l e.2.pageLog2) 2048)
         | none => false)).map Prod.fst

/-- The slice bank of a place, and DETAIL of a record about its row: the row, or for a spare row its number in [14:12]. -/
def rowDetail (loc : Nat) : Nat × Nat :=
  if loc < 0x0C000000 then (loc / 0x400000, loc % 0x400000 / 2048)
  else ((loc - 0x0C000000) / 2048 / 8, (loc - 0x0C000000) / 2048 % 8 * 4096)

/-- A field-fault record about a DRAM row (R310); a spare row has no device memory address. -/
def dramRec (s : State) (kind cls site loc : Nat) : FaultRec :=
  let d := rowDetail loc
  let r := { faultRec kind cls (site / 256) (site % 256) 4 d.1 with detail := d.2 }
  if loc < 0x0C000000 then
    let a := devAddr s.cfg.globalSteps site (loc / 2048 * 2048)
    { r with addr := a, pfn := s.frameAt a }
  else r

/-- The granule of a place is retired: its errors are counted and neither logged nor posted (R293). -/
def State.granuleRetired (s : State) (site loc : Nat) : Bool :=
  decide (loc < 0x0C000000) && s.faultMap.granules.contains (devAddr s.cfg.globalSteps site (loc / 2048 * 2048))

/-- Retired granules of a stack's reserve, by reserve offset (R294). -/
def State.retiredReserve (s : State) (stack : Nat) : List Nat :=
  (s.faultMap.granules.filter fun a => decide (devReserve + stack * 2 ^ 32 ≤ a) && decide (a < devReserve + (stack + 1) * 2 ^ 32)).map
    fun a => a - (devReserve + stack * 2 ^ 32)

/-- Bytes of rows `lo` to `hi` of a stack's reserve that lie in retired granules, which the rings and logs there skip (R294). -/
def State.retiredBytes (s : State) (stack lo hi : Nat) : Nat :=
  2048 * ((s.retiredReserve stack).filter fun v => decide (lo ≤ v / 0x0C000000) && decide (v / 0x0C000000 ≤ hi)).length

/-! ## The running image (R26, R294) -/

/-- Where in row 2 of its reserve a stack holds the running image. -/
def State.imageOff (s : State) (stack : Nat) : Nat := Tab.getD s.hearth.imageAt stack 0

/-- Bytes of the image a stack holds, by its header (R410). -/
def State.imageLen (s : State) (stack : Nat) : Nat :=
  leNat ((List.range 4).map fun i => s.byteAt (256 * stack + 47) (s.imageOff stack + 16 + i)) + 2820

/-- The lowest granule of row 2 of a stack's reserve from which `len` bytes meet none of the granules at `bad` (log 48). -/
def imageArea (bad : List Nat) (len : Nat) : Nat :=
  let l := (0 :: bad.map fun b => b + 2048).filter fun a => bad.all fun b => !(decide (a < b + 2048) && decide (b < a + len))
  match l with | [] => 0 | a :: m => m.foldl min a

/-- Offsets in row 2 of a stack's reserve of its retired granules. -/
def State.badImage (s : State) (stack : Nat) : List Nat :=
  ((s.retiredReserve stack).filter fun v => v / 0x0C000000 == 2).map fun v => v % 0x0C000000

/-! ## Errors met -/

/-- A correctable error of the row has been logged in this scrub pass (R309). -/
def State.loggedInPass (s : State) (site loc : Nat) : Bool :=
  (s.staging ++ s.mram.log).any fun r =>
    r.kind == 1 && r.stack == site / 256 && r.site == site % 256 && (r.unitIx, r.detail) == rowDetail loc && r.addr == (dramRec s 1 0 site loc).addr && decide (s.scrubPassTick ≤ r.tick) && r.boot == s.mram.bootCount % 2 ^ 32

/-- The state of the 64-bit word at a place. -/
def State.wordAt (s : State) (site loc : Nat) : WordSt := s.wordSt (s.phys site (loc / 8 * 8) / 8)

/-- A line is poisoned: at least 5 of its words carry the poison encoding (R281). -/
def State.linePoisoned (s : State) (site loc : Nat) : Bool :=
  decide (5 ≤ ((List.range 8).filter fun i => decide (s.wordAt site (loc / 64 * 64 + 8 * i) = .poison)).length)

/-- A word as a read of its line meets it: the poison encoding in fewer than 5 words of a line is an uncorrectable error of those
words (R281). -/
def State.metAt (s : State) (site loc : Nat) : WordSt :=
  match s.wordAt site loc with
  | .poison => if s.linePoisoned site loc then .poison else .uncorrectable
  | x => x

/-- FLAGS of a record about a word: INJECTED where an injection made it wrong (R312). -/
def State.injFlag (s : State) (site loc : Nat) : Nat := if s.injWords.contains (s.phys site (loc / 8 * 8) / 8) then 1 else 0

/-- The layer code corrects one bit of a 128-bit word: with both of its 64-bit words wrong it passes them on, and the slice
code corrects each (R280, DEDUCED, log 38). -/
def State.layerCorrects (s : State) (site loc : Nat) : Bool :=
  match s.wordAt site (loc / 16 * 16 + (8 - loc / 8 * 8 % 16)) with | .clean => true | .poison => true | _ => false

/-- The counter of a word corrected at a place. -/
def State.corrCtr (s : State) (site loc : Nat) : Ctr := if s.layerCorrects site loc then .corrLayer (site / 256) else .corrSlice (site / 256)

/-- A corrected word: counted, and logged once per row per pass (R309). -/
def noteCorrected (tick : Bool) (site loc : Nat) (s : State) : State :=
  let t := countFor tick (s.corrCtr site loc) 1 s
  if s.granuleRetired site loc || s.loggedInPass site loc then t
  else logFault { dramRec s 1 0 site loc with flags := s.injFlag site loc } t

/-- A word that cannot be corrected: counted and logged. -/
def noteUncorrectable (tick : Bool) (site loc : Nat) (s : State) : State :=
  let t := countFor tick (.uncorr (site / 256)) 1 s
  if s.granuleRetired site loc then t else logFault { dramRec s 2 0 site loc with flags := s.injFlag site loc } t

/-- Notes the errors a read of one 64-byte line meets, by a tick's own work (`tick`) or by another reader (R280, R309). -/
def noteLine (tick : Bool) (site loc : Nat) (s : State) : State :=
  (List.range 8).foldl
    (fun t i =>
      match s.metAt site (loc / 64 * 64 + 8 * i) with
      | .corrupt => noteCorrected tick site loc t
      | .uncorrectable => noteUncorrectable tick site loc t
      | _ => t) s

end Sys2Proof.Machine
end

