-- ==== Sys2Proof/Machine/TileMove.lean ====
section
/-! DEFINITION. Tile-move instructions (R84, R85, R137), the tick class (R60) and the completion of slice transfers (R117). -/

namespace Sys2Proof.Machine

open Sys2Proof

/-! ## Descriptors and tiles -/

/-- DSET: dd = 16 bytes at bench sa + sext(IMM), a multiple of 16; a poisoned line stops the core (R84, R92). -/
def bodyDset (o : Op) (k : CoreCtx) : Tr CoreCtx := do
    let a := ((← k.addr o.a) + simm o).toNat
    need (decide (a % 16 = 0)) 5
    let l ← k.rd a 16
    need (!k.dirty a 16) 0xC
    return { k with d := Tab.set k.d o.dst.toNat (BitVec.ofNat 128 (leNat l)) }

/-- DSET. -/
def execDset (c : Lcid) (o : Op) (s : State) : Out :=
  issueK c 0x20 ⟨.d, .s, .no, 0, 0xFFFFFFFF, false⟩ o s (bodyDset o)

/-- Replaces `w` bits at bit `lo` of a descriptor, keeping the low bits of the value. -/
def setField (d : BitVec 128) (lo w : Nat) (v : W64) : BitVec 128 :=
  let mask : BitVec 128 := (BitVec.ofNat 128 (2 ^ w - 1)) <<< lo
  (d &&& ~~~mask) ||| ((BitVec.ofNat 128 (v.toNat % 2 ^ w)) <<< lo)

/-- Sets a field, or adds to it. -/
def modField (d : BitVec 128) (lo w : Nat) (add : Bool) (v : W64) : BitVec 128 :=
  setField d lo w (if add then (d >>> lo).setWidth 64 + v else v)

/-- DMOD: sets or adds sb to a field of dd; field 5, BASE and SCALE_BASE, only adds (R84). A poisoned sb stops the core. -/
def bodyDmod (o : Op) (k : CoreCtx) : Tr CoreCtx := do
    let add := o.mod.getLsbD 3
    let n := o.mod.toNat % 8
    need (decide (n ≤ 4) || (decide (n = 5) && add)) 2
    let b := k.opb o
    need (!b.2) 0xC
    let d := k.dreg o.dst
    let d' :=
      match n with
      | 0 => modField d 0 22 add b.1
      | 1 => modField d 76 22 add b.1
      | 2 => modField d 98 22 add b.1
      | 3 => modField d 48 16 add b.1
      | 4 => modField d 32 16 add b.1
      | _ => modField (modField d 0 22 true b.1) 76 22 true b.1
    return { k with d := Tab.set k.d o.dst.toNat d' }

/-- DMOD. -/
def execDmod (c : Lcid) (o : Op) (s : State) : Out :=
  issueK c 0x21 ⟨.d, .no, .s, 0x0F, 0, true⟩ o s (bodyDmod o)

/-- Elements of a tile: values and which are poisoned, row by row. -/
def TileD.values (t : TileD) (k : CoreCtx) : List (List (Val × Bool)) :=
  (List.range t.rows).map fun i => (List.range t.cols).map fun j => (t.val k false i j, t.bad k false i j)

/-- Any element of a tile is poisoned. -/
def TileD.anyBad (t : TileD) (k : CoreCtx) : Bool := (t.touched false).any fun r => k.dirty r.1 r.2

/-- Two tiles hold elements in one form, so a copy converts nothing. -/
def TileD.sameForm (a b : TileD) : Bool := a.fmt == b.fmt && (!isMx a.fmt || a.noscale == b.noscale)

/-- Writes element codes and scale bytes as they are, with the poison of each element (a copy that converts nothing). -/
def TileD.copyFrom (t : TileD) (k : CoreCtx) (u : TileD) : CoreCtx :=
  let elems := (List.range t.major).flatMap fun r =>
    let at2 (q : Nat) : Nat × Nat := if t.trans then (q, r) else (r, q)
    let bytes := packCodes (fmtBits t.fmt) ((List.range t.minor).map fun q => u.code k (at2 q).1 (at2 q).2)
    (List.range bytes.length).map fun b =>
      let hit := (List.range t.minor).any fun q =>
        let p := q * fmtBits t.fmt
        decide (p / 8 ≤ b) && decide (b ≤ (p + fmtBits t.fmt - 1) / 8)
          && (let (a, sh) := u.place (at2 q).1 (at2 q).2; k.dirty a (ceilDiv (sh + fmtBits u.fmt) 8))
      (t.base + r * t.pitch + b, bytes.getD b 0, hit)
  let scales :=
    if isMx t.fmt && !t.noscale then
      (List.range (t.scaleBytes false)).map fun i => (t.scale + i, Mem.get k.bench (u.scale + i), k.dirty (u.scale + i) 1)
    else []
  k.put (elems ++ scales)

/-- TCOPY: tile da to tile dd, converting its format under R70 and R71; tiles of one form move as they are (R84, R90). INT32 is for
accumulators and the vector unit only, so neither tile is one (R69). -/
def bodyTcopy (o : Op) (k : CoreCtx) : Tr CoreCtx := do
    let d := tileD (k.dreg o.dst)
    let a := tileD (k.dreg o.a)
    need (decide (a.fmt ≠ 9) && decide (d.fmt ≠ 9)) 7
    a.canRead k
    d.canWrite k
    need (decide (a.rows = d.rows) && decide (a.cols = d.cols)) 6
    let bad := a.anyBad k
    if a.sameForm d then return d.copyFrom k a
    else
      let k' ← d.store k (a.values k)
      return k'.eat bad

/-- TCOPY. -/
def execTcopy (c : Lcid) (o : Op) (s : State) : Out :=
  issueK c 0x24 ⟨.d, .d, .no, 0, 0, false⟩ o s (bodyTcopy o)

/-- TZERO: tile dd is zero, with scales 0x00 (R84). -/
def bodyTzero (o : Op) (k : CoreCtx) : Tr CoreCtx := do
    let d := tileD (k.dreg o.dst)
    d.canWrite k
    return k.put ((d.touched false).flatMap fun r => runOf r.1 (List.replicate r.2 0) false)

/-- TZERO. -/
def execTzero (c : Lcid) (o : Op) (s : State) : Out :=
  issueK c 0x25 ⟨.d, .no, .no, 0, 0, false⟩ o s (bodyTzero o)

/-- ALOAD: ad = FP32 or INT32 tile da of at most 32 × 16, which sets the type; other elements zero (R84). -/
def bodyAload (o : Op) (k : CoreCtx) : Tr CoreCtx := do
    let a := tileD (k.dreg o.a)
    a.check
    need (decide (a.fmt = 0) || decide (a.fmt = 9)) 7
    need (decide (a.rows ≤ 32) && decide (a.cols ≤ 16)) 6
    a.canRead k
    let elems : Tab W32 := (List.range a.rows).flatMap fun i =>
      (List.range a.cols).map fun j => (16 * i + j, BitVec.ofNat 32 (a.code k i j))
    let bad := a.anyBad k
    return (k.aset o.dst ⟨a.fmt == 9, bad, elems⟩).eat bad

/-- ALOAD. -/
def execAload (c : Lcid) (o : Op) (s : State) : Out :=
  issueK c 0x26 ⟨.acc, .d, .no, 0, 0, false⟩ o s (bodyAload o)

/-- The value of an accumulator element. -/
def Acc.val (v : Acc) (i j : Nat) : Val := if v.int then Val.ofInt (v.at i j).toInt else val32 (v.at i j)

/-- ASTORE: tile dd, of at most 32 × 16, = aa converted to dd's format (R84). -/
def bodyAstore (o : Op) (k : CoreCtx) : Tr CoreCtx := do
    let d := tileD (k.dreg o.dst)
    let a := k.areg o.a
    d.check
    need (decide (d.rows ≤ 32) && decide (d.cols ≤ 16)) 6
    let k' ← d.store k ((List.range d.rows).map fun i => (List.range d.cols).map fun j => (a.val i j, a.poison))
    return k'.eat a.poison

/-- ASTORE. -/
def execAstore (c : Lcid) (o : Op) (s : State) : Out :=
  issueK c 0x27 ⟨.d, .acc, .no, 0, 0, false⟩ o s (bodyAstore o)

/-- AZERO: ad = 0, of type INT32 if MOD[0] (R84). -/
def bodyAzero (o : Op) (k : CoreCtx) : Tr CoreCtx := return k.aset o.dst ⟨o.mod.getLsbD 0, false, []⟩

/-- AZERO. -/
def execAzero (c : Lcid) (o : Op) (s : State) : Out :=
  issueK c 0x28 ⟨.acc, .no, .no, 1, 0, false⟩ o s (bodyAzero o)

/-! ## Slice transfers (R84, R116, R117) -/

/-- A core may use `n` bytes at a slice address (R116, R117). -/
def sliceOk (steps a n : Nat) : Bool :=
  let space := a / 2 ^ 40 % 4
  decide (a / 2 ^ 42 = 0) && decide (a / 2 ^ 39 % 2 = 0) && decide (space ≠ 3)
  && (if space = 1 then decide (a % 2 ^ 39 + n ≤ globalSize steps)
      else
        decide (a / 2 ^ 36 % 8 = 0) && decide (a % 2 ^ 28 + n ≤ privateSize steps)
        && (if space = 0 then decide (a / 2 ^ 28 % 256 = 0) else decide (a / 2 ^ 28 % 16 ≠ 15)))

/-- The length and the alignment rules of TLOAD and TSTORE (R84). -/
def xferForm (bench a n : Nat) : Tr Unit :=
  need (decide (n % 64 = 0) && decide (64 ≤ n) && decide (n ≤ benchSize) && decide (bench % 64 = 0) && decide (a % 64 = 0)) 5

/-- Starts a slice transfer: it takes the core's next number, and its pieces issue while tokens last. -/
def startXfer (c : Lcid) (k : CoreCtx) (x : SliceXfer) (s : State) : CoreCtx × State :=
  let x := { x with order := k.stores, away := if x.addr.toNat / 2 ^ 40 % 4 = 0 then 0 else x.len / 64 }
  let s := s.setCore c { k with stores := k.stores + 1, xfers := k.xfers ++ [x] }
  let (t, left) := issuePieces c x (pieces x.addr.toNat x.len) s
  let t := modXfer c x.order (fun y => { y with todo := left }) t
  (t.core c, t)

/-- A slice transfer with nothing set but its kind. -/
def SliceXfer.init (kind : XferKind) (a : W64) (n : Nat) : SliceXfer :=
  { kind := kind, bench := 0, addr := a, len := n, reg := 0, data := [], poisonLines := [], want := (0, 0), order := 0,
    away := 0, todo := [], pc := 0 }

/-- Folds a hit's status and delivers its bytes: a hit charges nothing (R137). -/
def CacheLine.hit (l : CacheLine) (off n : Nat) : List Byte × List Nat :=
  (slice l.bytes off n, (l.poison.filter fun i => decide (off / 64 ≤ i) && decide (64 * i < off + n)).map fun i => i - off / 64)

/-- The cached line that holds an address. -/
def CoreCtx.cached (k : CoreCtx) (a : Nat) : Option CacheLine := k.cache.find? fun l => l.addr == a / 2048 * 2048

/-- A fill of the line that holds an address is under way. -/
def CoreCtx.filling (k : CoreCtx) (a : Nat) : Bool :=
  k.xfers.any fun x => (decide (x.kind = .sld) || decide (x.kind = .tloadCached)) && x.addr.toNat == a / 2048 * 2048

/-- Moves a line to the front of the cache, which keeps the 32 used last (R65). -/
def CoreCtx.touch (k : CoreCtx) (l : CacheLine) : CoreCtx :=
  { k with cache := (l :: k.cache.filter fun m => m.addr != l.addr).take 32 }

/-- Puts lines of data in bench memory, the poisoned ones marked. -/
def CoreCtx.landLines (k : CoreCtx) (a : Nat) (bytes : List Byte) (poison : List Nat) : CoreCtx :=
  k.put ((List.range bytes.length).map fun i => (a + i, bytes.getD i 0, poison.contains (i / 64)))

/-- TLOAD: slice to bench, through the line cache with MOD[0] (R84, R137). -/
def bodyTload (c : Lcid) (o : Op) (s : State) (k : CoreCtx) : Tr (CoreCtx × State) := do
    let bench := (← k.addr o.dst).toNat
    let a := ← k.addr o.a
    let n := (← k.addr o.b).toNat
    xferForm bench a.toNat n
    let cached := o.mod.getLsbD 0
    need (!cached || decide (a.toNat % 2048 + n ≤ 2048)) 5
    need (sliceOk s.cfg.globalSteps a.toNat n) 8
    k.canWrite bench n
    if cached then
      await (!k.filling a.toNat)
      match k.cached a.toNat with
      | some l =>
        let h := l.hit (a.toNat % 2048) n
        return ((((k.touch l).foldStatus l.status).landLines bench h.1 h.2).step, s)
      | none =>
        await (decide (k.xfers.length < 32))
        let x := { SliceXfer.init .tloadCached (BitVec.ofNat 64 (a.toNat / 2048 * 2048)) 2048 with
                   bench := bench, want := (a.toNat % 2048, n) }
        return startXfer c k.step x s
    else
      await (decide (k.xfers.length < 32))
      return startXfer c k.step { SliceXfer.init .tload a n with bench := bench } s

/-- TLOAD. -/
def execTload (c : Lcid) (o : Op) (s : State) : Out :=
  issue c 0x22 ⟨.s, .s, .s, 1, 0, false⟩ o s (bodyTload c o s)

/-- TSTORE: bench to slice, staged under R85; its lines carry their poison. -/
def bodyTstore (c : Lcid) (o : Op) (s : State) (k : CoreCtx) : Tr (CoreCtx × State) := do
    let bench := (← k.addr o.dst).toNat
    let a := ← k.addr o.a
    let n := (← k.addr o.b).toNat
    xferForm bench a.toNat n
    need (sliceOk s.cfg.globalSteps a.toNat n) 8
    let data ← k.rd bench n
    await (decide (k.xfers.length < 32))
    let bad := (List.range (n / 64)).filter fun i => k.dirty (bench + 64 * i) 64
    let x := { SliceXfer.init .tstore a n with data := data, poisonLines := bad, pc := k.pc }
    return startXfer c k.step x s

/-- TSTORE. -/
def execTstore (c : Lcid) (o : Op) (s : State) : Out :=
  issue c 0x23 ⟨.s, .s, .s, 0, 0, false⟩ o s (bodyTstore c o s)

/-- SLD: sd = 64 bits at slice sa + sext(IMM), a multiple of 8, through the line cache (R84, R137). -/
def bodySld (c : Lcid) (o : Op) (s : State) (k : CoreCtx) : Tr (CoreCtx × State) := do
    let a := ((← k.addr o.a) + simm o).toNat
    need (decide (a % 8 = 0)) 5
    need (sliceOk s.cfg.globalSteps a 8) 8
    await (!k.filling a)
    match k.cached a with
    | some l =>
      let h := l.hit (a % 2048) 8
      let bad := l.poison.contains (a % 2048 / 64)
      return ((((k.touch l).foldStatus l.status).sset o.dst (BitVec.ofNat 64 (leNat h.1)) bad).eat bad |>.step, s)
    | none =>
      await (decide (k.xfers.length < 32))
      let x := { SliceXfer.init .sld (BitVec.ofNat 64 (a / 2048 * 2048)) 2048 with reg := o.dst.toNat, want := (a % 2048, 8) }
      return startXfer c k.step x s

/-- SLD. -/
def execSld (c : Lcid) (o : Op) (s : State) : Out :=
  issue c 0x29 ⟨.s, .s, .no, 0, 0xFFFFFFFF, false⟩ o s (bodySld c o s)

/-- What a load finds in its slices: bytes, poisoned lines and the first status of its pieces (R85, R117, R118). Bytes of a
slice that cannot be reached are free values. -/
def State.loadPieces (s : State) (c : Lcid) (a n : Nat) : List Byte × List Nat × Status :=
  (List.range (n / 64)).foldl
    (fun acc i =>
      let (site, loc) := s.sliceAt c a (64 * i)
      if s.sliceUnreach c site then
        (acc.1 ++ (List.range 64).map (fun b => Config.freeByte s.fresh (64 * i + b)), acc.2.1 ++ [i], acc.2.2.first .unavail)
      else
        let bad := s.linePoison site loc
        let st := if bad then Status.poison else if s.stagedLine site loc true then .stale else .ok
        (acc.1 ++ s.bytesAt site loc 64, if bad then acc.2.1 ++ [i] else acc.2.1, acc.2.2.first st))
    ([], [], .ok)

/-- Stages one line; none where its bank stage holds 192 other lines, those of the tick's MEM_WRITE portions among them (R128). A line
of a slice that cannot be reached is discarded (R118). -/
def stageLine (s : State) (w : Staged) : Option State :=
  let l := (stageLines s w.site (w.line / 0x400000) ++ s.mailLines w.site (w.line / 0x400000)).eraseDups
  if l.contains w.line || decide (l.length < 192) then some { s with work := { s.work with staged := s.work.staged ++ [w] } }
  else none

/-- Bytes as a table from their place in a line. -/
def lineTab (l : List Byte) : Tab Byte := (List.range l.length).map fun i => (i, l.getD i 0)

/-- Stages the lines of a store in address order; none where a bank stage is full. -/
def stageStore (c : Lcid) (x : SliceXfer) : List Nat → State → Option State
  | [], s => some s
  | i :: l, s =>
    let (site, loc) := s.sliceAt c x.addr.toNat (64 * i)
    if s.sliceUnreach c site then stageStore c x l s
    else
      (stageLine s { site := site, line := loc / 64 * 64, data := lineTab (slice x.data (64 * i) 64),
                     poison := x.poisonLines.contains i, order := [1, lcOrd c, x.order], append := false }).bind
        (stageStore c x l)

/-! ## The tick class (R60) -/

/-- A journal record as the ring holds it: header, payload and padding (R43). -/
def JRec.bytes (r : JRec) : List Byte :=
  let n := r.payload.length
  let head (check : Nat) : List Byte :=
    leBytes 4 n ++ leBytes 4 r.seqSlot ++ leBytes 8 r.arrival ++ leBytes 8 r.index ++ leBytes 2 r.plan ++ leBytes 1 r.source
      ++ [0] ++ leBytes 4 check
  let body := r.payload ++ List.replicate (roundUp (32 + n) 64 - (32 + n)) 0
  head (crc32c (head 0 ++ body)).toNat ++ body

/-- The records a core's plan consumes in this tick, in INDEX order. -/
def State.inputsOf (s : State) (slot : Nat) : List JRec := Tab.getD s.work.inputs slot []

/-- TCOUNT: INPUT_COUNT of the core's plan (R60). -/
def bodyTcount (o : Op) (s : State) (k : CoreCtx) : Tr CoreCtx :=
    return k.sset o.dst (BitVec.ofNat 64 (s.inputsOf k.slot).length) false

/-- TCOUNT. -/
def execTcount (c : Lcid) (o : Op) (s : State) : Out :=
  issueK c 0xC0 ⟨.s, .no, .no, 0, 0, false⟩ o s (bodyTcount o s)

/-- TIN: the consumed record of ordinal sb[31:0] to bench at sa, with its length, slot and status to sd; an ordinal at or
above INPUT_COUNT writes nothing and gives all ones (R60). A poisoned ordinal is an address (DEDUCED, log 25). -/
def bodyTin (o : Op) (s : State) (k : CoreCtx) : Tr (CoreCtx × State) := do
    let bench := (← k.addr o.a).toNat
    let i := (← k.addr o.b).toNat % 2 ^ 32
    need (decide (bench % 64 = 0)) 5
    match (s.inputsOf k.slot)[i]? with
    | none => return ((k.sset o.dst (BitVec.allOnes 64) false).step, s)
    | some r =>
      let bytes := r.bytes
      k.canWrite bench bytes.length
      await (decide (k.xfers.length < 32))
      let lines := List.range (bytes.length / 64)
      let gone := s.stackGone r.home
      let bad := if gone then lines else if r.bad then lines.filter (fun l => decide (0 < l)) else []
      let st := if gone then Status.unavail else if r.bad then .poison else .ok
      let word := BitVec.ofNat 64 (r.payload.length + r.seqSlot % 2 ^ 17 * 2 ^ 32 + st.code * 2 ^ 56)
      let x := { SliceXfer.init .tin word bytes.length with
                 bench := bench, reg := o.dst.toNat, data := bytes, poisonLines := bad, order := k.stores }
      return ({ k.step with stores := k.stores + 1, xfers := k.xfers ++ [x] }, s)

/-- TIN. -/
def execTin (c : Lcid) (o : Op) (s : State) : Out :=
  issue c 0xC1 ⟨.s, .s, .s, 0, 0, false⟩ o s (bodyTin o s)

/-! ## Completion (R117) -/

/-- Notes the errors the lines of a load meet. -/
def noteLoad (c : Lcid) (a n : Nat) (s : State) : State :=
  (List.range (n / 64)).foldl
    (fun t i =>
      let p := s.sliceAt c a (64 * i)
      if s.sliceUnreach c p.1 then t else noteLine true p.1 p.2 t) { s with fresh := s.fresh + 1 }

/-- Takes the first slice transfer off the core's list. -/
def CoreCtx.popXfer (k : CoreCtx) : CoreCtx := { k with xfers := k.xfers.drop 1 }

/-- A transfer completes: what it does to its core and the tick (R85, R117, R137). -/
def finishXfer (c : Lcid) (x : SliceXfer) (s : State) : State :=
  let k := (s.core c).popXfer
  match x.kind with
  | .tload =>
    let r := s.loadPieces c x.addr.toNat x.len
    (noteLoad c x.addr.toNat x.len s).setCore c ((k.landLines x.bench r.1 r.2.1).foldStatus r.2.2)
  | .tloadCached =>
    let r := s.loadPieces c x.addr.toNat x.len
    let l : CacheLine := ⟨x.addr.toNat, r.1, r.2.1, r.2.2⟩
    let h := l.hit x.want.1 x.want.2
    (noteLoad c x.addr.toNat x.len s).setCore c (((k.touch l).landLines x.bench h.1 h.2).foldStatus r.2.2)
  | .sld =>
    let r := s.loadPieces c x.addr.toNat x.len
    let l : CacheLine := ⟨x.addr.toNat, r.1, r.2.1, r.2.2⟩
    let h := l.hit x.want.1 8
    let bad := r.2.1.contains (x.want.1 / 64)
    (noteLoad c x.addr.toNat x.len s).setCore c
      ((((k.touch l).sset (BitVec.ofNat 5 x.reg) (BitVec.ofNat 64 (leNat h.1)) bad).foldStatus r.2.2).eat bad)
  | .tin =>
    let st := Status.ofCode (x.addr.toNat / 2 ^ 56)
    s.setCore c (((k.landLines x.bench x.data x.poisonLines).sset (BitVec.ofNat 5 x.reg) x.addr false).foldStatus st)
  | .tstore =>
    match stageStore c x (List.range (x.len / 64)) (s.setCore c k) with
    | some t => t
    | none => progFault c 0xB x.pc (s.core c).slot s
  | .append => s.setCore c k

/-- SLICE_TRANSFER_DONE: the core's oldest slice transfer completes once its pieces have issued and every line has come
(R117, R118). -/
def execSliceTransferDone (c : Lcid) (s : State) : Out :=
  unit (validLcid c) <|
    match (s.core c).xfers with
    | [] => skip s
    | x :: _ => when (decide (s.seqr.phase = .executing) && x.todo.isEmpty && decide (x.away = 0)) s (finishXfer c x s)

end Sys2Proof.Machine
end

