-- ==== Sys2Proof/Machine/Matrix.lean ====
section
/-! DEFINITION. Matrix instructions (R72, R73, R77-R79, R86, R87). -/

namespace Sys2Proof.Machine

open Sys2Proof

/-- Operand families of an MMA (R87): 0 MX float, 1 BF16, 2 integer. -/
def family (fmt : Nat) : Option Nat :=
  match fmt with
  | 1 => some 1 | 2 => some 0 | 3 => some 0 | 4 => some 0 | 5 => some 0 | 6 => some 0 | 7 => some 2 | 8 => some 2 | _ => none

/-- Where the element (k, j) of a B operand is stored: its row of the stored tile, or none where sparsity omits it. -/
abbrev Kept := Nat → Nat → Option Nat

/-- The 2:4 metadata word of a column and a band of 16 rows (R77). -/
def word24 (m : CoreCtx) (t : TileD) (band j : Nat) : Nat := leNat (Mem.read m.bench (t.metaBase + 32 * band + 2 * j) 2)

/-- The first and second kept rows of group `g` of a 2:4 word. -/
def pair24 (w g : Nat) : Nat × Nat := (w / 4 ^ (2 * g) % 4, w / 4 ^ (2 * g + 1) % 4)

/-- The presence bit of a block (R78). -/
def blockSet (m : CoreCtx) (t : TileD) (i : Nat) : Bool := (Mem.get m.bench (t.metaBase + i / 8)).getLsbD (i % 8)

/-- Rows of the stored tile of a B operand (R77, R78). -/
def storedRows (m : CoreCtx) (t : TileD) : Nat :=
  match t.sparse with
  | 0 => t.rows
  | 1 => t.rows / 2
  | _ => 16 * ((List.range (t.rows / 16)).filter fun i => blockSet m t i).length

/-- The stored tile of a B operand, whose scales stay dense. -/
def storedTile (m : CoreCtx) (t : TileD) : TileD := { t with rows := storedRows m t }

/-- Which elements of a B operand are kept, and where. -/
def keptRow (m : CoreCtx) (t : TileD) : Kept := fun k j =>
  match t.sparse with
  | 0 => some k
  | 1 =>
    let (lo, hi) := pair24 (word24 m t (k / 16) j) (k % 16 / 4)
    if k % 4 = lo then some (k / 4 * 2) else if k % 4 = hi then some (k / 4 * 2 + 1) else none
  | _ =>
    if blockSet m t (k / 16) then some (16 * ((List.range (k / 16)).filter fun i => blockSet m t i).length + k % 16) else none

/-- Bytes of sparsity metadata. -/
def metaBytes (t : TileD) : Nat :=
  match t.sparse with
  | 0 => 0
  | 1 => t.rows / 16 * 32
  | _ => ceilDiv (t.rows / 16) 8

/-- The metadata is well formed: second index above the first, no bit set beyond K (R77, R78). Words of columns at or above
COLS take part in nothing and are not checked (log 83, DESIGN CHOICE). -/
def metaOk (m : CoreCtx) (t : TileD) : Bool :=
  match t.sparse with
  | 0 => true
  | 1 =>
    (List.range (t.rows / 16)).all fun b => (List.range t.cols).all fun j => (List.range 4).all fun g =>
      let p := pair24 (word24 m t b j) g
      decide (p.1 < p.2)
  | _ => (List.range (8 * ceilDiv (t.rows / 16) 8)).all fun i => decide (i < t.rows / 16) || !blockSet m t i

/-- The checks of an MMA's operands (R76, R86, R87). -/
def mmaChecks (m : CoreCtx) (a b : TileD) (acc : Acc) (z : Bool) : Tr Nat := do
  a.check
  b.check
  need (decide (a.sparse = 0) && !a.trans) 7
  match family a.fmt, family b.fmt with
  | some f, some g =>
    need (decide (f = g)) 7
    need (decide (a.rows ≤ 32) && decide (b.cols ≤ 16) && decide (b.rows % 32 = 0) && decide (32 ≤ b.rows)
      && decide (b.rows ≤ 65504) && decide (a.cols = b.rows)) 6
    need (z || acc.int == (f == 2)) 9
    (a.touched false).forM fun r => m.access r.1 r.2
    m.access b.metaBase (metaBytes b)
    need (metaOk m b) 7
    let st := storedTile m b
    (if st.rows = 0 then [] else st.ranges).forM fun r => m.access r.1 r.2
    if isMx b.fmt && !b.noscale then m.access b.scale (b.scaleBytes true) else pure ()
    return f
  | _, _ => .error (.trap 7)

/-- Any line an MMA reads is poisoned. -/
def mmaPoison (m : CoreCtx) (a b : TileD) : Bool :=
  let st := storedTile m b
  (a.touched false).any (fun r => m.dirty r.1 r.2) || m.dirty b.metaBase (metaBytes b)
    || (if st.rows = 0 then [] else st.ranges).any (fun r => m.dirty r.1 r.2)
    || (isMx b.fmt && !b.noscale && m.dirty b.scale (b.scaleBytes true))

/-- The unscaled code value of element (k, j) of B, none where omitted. -/
def bElem (m : CoreCtx) (b : TileD) (k j : Nat) : Option Val :=
  (keptRow m b k j).map fun r => codeVal b.fmt ((storedTile m b).code m r j)

/-- A zero value. -/
def Val.isZero : Val → Bool
  | .fin _ m _ => m == 0
  | _ => false

/-- The bands of 16 columns of A in which every element is zero (R79). -/
def zeroBand (m : CoreCtx) (a : TileD) (band : Nat) : Bool :=
  (List.range a.rows).all fun i => (List.range 16).all fun q => (a.val m false i (16 * band + q)).isZero

/-- Adds two values with an exact zero sum of +0 and NaN flagged (R72). -/
def sumVal (x y : Val) : Val × Fl :=
  match x.add y with
  | (.nan, _) => (.nan, flInv)
  | (.fin _ 0 _, f) => (Val.zero, f)
  | r => r

/-- The product of two element values, NaN flagged; a skipped or omitted element gives +0 (R72). -/
def prodVal (x y : Val) : Val × Fl :=
  match x.mul y with
  | (.nan, _) => (.nan, flInv)
  | r => r

/-- One block of 32 of an MX product: s exactly, t rounded, u scaled and rounded once, c + u rounded (R72). -/
def mxBlock (m : CoreCtx) (a b : TileD) (skip : Nat → Bool) (i j blk : Nat) (acc : W32 × Fl) : W32 × Fl :=
  let s := (List.range 32).foldl
    (fun (v : Val × Fl) q =>
      let k := 32 * blk + q
      if skip (k / 16) then v
      else match bElem m b k j with
        | none => v
        | some y =>
          let p := prodVal (codeVal a.fmt (a.code m i k)) y
          let r := sumVal v.1 p.1
          (r.1, v.2 ||| p.2 ||| r.2)) (Val.zero, (0 : Fl))
  let (t, f1) := to32 s.1
  let xa := a.scaleOf m false i (32 * blk)
  let xb := b.scaleOf m true (32 * blk) j
  let nanScale := xa == 0xFF || xb == 0xFF
  let (u, f2) : W32 × Fl :=
    if nanScale then (0x7FC00000, flInv) else scale2 t ((xa : Int) + xb - 254)
  let c := sumVal (val32 acc.1) (val32 u)
  let (w, f3) := to32 c.1
  (w, acc.2 ||| s.2 ||| f1 ||| f2 ||| c.2 ||| f3)

/-- One step of a BF16 product: c + a × b rounded once (R72). -/
def bfStep (m : CoreCtx) (a b : TileD) (skip : Nat → Bool) (i j k : Nat) (acc : W32 × Fl) : W32 × Fl :=
  let p : Val × Fl :=
    if skip (k / 16) then (Val.zero, 0)
    else match bElem m b k j with
      | none => (Val.zero, 0)
      | some y => prodVal (codeVal a.fmt (a.code m i k)) y
  let r := sumVal (val32 acc.1) p.1
  let (w, f) := to32 r.1
  (w, acc.2 ||| p.2 ||| r.2 ||| f)

/-- A code as a signed integer. -/
def codeInt (fmt n : Nat) : Int :=
  let w := fmtBits fmt
  if n < 2 ^ (w - 1) then n else n - 2 ^ w

/-- One block of an integer product: the exact sum added with saturation (R73). -/
def intBlock (m : CoreCtx) (a b : TileD) (skip : Nat → Bool) (i j blk : Nat) (acc : W32 × Fl) : W32 × Fl :=
  let s : Int := (List.range 32).foldl
    (fun (v : Int) q =>
      let k := 32 * blk + q
      if skip (k / 16) then v
      else match keptRow m b k j with
        | none => v
        | some r => v + codeInt a.fmt (a.code m i k) * codeInt b.fmt ((storedTile m b).code m r j)) 0
  let (w, f) := satInt 32 (acc.1.toInt + s)
  (w, acc.2 ||| f)

/-- The product of one element of the accumulator, in the fixed order of R72 and R73. -/
def mmaElem (m : CoreCtx) (a b : TileD) (fam : Nat) (skip : Nat → Bool) (i j : Nat) (c : W32) : W32 × Fl :=
  match fam with
  | 0 => (List.range (b.rows / 32)).foldl (fun v blk => mxBlock m a b skip i j blk v) (c, 0)
  | 1 => (List.range b.rows).foldl (fun v k => bfStep m a b skip i j k v) (c, 0)
  | _ => (List.range (b.rows / 32)).foldl (fun v blk => intBlock m a b skip i j blk v) (c, 0)

/-- Writes elements over those of an accumulator. -/
def Acc.over (v : Acc) (l : Tab W32) : Acc := { v with elems := l.foldl (fun t e => Tab.set t e.1 e.2) v.elems }

/-- MMA: ad += A(da) × B(db); Z clears the tile and sets its type first, SKIP skips zero bands of A (R79, R86, R87). -/
def bodyMma (o : Op) (m : CoreCtx) : Tr CoreCtx := do
    let a := tileD (m.dreg o.a)
    let b := tileD (m.dreg o.b)
    let z := o.mod.getLsbD 0
    let old := m.areg o.dst
    let fam ← mmaChecks m a b old z
    let start : Acc := if z then ⟨fam == 2, false, []⟩ else old
    let skip : Nat → Bool := fun band => o.mod.getLsbD 1 && zeroBand m a band
    let cells := (List.range a.rows).flatMap fun i => (List.range b.cols).map fun j =>
      (16 * i + j, mmaElem m a b fam skip i j (start.at i j))
    let fl := cells.foldl (fun f e => f ||| e.2.2) (0 : Fl)
    let bad := mmaPoison m a b || start.poison
    let out := { start.over (cells.map fun e => (e.1, e.2.1)) with poison := bad }
    return ((m.aset o.dst out).orFlags fl).eat bad

/-- MMA. -/
def execMma (c : Lcid) (o : Op) (s : State) : Out :=
  issueK c 0x40 ⟨.acc, .d, .d, 3, 0, false⟩ o s (bodyMma o)

/-- Every place of an accumulator. -/
def accPlaces : List Nat := List.range 512

/-- AADD: ad = aa + ab elementwise, in FP32 or, saturating, INT32; the types must agree (R86). -/
def bodyAadd (o : Op) (m : CoreCtx) : Tr CoreCtx := do
    let a := m.areg o.a
    let b := m.areg o.b
    need (a.int == b.int) 9
    let cells := accPlaces.map fun n =>
      let x := Tab.getD a.elems n 0
      let y := Tab.getD b.elems n 0
      (n, if a.int then satInt 32 (x.toInt + y.toInt) else fadd x y)
    let fl := cells.foldl (fun f e => f ||| e.2.2) (0 : Fl)
    let bad := a.poison || b.poison
    return ((m.aset o.dst ⟨a.int, bad, cells.map fun e => (e.1, e.2.1)⟩).orFlags fl).eat bad

/-- AADD. -/
def execAadd (c : Lcid) (o : Op) (s : State) : Out :=
  issueK c 0x41 ⟨.acc, .acc, .acc, 0, 0, false⟩ o s (bodyAadd o)

/-- AMOV: ad = aa (R86). -/
def bodyAmov (o : Op) (m : CoreCtx) : Tr CoreCtx := return (m.aset o.dst (m.areg o.a)).eat (m.areg o.a).poison

/-- AMOV. -/
def execAmov (c : Lcid) (o : Op) (s : State) : Out :=
  issueK c 0x42 ⟨.acc, .acc, .no, 0, 0, false⟩ o s (bodyAmov o)

/-- ASCALE: ad = aa × the FP32 value of sb[31:0]; FP32 only (R86). -/
def bodyAscale (o : Op) (m : CoreCtx) : Tr CoreCtx := do
    let a := m.areg o.a
    need (!a.int) 9
    let y : W32 := (m.sreg o.b).setWidth 32
    let cells := accPlaces.map fun n => (n, fmul (Tab.getD a.elems n 0) y)
    let fl := cells.foldl (fun f e => f ||| e.2.2) (0 : Fl)
    let bad := a.poison || m.sbad o.b
    return ((m.aset o.dst ⟨false, bad, cells.map fun e => (e.1, e.2.1)⟩).orFlags fl).eat bad

/-- ASCALE. -/
def execAscale (c : Lcid) (o : Op) (s : State) : Out :=
  issueK c 0x43 ⟨.acc, .acc, .s, 0, 0, false⟩ o s (bodyAscale o)

end Sys2Proof.Machine
end

