-- ==== Sys2Proof/Machine/Vector.lean ====
section
/-! DEFINITION. Vector instructions (R88, R89). -/

namespace Sys2Proof.Machine

open Sys2Proof

/-- A vector operand: its shape, whether it is INT32, and its elements as words with their poison. -/
structure VSrc where
  rows : Nat
  cols : Nat
  int : Bool
  get : Nat → Nat → W32 × Bool

/-- An operand in an accumulator, which counts as 32 × 16. -/
def accSrc (v : Acc) : VSrc := ⟨32, 16, v.int, fun i j => (v.at i j, v.poison)⟩

/-- An operand tile in FP32 or BF16; BF16 widens exactly. -/
def tileSrc (k : CoreCtx) (t : TileD) : VSrc :=
  ⟨t.rows, t.cols, false, fun i j =>
    let n := t.code k i j
    (if t.fmt = 1 then BitVec.ofNat 32 (n * 65536) else BitVec.ofNat 32 n, t.bad k false i j)⟩

/-- Reads a vector operand (R76, R88): an INT32 accumulator only where the instruction allows one. -/
def vread (k : CoreCtx) (acc : Bool) (r : BitVec 5) (ints : Bool) : Tr VSrc := do
  if acc then
    let v := k.areg r
    need (!v.int || ints) 7
    return accSrc v
  else
    let t := tileD (k.dreg r)
    t.check
    need (decide (t.fmt ≤ 1)) 7
    t.canRead k
    return tileSrc k t

/-- A result element: its exact value, the flags of forming it, and whether it is poisoned. -/
abbrev VElem := Val × Fl × Bool

/-- The shape of a destination. -/
def dstShape (k : CoreCtx) (acc : Bool) (r : BitVec 5) : Nat × Nat :=
  if acc then (32, 16) else ((tileD (k.dreg r)).rows, (tileD (k.dreg r)).cols)

/-- Writes a result to its destination, rounding once to its format (R70, R88): an accumulator takes the type of the result, and a
tile is FP32 or BF16. -/
def vwrite (k : CoreCtx) (acc : Bool) (r : BitVec 5) (int : Bool) (f : Nat → Nat → VElem) : Tr CoreCtx := do
  if acc then
    let cells := (List.range 32).flatMap fun i => (List.range 16).map fun j => (16 * i + j, f i j)
    let out := cells.map fun e =>
      let w : W32 × Fl := if int then e.2.1.toInt 32 else to32 e.2.1
      (e.1, w.1, w.2 ||| e.2.2.1)
    let fl := out.foldl (fun g e => g ||| e.2.2) (0 : Fl)
    let bad := cells.any fun e => e.2.2.2
    return ((k.aset r ⟨int, bad, out.map fun e => (e.1, e.2.1)⟩).orFlags fl).eat bad
  else
    let t := tileD (k.dreg r)
    t.check
    need (decide (t.fmt ≤ 1)) 7
    let rows := (List.range t.rows).map fun i => (List.range t.cols).map fun j => f i j
    let k' ← t.store k (rows.map fun l => l.map fun e => (e.1, e.2.2))
    let fl := rows.foldl (fun g l => l.foldl (fun g e => g ||| e.2.1) g) (0 : Fl)
    return (k'.orFlags fl).eat (rows.any fun l => l.any fun e => e.2.2)

/-- Register files of a vector instruction by its MOD bits. -/
def vShape (o : Op) (b : RegUse) (mods : BitVec 9) : Shape :=
  ⟨if o.mod.getLsbD 6 then .acc else .d, if o.mod.getLsbD 8 then .acc else .d, b, mods, 0, false⟩

/-- An elementwise instruction of two operands: `ff` on FP values, `fi` on INT32 accumulators where allowed. -/
def vbinBody (ff : W32 → W32 → Val × Fl) (fi : Option (Int → Int → Int)) (o : Op) (k : CoreCtx) : Tr CoreCtx := do
    let a ← vread k (o.mod.getLsbD 8) o.a fi.isSome
    let b ← vread k (o.mod.getLsbD 7) o.b fi.isSome
    need (a.int == b.int) 7
    let d := dstShape k (o.mod.getLsbD 6) o.dst
    need (decide (d = (a.rows, a.cols)) && decide (d = (b.rows, b.cols))) 6
    vwrite k (o.mod.getLsbD 6) o.dst a.int fun i j =>
      let x := a.get i j
      let y := b.get i j
      let r : Val × Fl :=
        match fi with
        | some g => if a.int then (let w := satInt 32 (g x.1.toInt y.1.toInt); (Val.ofInt w.1.toInt, w.2)) else ff x.1 y.1
        | none => ff x.1 y.1
      (r.1, r.2, x.2 || y.2)

/-- An instruction of this effect. -/
def vbin (op : BitVec 8) (ff : W32 → W32 → Val × Fl) (fi : Option (Int → Int → Int)) (c : Lcid) (o : Op) (s : State) : Out :=
  issueK c op (vShape o (if o.mod.getLsbD 7 then .acc else .d) 0x1C0) o s (vbinBody ff fi o)

/-- VADD (R88). -/
def execVadd (c : Lcid) (o : Op) (s : State) : Out :=
  vbin 0x60 (fun x y => (val32 x).add (val32 y)) (some fun x y => x + y) c o s
/-- VSUB (R88). -/
def execVsub (c : Lcid) (o : Op) (s : State) : Out :=
  vbin 0x61 (fun x y => (val32 x).add (val32 y).neg) (some fun x y => x - y) c o s
/-- VMUL (R88). -/
def execVmul (c : Lcid) (o : Op) (s : State) : Out := vbin 0x62 (fun x y => (val32 x).mul (val32 y)) none c o s
/-- VMAX: NaN propagates; +0 > −0 (R88). -/
def execVmax (c : Lcid) (o : Op) (s : State) : Out :=
  vbin 0x64 (fun x y => (val32 (fmax x y), 0)) (some fun x y => max x y) c o s
/-- VMIN: NaN propagates; −0 < +0 (R88). -/
def execVmin (c : Lcid) (o : Op) (s : State) : Out :=
  vbin 0x65 (fun x y => (val32 (fmin x y), 0)) (some fun x y => min x y) c o s

/-- VFMA: d = d + a × b with one rounding (R88). -/
def bodyVfma (o : Op) (k : CoreCtx) : Tr CoreCtx := do
    let a ← vread k (o.mod.getLsbD 8) o.a false
    let b ← vread k (o.mod.getLsbD 7) o.b false
    let d ← vread k (o.mod.getLsbD 6) o.dst false
    need (decide (d.rows = a.rows) && decide (d.cols = a.cols) && decide (d.rows = b.rows) && decide (d.cols = b.cols)) 6
    vwrite k (o.mod.getLsbD 6) o.dst false fun i j =>
      let x := a.get i j
      let y := b.get i j
      let z := d.get i j
      let p := (val32 x.1).mul (val32 y.1)
      let r := (val32 z.1).add p.1
      (r.1, p.2 ||| r.2, x.2 || y.2 || z.2)

/-- VFMA. -/
def execVfma (c : Lcid) (o : Op) (s : State) : Out :=
  issueK c 0x63 (vShape o (if o.mod.getLsbD 7 then .acc else .d) 0x1C0) o s (bodyVfma o)

/-- An instruction of one operand and the FP32 value of sb[31:0]. -/
def vscalBody (f : W32 → W32 → Val × Fl) (o : Op) (k : CoreCtx) : Tr CoreCtx := do
    let a ← vread k (o.mod.getLsbD 8) o.a false
    need (decide (dstShape k (o.mod.getLsbD 6) o.dst = (a.rows, a.cols))) 6
    let y : W32 := (k.sreg o.b).setWidth 32
    let yb := k.sbad o.b
    vwrite k (o.mod.getLsbD 6) o.dst false fun i j =>
      let x := a.get i j
      let r := f x.1 y
      (r.1, r.2, x.2 || yb)

/-- An instruction of this effect. -/
def vscal (op : BitVec 8) (f : W32 → W32 → Val × Fl) (c : Lcid) (o : Op) (s : State) : Out :=
  issueK c op (vShape o .s 0x140) o s (vscalBody f o)

/-- VSCALE (R88). -/
def execVscale (c : Lcid) (o : Op) (s : State) : Out := vscal 0x66 (fun x y => (val32 x).mul (val32 y)) c o s
/-- VADDS (R88). -/
def execVadds (c : Lcid) (o : Op) (s : State) : Out := vscal 0x67 (fun x y => (val32 x).add (val32 y)) c o s

/-- VFUNC: d = f(a), the function in MOD[3:0]; codes 9–15 are reserved (R89). -/
def bodyVfunc (o : Op) (k : CoreCtx) : Tr CoreCtx := do
    let code := o.mod.toNat % 16
    need (decide (code ≤ 8)) 2
    let a ← vread k (o.mod.getLsbD 8) o.a false
    need (decide (dstShape k (o.mod.getLsbD 6) o.dst = (a.rows, a.cols))) 6
    vwrite k (o.mod.getLsbD 6) o.dst false fun i j =>
      let x := a.get i j
      let r := vfuncW code x.1
      (val32 r.1, r.2, x.2)

/-- VFUNC. -/
def execVfunc (c : Lcid) (o : Op) (s : State) : Out :=
  issueK c 0x68 (vShape o .no 0x14F) o s (bodyVfunc o)

/-- Combines the values present of a list in order; an absent one passes the other on (R89, DEDUCED, log 26). -/
def joinOpt (f : W32 → W32 → W32 × Fl) (a b : Option (W32 × Fl)) : Option (W32 × Fl) :=
  match a, b with
  | some x, some y => let r := f x.1 y.1; some (r.1, x.2 ||| y.2 ||| r.2)
  | some x, none => some x
  | none, y => y

/-- One level of the pairwise tree. -/
def pairUp (f : W32 → W32 → W32 × Fl) (l : List (Option (W32 × Fl))) : List (Option (W32 × Fl)) :=
  (List.range (l.length / 2)).map fun m => joinOpt f (l.getD (2 * m) none) (l.getD (2 * m + 1) none)

/-- A row reduced as R89 orders: lane l takes elements l, l + 64, ..., then six levels of a pairwise tree. -/
def reduceRow (f : W32 → W32 → W32 × Fl) (n : Nat) (get : Nat → W32) : W32 × Fl :=
  let lanes := (List.range 64).map fun l =>
    (List.range (ceilDiv (n - l) 64)).foldl
      (fun acc q => joinOpt f acc (if l + 64 * q < n then some (get (l + 64 * q), 0) else none)) none
  let top := (List.range 6).foldl (fun l _ => pairUp f l) lanes
  ((top.getD 0 none).getD (0, 0))

/-- A row reduction: d of shape ROWS × 1 (R89); a row is poisoned by any element of it. -/
def vreduceBody (f : W32 → W32 → W32 × Fl) (o : Op) (k : CoreCtx) : Tr CoreCtx := do
    let a ← vread k (o.mod.getLsbD 8) o.a false
    need (decide (dstShape k false o.dst = (a.rows, 1))) 6
    vwrite k false o.dst false fun i _ =>
      let r := reduceRow f a.cols fun j => (a.get i j).1
      (val32 r.1, r.2, (List.range a.cols).any fun j => (a.get i j).2)

/-- An instruction of this effect. -/
def vreduce (op : BitVec 8) (f : W32 → W32 → W32 × Fl) (c : Lcid) (o : Op) (s : State) : Out :=
  issueK c op ⟨.d, if o.mod.getLsbD 8 then .acc else .d, .no, 0x100, 0, false⟩ o s (vreduceBody f o)

/-- VRSUM (R89). -/
def execVrsum (c : Lcid) (o : Op) (s : State) : Out := vreduce 0x69 fadd c o s
/-- VRMAX (R89). -/
def execVrmax (c : Lcid) (o : Op) (s : State) : Out := vreduce 0x6A (fun x y => (fmax x y, 0)) c o s

/-- An instruction whose b is broadcast: a row down the rows, or a column across the columns. -/
def vbcastBody (down : Bool) (f : W32 → W32 → Val × Fl) (o : Op) (k : CoreCtx) : Tr CoreCtx := do
    let a ← vread k (o.mod.getLsbD 8) o.a false
    let b ← vread k false o.b false
    need (decide (dstShape k (o.mod.getLsbD 6) o.dst = (a.rows, a.cols))) 6
    need (if down then decide (b.rows = 1) && decide (b.cols = a.cols) else decide (b.rows = a.rows) && decide (b.cols = 1)) 6
    vwrite k (o.mod.getLsbD 6) o.dst false fun i j =>
      let x := a.get i j
      let y := if down then b.get 0 j else b.get i 0
      let r := f x.1 y.1
      (r.1, r.2, x.2 || y.2)

/-- An instruction of this effect. -/
def vbcast (op : BitVec 8) (down : Bool) (f : W32 → W32 → Val × Fl) (c : Lcid) (o : Op) (s : State) : Out :=
  issueK c op (vShape o .d 0x140) o s (vbcastBody down f o)

/-- VBADD (R88). -/
def execVbadd (c : Lcid) (o : Op) (s : State) : Out := vbcast 0x6B true (fun x y => (val32 x).add (val32 y)) c o s
/-- VBMUL (R88). -/
def execVbmul (c : Lcid) (o : Op) (s : State) : Out := vbcast 0x6C true (fun x y => (val32 x).mul (val32 y)) c o s
/-- VCMUL (R88). -/
def execVcmul (c : Lcid) (o : Op) (s : State) : Out := vbcast 0x6D false (fun x y => (val32 x).mul (val32 y)) c o s

end Sys2Proof.Machine
end

