-- ==== Sys2Proof/Machine/Route.lean ====
section
/-! DEFINITION. Expert routing and conditional execution (R94-R112). -/

namespace Sys2Proof.Machine

open Sys2Proof

/-! ## Route tables (R94, R95) -/

/-- A route table entry. -/
structure RtEnt where
  quota : Nat
  base : Nat
  target : Nat
  identity : Bool
  multi : Bool
  disabled : Bool
  rsv : Bool
deriving DecidableEq, Repr

/-- A route table. -/
structure RtTab where
  experts : Nat
  topk : Nat
  gate : Nat
  norm : Nat
  ovf : Nat
  fallback : Nat
  layer : Nat
  scale : W32
  bias : Nat
  rsv : Bool
  ents : List RtEnt
deriving DecidableEq, Repr

/-- One entry at a bench address. -/
def rtEnt (m : Mem) (a : Nat) : RtEnt :=
  let f := leNat (m.read (a + 6) 1)
  { quota := leNat (m.read a 2), base := leNat (m.read (a + 2) 2), target := leNat (m.read (a + 4) 2),
    identity := f % 2 == 1, multi := f / 2 % 2 == 1, disabled := f / 4 % 2 == 1,
    rsv := decide (f / 8 ≠ 0) || decide (leNat (m.read (a + 7) 1) ≠ 0) }

/-- The route table at a bench address, with at most 256 entries. -/
def rtTab (m : Mem) (a : Nat) : RtTab :=
  let n (i k : Nat) : Nat := leNat (m.read (a + i) k)
  { experts := n 0 2, topk := n 2 1, gate := n 3 1, norm := n 4 1, ovf := n 5 1, fallback := n 6 1, layer := n 7 1,
    scale := BitVec.ofNat 32 (n 8 4), bias := n 12 4, rsv := decide (n 16 16 ≠ 0),
    ents := (List.range (min (n 0 2) 256)).map fun e => rtEnt m (a + 0x20 + 8 * e) }

/-- The entry of an expert. -/
def RtTab.ent (t : RtTab) (e : Nat) : RtEnt := t.ents.getD e ⟨0, 0, 0, false, false, true, false⟩

/-- The experts a gate may choose. -/
def RtTab.usable (t : RtTab) : List Nat := (List.range t.experts).filter fun e => !(t.ent e).disabled

/-- The members of a multicast group of a core's plan. -/
def groupOf (s : State) (c : Lcid) (g : Nat) : Option GroupEnt :=
  (s.planOf c).bind fun p => p.groups.find? fun x => x.group == g

/-- Receiving cores of an entry. -/
def RtEnt.cores (e : RtEnt) (s : State) (c : Lcid) : List Lcid :=
  if e.multi then ((groupOf s c e.target).map fun g => g.members).getD [] else [BitVec.ofNat 16 e.target]

/-- The receiving cores an entry names stand in the floor plan; a group that the plan does not define names none (R95). -/
def RtEnt.targetOk (e : RtEnt) (s : State) (c : Lcid) : Bool :=
  let l := e.cores s c
  !l.isEmpty && l.all fun m => validLcid m && (s.serving m).isSome

/-- What RCFG validates (R95). An IDENTITY entry receives nothing, so its TARGET names no receiving core. -/
def rtOk (t : RtTab) (s : State) (c : Lcid) : Bool :=
  !t.rsv && t.ents.all (fun e => !e.rsv) && decide (t.gate ≤ 3) && decide (t.norm ≤ 1) && decide (t.ovf ≤ 1)
  && decide (1 ≤ t.experts) && decide (t.experts ≤ 256) && decide (1 ≤ t.topk) && decide (t.topk ≤ 16)
  && decide (t.topk ≤ t.usable.length)
  && (t.ovf == 0 || (decide (t.fallback < t.experts) && !(t.ent t.fallback).disabled && !(t.ent t.fallback).identity))
  && t.ents.all fun e => e.identity || e.targetOk s c

/-- A route context that is bound; else ROUTE_STATE (R96). -/
def CoreCtx.rctx (k : CoreCtx) (o : Op) : Tr RouteCtx :=
  match Tab.get k.route (o.mod.toNat % 4) with
  | some r => if r.bound then .ok r else .error (.trap 0xD)
  | none => .error (.trap 0xD)

/-- RCFG: binds a context to a table, a slot list and a record area (R95). -/
def bodyRcfg (c : Lcid) (o : Op) (s : State) (k : CoreCtx) : Tr CoreCtx := do
    let a := (← k.addr o.a).toNat
    let l := (← k.addr o.b).toNat
    let area := (simm o).toNat
    need (!(Tab.get k.route (o.mod.toNat % 4)).isSome) 0xD
    k.access a 0x20
    let t := rtTab k.bench a
    k.access a (0x20 + 8 * min t.experts 256)
    need (rtOk t s c) 0xD
    return { k with route := Tab.set k.route (o.mod.toNat % 4) ⟨true, a, l, area, [], (area, 0)⟩ }

/-- RCFG. -/
def execRcfg (c : Lcid) (o : Op) (s : State) : Out :=
  issueK c 0x90 ⟨.no, .s, .s, 3, 0xFFFFFFFF, false⟩ o s (bodyRcfg c o s)

/-! ## Gates and selection (R97-R99) -/

/-- A float result with its flags, chained. -/
abbrev WF := W32 × Fl

/-- The larger of two numbers, a NaN left out. -/
def maxNum (a b : W32) : W32 := if isNan a then b else if isNan b then a else if (val32 a).lt false (val32 b) then b else a

/-- A score ranks before another: higher first, NaN last, ties by the lower expert index (R98). -/
def ranksBefore (a b : Nat × W32) : Bool :=
  if isNan a.2 then (isNan b.2 && decide (a.1 < b.1))
  else if isNan b.2 then true
  else if (val32 b.2).lt false (val32 a.2) then true
  else if (val32 a.2).lt false (val32 b.2) then false
  else decide (a.1 < b.1)

/-- Inserts into a list kept in rank order. -/
def rankIn (x : Nat × W32) : List (Nat × W32) → List (Nat × W32)
  | [] => [x]
  | y :: l => if ranksBefore x y then x :: y :: l else y :: rankIn x l

/-- The gates of every usable expert for a row of logits, and the flags raised; SOFTMAX_TOPK has none before selection. -/
def gates (t : RtTab) (z : Nat → W32) : List (Nat × W32) × Fl :=
  match t.gate with
  | 0 =>
    let m := t.usable.foldl (fun m e => maxNum m (z e)) 0x7FC00000
    let p := t.usable.map fun e => let d := fsub (z e) m; let x := fexp d.1; (e, x.1, d.2 ||| x.2)
    let sum := p.foldl (fun (acc : WF) e => let r := fadd acc.1 e.2.1; (r.1, acc.2 ||| r.2)) (0, 0)
    let g := p.map fun e => let r := fdiv e.2.1 sum.1; (e.1, r.1, e.2.2 ||| r.2)
    (g.map fun e => (e.1, e.2.1), g.foldl (fun f e => f ||| e.2.2) sum.2)
  | 2 =>
    let g := t.usable.map fun e => (e, vfuncW 5 (z e))
    (g.map fun e => (e.1, e.2.1), g.foldl (fun f e => f ||| e.2.2) 0)
  | _ => (t.usable.map fun e => (e, (fadd (z e) 0x80000000).1), 0)

/-- The chosen experts in rank order with their final weights, and the flags raised (R97-R99). -/
def choose (t : RtTab) (z b : Nat → W32) : List (Nat × W32) × Fl :=
  let (g, f0) := gates t z
  let base : List (Nat × W32) := if t.gate = 1 then t.usable.map (fun e => (e, z e)) else g
  let scores := base.map fun e => let r := fadd e.2 (b e.1); (e.1, r.1, r.2)
  let ranked := (scores.foldl (fun l e => rankIn (e.1, e.2.1) l) []).take t.topk
  let f1 := scores.foldl (fun f e => f ||| e.2.2) f0
  let (w, f2) : List (Nat × W32 × W32) × Fl :=
    if t.gate = 1 then
      let m := ((ranked.head?).map fun e => z e.1).getD 0
      let p := ranked.map fun e => let d := fsub (z e.1) m; let x := fexp d.1; (e, x.1, d.2 ||| x.2)
      let sum := p.foldl (fun (acc : WF) e => let r := fadd acc.1 e.2.1; (r.1, acc.2 ||| r.2)) (0, 0)
      let q := p.map fun e => let r := fdiv e.2.1 sum.1; (e.1.1, e.1.2, r.1, e.2.2 ||| r.2)
      (q.map fun e => (e.1, e.2.1, e.2.2.1), q.foldl (fun f e => f ||| e.2.2.2) sum.2)
    else (ranked.map fun e => (e.1, e.2, (Tab.get g e.1).getD 0), 0)
  let (w, f3) : List (Nat × W32 × W32) × Fl :=
    if t.norm = 1 then
      let sum := w.foldl (fun (acc : WF) e => let r := fadd acc.1 e.2.2; (r.1, acc.2 ||| r.2)) (0, 0)
      let q := w.map fun e => let r := fdiv e.2.2 sum.1; (e.1, e.2.1, r.1, r.2)
      (q.map fun e => (e.1, e.2.1, e.2.2.1), q.foldl (fun f e => f ||| e.2.2.2) sum.2)
    else (w, 0)
  let out := w.map fun e =>
    let r := fmul e.2.2 t.scale
    (e.1, if isNan e.2.1 then (0x7FC00000 : W32) else r.1, r.2)
  let f4 := out.foldl (fun f e => f ||| e.2.2) (f1 ||| f2 ||| f3)
  let raised := scores.any (fun e => isNan e.2.1 && !isNan (z e.1)) || out.any (fun e => isNan e.2.1 && !isNan (z e.1))
  (out.map fun e => (e.1, e.2.1), if raised then f4 ||| flInv else f4)

/-! ## Capacity (R101) -/

/-- A slot settled: chosen expert, weight, receive slot, and whether sent, identity, fallback, merged, dropped. -/
structure Slot where
  expert : Nat
  weight : W32
  slot : Nat
  sent : Bool
  identity : Bool
  fallback : Bool
  merged : Bool
  dropped : Bool
deriving DecidableEq, Repr

/-- A slot of a chosen expert, before it is settled. -/
def Slot.of (e : Nat) (w : W32) : Slot := ⟨e, w, 0, false, false, false, false, false⟩

/-- Settling state of one token: slots so far, quota used, and flags raised by merges. -/
structure Settle where
  slots : List Slot
  used : Tab Nat
  fl : Fl
deriving DecidableEq, Repr

/-- An earlier rank of the token holds a dispatched slot at an expert. -/
def Settle.held (a : Settle) (e : Nat) : Bool := a.slots.any fun x => x.sent && x.expert == e

/-- Adds a weight to the token's slot at an expert, and writes the slot that gave it as MERGED. -/
def Settle.merge (a : Settle) (dst e : Nat) (w : W32) : Settle :=
  let fl := a.slots.foldl (fun f x => if x.sent && x.expert == dst then f ||| (fadd x.weight w).2 else f) a.fl
  { a with
    slots := (a.slots.map fun x => if x.sent && x.expert == dst then { x with weight := (fadd x.weight w).1 } else x)
      ++ [{ Slot.of e 0 with merged := true }]
    fl := fl }

/-- Takes a receive slot of an expert. -/
def Settle.take (a : Settle) (t : RtTab) (e : Nat) (w : W32) (fb : Bool) : Settle :=
  let u := Tab.getD a.used e 0
  { a with slots := a.slots ++ [{ Slot.of e w with slot := (t.ent e).base + u, sent := true, fallback := fb }],
           used := Tab.set a.used e (u + 1) }

/-- Settles one slot in rank order (R101). -/
def Settle.step (t : RtTab) (a : Settle) (p : Nat × W32) : Settle :=
  let (e, w) := p
  let drop : Settle := { a with slots := a.slots ++ [{ Slot.of e w with dropped := true }] }
  if (t.ent e).identity then { a with slots := a.slots ++ [{ Slot.of e w with identity := true }] }
  else if a.held e then a.merge e e w
  else if Tab.getD a.used e 0 < (t.ent e).quota then a.take t e w false
  else if t.ovf = 0 then drop
  else if a.held t.fallback then a.merge t.fallback e w
  else if Tab.getD a.used t.fallback 0 < (t.ent t.fallback).quota then a.take t t.fallback w true
  else drop

/-- A dispatch record in 128 bits (R103). -/
def recWord (weight : W32) (seq expert src slot token rank layer : Nat) (last merged fallback dropped poison : Bool) : BitVec 128 :=
  let b (x : Bool) (n : Nat) : Nat := if x then 2 ^ n else 0
  BitVec.ofNat 128 (weight.toNat * 2 ^ 96 + seq % 2 ^ 17 * 2 ^ 79 + expert % 256 * 2 ^ 64 + src % 2 ^ 16 * 2 ^ 48
    + slot % 2 ^ 16 * 2 ^ 32 + token % 2 ^ 12 * 2 ^ 20 + rank % 16 * 2 ^ 16 + layer % 256 * 2 ^ 8
    + b last 4 + b merged 3 + b fallback 2 + b dropped 1 + b poison 0)

/-- Fields of a record. -/
def recToken (r : BitVec 128) : Nat := r.toNat / 2 ^ 20 % 2 ^ 12
/-- RANK. -/
def recRank (r : BitVec 128) : Nat := r.toNat / 2 ^ 16 % 16
/-- EXPERT. -/
def recExpert (r : BitVec 128) : Nat := r.toNat / 2 ^ 64 % 256
/-- DEST_SLOT. -/
def recSlot (r : BitVec 128) : Nat := r.toNat / 2 ^ 32 % 2 ^ 16
/-- SRC_LCID. -/
def recSrc (r : BitVec 128) : Nat := r.toNat / 2 ^ 48 % 2 ^ 16
/-- SRC_LCID, EXPERT and LAYER together: the source, expert and layer whose rows a LAST record ends (R104). -/
def recRun (r : BitVec 128) : Nat × Nat × Nat := (recSrc r, recExpert r, r.toNat / 256 % 256)
/-- TOKEN, RANK and LAYER together: bits [31:8]. -/
def recKey (r : BitVec 128) : Nat := r.toNat / 256 % 2 ^ 24
/-- The record names a row that is sent: neither dropped, merged, nor of an identity expert. -/
def recSent (t : RtTab) (r : BitVec 128) : Bool := !r.getLsbD 1 && !r.getLsbD 3 && !(t.ent (recExpert r)).identity

/-- What RGATE does to one token: its records, the quota used, the counts and the flags. -/
structure GateOut where
  recs : List (BitVec 128)
  used : Tab Nat
  fl : Fl
  slots : List Slot
  poisoned : Nat
deriving DecidableEq, Repr

/-- One token of RGATE (R97-R103). -/
def gateToken (t : RtTab) (c : Lcid) (z b : Nat → W32) (bad : Bool) (seq token : Nat) (g : GateOut) : GateOut :=
  if bad then
    { g with
      recs := g.recs ++ (List.range t.topk).map fun r => recWord 0 seq 0 c.toNat 0 token r t.layer false false false true true
      poisoned := g.poisoned + t.topk }
  else
    let (picks, fl) := choose t z b
    let a := picks.foldl (Settle.step t) ⟨[], g.used, 0⟩
    { g with
      recs := g.recs ++ (List.range a.slots.length).map fun r =>
        let x := a.slots.getD r (Slot.of 0 0)
        recWord x.weight seq x.expert c.toNat (if x.sent then x.slot else 0) token r t.layer false x.merged x.fallback x.dropped
          false
      used := a.used, fl := g.fl ||| fl ||| a.fl, slots := g.slots ++ a.slots }

/-- Adds to a count of a context (R110). -/
def CoreCtx.bumpRoute (k : CoreCtx) (ctx n by_ : Nat) : CoreCtx :=
  { k with routeCounts := Tab.set k.routeCounts (8 * ctx + n) (Tab.getD k.routeCounts (8 * ctx + n) 0 + by_) }

/-- Adds to the per-plan counter of a count too; a zero count adds nothing. -/
def countRoute (slot n by_ : Nat) (s : State) : State := if by_ = 0 then s else inc (.route slot n) by_ s

/-- RGATE: selects and settles for logit tile da; sd is the count of records to send (R97-R103, R109). -/
def bodyRgate (c : Lcid) (o : Op) (s : State) (k : CoreCtx) : Tr (CoreCtx × State) := do
    let r ← k.rctx o
    let ctx := o.mod.toNat % 4
    let t := rtTab k.bench r.table
    let d := tileD (k.dreg o.a)
    d.check
    need (decide (d.fmt ≤ 1)) 7
    need (decide (d.cols = t.experts) && decide (d.rows ≤ 4096)) 6
    d.canRead k
    need (decide (t.bias % 4 = 0)) 5
    k.access t.bias (if t.bias = 0 then 0 else 4 * t.experts)
    let list ← k.rd r.list (4 * d.rows)
    need ((List.range d.rows).all fun i => decide (field list (4 * i) 4 < 2 ^ 17)) 2
    let src := tileSrc k d
    let b (e : Nat) : W32 := if t.bias = 0 then 0 else BitVec.ofNat 32 (leNat (Mem.read k.bench (t.bias + 4 * e) 4))
    let out := (List.range d.rows).foldl
      (fun g i => gateToken t c (fun e => (src.get i e).1) b ((List.range d.cols).any fun e => (src.get i e).2)
        (field list (4 * i) 4) i g) ⟨[], r.used, 0, [], 0⟩
    let bytes := out.recs.flatMap fun w => leBytes 16 w.toNat
    let k' ← k.wr r.area bytes false
    let sent := (out.slots.filter fun x => x.sent).length
    let fb := (out.slots.filter fun x => x.fallback).length
    let mg := (out.slots.filter fun x => x.merged).length
    let dr := (out.slots.filter fun x => x.dropped).length
    let k' := { k' with route := Tab.set k'.route ctx { r with used := out.used, records := (r.area, out.recs.length) } }
    let k' := ((((k'.bumpRoute ctx 1 fb).bumpRoute ctx 2 mg).bumpRoute ctx 3 dr).bumpRoute ctx 4 out.poisoned).orFlags out.fl
    let t' := countRoute k.slot 4 out.poisoned (countRoute k.slot 3 dr (countRoute k.slot 2 mg (countRoute k.slot 1 fb s)))
    let t' := (List.range t.experts).foldl
      (fun u e =>
        let n := (out.slots.filter fun x => x.sent && x.expert == e).length
        if n = 0 then u else incP (.expert k.slot e) n u) t'
    return (((k'.sset o.dst (BitVec.ofNat 64 sent) false).eat (decide (0 < out.poisoned))).step, t')

/-- RGATE. -/
def execRgate (c : Lcid) (o : Op) (s : State) : Out :=
  issue c 0x91 ⟨.s, .d, .no, 3, 0, false⟩ o s (bodyRgate c o s)

/-! ## Sending and receiving rows (R104-R106) -/

/-- Row `i` of a tile: its packed element bytes, its scale bytes, and whether any of it is poisoned. -/
def rowOf (k : CoreCtx) (t : TileD) (i : Nat) : List Byte × List Byte × Bool :=
  let nb := ceilDiv t.cols 32
  (packCodes (fmtBits t.fmt) ((List.range t.cols).map fun j => t.code k i j),
   if isMx t.fmt && !t.noscale then Mem.read k.bench (t.scale + i * nb) nb else [],
   (List.range t.cols).any fun j => t.bad k false i j)

/-- The bench bytes that put a row's element and scale bytes into row `i` of a tile. -/
def rowPut (t : TileD) (i : Nat) (l sc : List Byte) (poison : Bool) : List (Nat × Byte × Bool) :=
  let w := fmtBits t.fmt
  let el :=
    if t.trans then
      (List.range t.cols).flatMap fun j =>
        (List.range (w / 8)).map fun q => ((t.place i j).1 + q, l.getD (j * (w / 8) + q) 0, poison)
    else (List.range (ceilDiv (t.cols * w) 8)).map fun q => (t.base + i * t.pitch + q, l.getD q 0, poison)
  let nb := ceilDiv t.cols 32
  el ++ (if isMx t.fmt && !t.noscale then (List.range nb).map fun q => (t.scale + i * nb + q, sc.getD q 0, poison) else [])

/-- A message of a record and its row, cut into flits (R103, R104). -/
def rowFlits (w : BitVec 128) (l : List Byte) (poison : Bool) : List (Nat × List Byte × Bool) :=
  let m := leBytes 16 w.toNat ++ l
  (List.range (ceilDiv m.length 64)).map fun i => (64 * i, slice m (64 * i) 64, poison)

/-- DEFAULT_STREAM of a core's network section; none without one (R238, R241). -/
def defaultStream (s : State) (c : Lcid) : Option Nat :=
  (s.planOf c).bind fun p =>
    (p.nets.find? fun x => x.lcid == c).bind fun x => if x.stream = 255 then none else some x.stream

/-- Sends one message of an instruction to cores; the path off the stack must exist, else NET_STATE (R241). -/
def sendRow (c : Lcid) (batch : Nat) (dests : List Lcid) (ret : Nat) (w : BitVec 128) (l : List Byte) (poison : Bool)
    (st : CoreCtx × State) : Tr (CoreCtx × State) := do
  let x := NetXfer.init 6 0 ret (defaultStream st.2 c) dests (rowFlits w l poison)
  need (streamReaches st.2 c x) 0x12
  return startNet c st.1 batch x st.2

/-- RSEND: sends the token rows of tile da for the context's records; with FINAL, then one LAST record to every TARGET that
is neither IDENTITY nor DISABLED (R104). -/
def bodyRsend (c : Lcid) (o : Op) (s : State) (k : CoreCtx) : Tr (CoreCtx × State) := do
    let r ← k.rctx o
    let t := rtTab k.bench r.table
    let d := tileD (k.dreg o.a)
    d.canRead k
    let recs ← k.rd r.records.1 (16 * r.records.2)
    let words := (List.range r.records.2).map fun i => (BitVec.ofNat 128 (field recs (16 * i) 16), k.dirty (r.records.1 + 16 * i) 16)
    let out := words.filter fun w => recSent t w.1
    need (out.all fun w => decide (recToken w.1 < d.rows)) 6
    await k.netRoom
    let st ← out.foldlM (fun st w => do
      let row := rowOf k d (recToken w.1)
      sendRow c k.nextXfer ((t.ent (recExpert w.1)).cores s c) 0 w.1 (row.1 ++ row.2.1) (row.2.2 || w.2) st) (k, s)
    let st ← (if o.mod.getLsbD 2 then
        ((List.range t.experts).filter fun e => !(t.ent e).identity && !(t.ent e).disabled).foldlM
          (fun st e => sendRow c k.nextXfer ((t.ent e).cores s c) 0 (recWord 0 0 e c.toNat 0 0 0 t.layer true false false false false) [] false st) st
      else pure st)
    let bad := out.any fun w => w.2 || (rowOf k d (recToken w.1)).2.2
    return (((st.1.bumpRoute (o.mod.toNat % 4) 0 out.length).eat bad).step, countRoute k.slot 0 out.length st.2)

/-- RSEND. -/
def execRsend (c : Lcid) (o : Op) (s : State) : Out :=
  issue c 0x92 ⟨.no, .d, .no, 7, 0, false⟩ o s (bodyRsend c o s)

/-- A receive list: ROWS, the record copy area, and per source its core, first slot and quota (R105). -/
structure RecvList where
  rows : Nat
  copy : Nat
  srcs : List (Nat × Nat × Nat)
deriving DecidableEq, Repr

/-- The receive list at a bench address. -/
def recvList (m : Mem) (a : Nat) : RecvList :=
  { rows := leNat (m.read (a + 2) 4), copy := leNat (m.read (a + 6) 4),
    srcs := (List.range (min (leNat (m.read a 2)) 4096)).map fun i =>
      (leNat (m.read (a + 16 + 8 * i) 2), leNat (m.read (a + 18 + 8 * i) 2), leNat (m.read (a + 20 + 8 * i) 2)) }

/-- Checks and reads a receive list. -/
def CoreCtx.readList (k : CoreCtx) (a : Nat) : Tr RecvList := do
  k.access a 16
  let l := recvList k.bench a
  k.access a (16 + 8 * l.srcs.length)
  return l

/-- The network cannot deliver from a source core: its stack is gone or the quadrant it runs in is in reset (R105, R248). -/
def State.srcGone (s : State) (c : Lcid) : Bool :=
  s.stackGone (lcStack c) || (match s.serving c with | some n => s.quadGone (siteQuad n) | none => true)

/-- The messages that complete a source's part of a receive buffer: a list names no expert or layer, so those of the first LAST record
of the source that no RRECV has taken yet (R104, DESIGN CHOICE, log 105). -/
def CoreCtx.runOf (k : CoreCtx) (src : Nat) : Option (Nat × Nat × Nat) := (k.lasts.find? fun r => recSrc r == src).map recRun

/-- RRECV: waits for the LAST record of every source, zero-fills slots and records that received no row, and poisons the
slots of an unreachable source (R105). -/
def bodyRrecv (o : Op) (s : State) (k : CoreCtx) : Tr CoreCtx := do
    let l ← k.readList (← k.addr o.a).toNat
    let d := tileD (k.dreg o.dst)
    d.canWrite k
    need (decide (d.rows = l.rows)) 6
    k.canWrite l.copy (16 * l.rows)
    let gone := l.srcs.filter fun e => s.srcGone (BitVec.ofNat 16 e.1)
    await (l.srcs.all fun e => (k.runOf e.1).isSome || gone.contains e)
    let runs := l.srcs.filterMap fun e => k.runOf e.1
    let mine := fun (r : Nat × BitVec 128 × List Byte × Bool) => runs.contains (recRun r.2.1)
    let lost (i : Nat) : Bool := gone.any fun e => decide (e.2.1 ≤ i) && decide (i < e.2.1 + e.2.2)
    let nb := ceilDiv (d.cols * fmtBits d.fmt) 8
    let bytes := (List.range l.rows).flatMap fun i =>
      match k.rows.find? fun r => mine r && r.1 == i && !lost i with
      | some r => rowPut d i (slice r.2.2.1 0 nb) (r.2.2.1.drop nb) r.2.2.2 ++ runOf (l.copy + 16 * i) (leBytes 16 r.2.1.toNat) false
      | none => rowPut d i [] [] (lost i) ++ runOf (l.copy + 16 * i) (List.replicate 16 0) false
    let k' := k.put bytes
    let k' := { k' with rows := k.rows.filter (fun r => !mine r), lasts := k.lasts.filter fun x => !runs.contains (recRun x) }
    return k'.sset o.dst (if gone.isEmpty then 0 else BitVec.ofNat 64 (Status.code .unavail)) false

/-- RRECV. -/
def execRrecv (c : Lcid) (o : Op) (s : State) : Out :=
  issueK c 0x93 ⟨.ds, .s, .no, 0, 0, false⟩ o s (bodyRrecv o s)

/-- RRET: returns the output rows of tile da whose record copies are not zero to their sources (R106). -/
def bodyRret (c : Lcid) (o : Op) (s : State) (k : CoreCtx) : Tr (CoreCtx × State) := do
    let l ← k.readList (← k.addr o.a).toNat
    let d := tileD (k.dreg o.a)
    d.canRead k
    need (decide (d.rows = l.rows)) 6
    let recs ← k.rd l.copy (16 * l.rows)
    await k.netRoom
    let live := (List.range l.rows).filter fun i => decide (field recs (16 * i) 16 ≠ 0)
    let st ← live.foldlM (fun st i => do
      let w := BitVec.ofNat 128 (field recs (16 * i) 16)
      let row := rowOf k d i
      sendRow c k.nextXfer [BitVec.ofNat 16 (recSrc w)] 1 w (row.1 ++ row.2.1) (row.2.2 || k.dirty (l.copy + 16 * i) 16) st) (k, s)
    return (st.1.step, st.2)

/-- RRET. -/
def execRret (c : Lcid) (o : Op) (s : State) : Out :=
  issue c 0x94 ⟨.no, .ds, .no, 0, 0, false⟩ o s (bodyRret c o s)

/-- The combination of one element (R106). -/
def combine (l : List (W32 × W32)) : WF :=
  l.foldl (fun (acc : WF) e => let r := ffma e.1 e.2 acc.1; (r.1, acc.2 ||| r.2)) (0, 0)

/-- RCOMB: dd = the combination of returns da and inputs db under the context's records; it waits for a return row that has
not arrived (R106). -/
def bodyRcomb (o : Op) (k : CoreCtx) : Tr CoreCtx := do
    let r ← k.rctx o
    let t := rtTab k.bench r.table
    let a := tileD (k.dreg o.a)
    let b := tileD (k.dreg o.b)
    let d := tileD (k.dreg o.dst)
    let n := r.records.2 / t.topk
    a.canWrite k
    b.canRead k
    d.canWrite k
    need (decide (a.fmt ≤ 6) && decide (b.fmt ≤ 6)) 7
    need (decide (d.rows = n) && decide (n * t.topk ≤ a.rows) && decide (n ≤ b.rows) && decide (a.cols = d.cols)
      && decide (b.cols = d.cols)) 6
    let recs ← k.rd r.records.1 (16 * r.records.2)
    let word (i j : Nat) : BitVec 128 := BitVec.ofNat 128 (field recs (16 * (i * t.topk + j)) 16)
    let all := (List.range n).flatMap fun i => (List.range t.topk).map fun j => word i j
    let wanted := all.filter (recSent t)
    let got (w : BitVec 128) := k.returns.find? fun x => x.1 == recKey w
    await (wanted.all fun w => (got w).isSome)
    let nb := ceilDiv (a.cols * fmtBits a.fmt) 8
    let k1 := k.put (wanted.flatMap fun w =>
      match got w with
      | some x => rowPut a (recToken w * t.topk + recRank w) (slice x.2.1 0 nb) (x.2.1.drop nb) x.2.2
      | none => [])
    let terms (i j : Nat) : List (W32 × W32 × Bool) := (List.range t.topk).filterMap fun q =>
      let w := word i q
      if w.getLsbD 1 || w.getLsbD 3 then none
      else
        let weight : W32 := (w >>> 96).setWidth 32
        if (t.ent (recExpert w)).identity then some (weight, (to32 (b.val k1 false i j)).1, b.bad k1 false i j)
        else some (weight, (to32 (a.val k1 false (i * t.topk + q) j)).1, a.bad k1 false (i * t.topk + q) j)
    let drowned (i : Nat) : Bool := (List.range t.topk).any fun q =>
      (word i q).getLsbD 0 || k1.dirty (r.records.1 + 16 * (i * t.topk + q)) 16
    let cells := (List.range n).map fun i => (List.range d.cols).map fun j =>
      let l := terms i j
      (combine (l.map fun e => (e.1, e.2.1)), drowned i || l.any fun e => e.2.2)
    let fl := cells.foldl (fun f l => l.foldl (fun f e => f ||| e.1.2) f) (0 : Fl)
    let k2 ← d.store k1 (cells.map fun l => l.map fun e => (val32 e.1.1, e.2))
    let k2 := { k2 with returns := k2.returns.filter fun x => !wanted.any fun w => recKey w == x.1 }
    return (k2.orFlags fl).eat (cells.any fun l => l.any fun e => e.2)

/-- RCOMB. -/
def execRcomb (c : Lcid) (o : Op) (s : State) : Out :=
  issueK c 0x95 ⟨.d, .d, .d, 3, 0, false⟩ o s (bodyRcomb o)

/-! ## Early exit (R107) -/

/-- REXIT: sd = the exit mask of a column of at most 64 scores against the threshold in sb[31:0]; NaN never exits (R107). -/
def bodyRexit (o : Op) (s : State) (k : CoreCtx) : Tr (CoreCtx × State) := do
    let d := tileD (k.dreg o.a)
    d.check
    need (decide (d.fmt ≤ 1)) 7
    need (decide (d.cols = 1) && decide (d.rows ≤ 64)) 6
    d.canRead k
    let src := tileSrc k d
    let th : W32 := (k.sreg o.b).setWidth 32
    let hit (i : Nat) : Bool :=
      let v := (src.get i 0).1
      !isNan v && !isNan th && !(val32 v).lt false (val32 th)
    let hits := (List.range d.rows).filter hit
    let bad := k.sbad o.b || (List.range d.rows).any fun i => (src.get i 0).2
    let v := BitVec.ofNat 64 (hits.foldl (fun n i => n + 2 ^ i) 0)
    return ((((k.sset o.dst v bad).eat bad).bumpRoute 0 5 hits.length).step, countRoute k.slot 5 hits.length s)

/-- REXIT. -/
def execRexit (c : Lcid) (o : Op) (s : State) : Out :=
  issue c 0x96 ⟨.s, .d, .s, 0, 0, false⟩ o s (bodyRexit o s)

/-- RCOMPACT: the rows of da whose bit in sb is clear to dd, their count to sd, their original indices to IMM (R107). -/
def bodyRcompact (o : Op) (k : CoreCtx) : Tr CoreCtx := do
    let d := tileD (k.dreg o.dst)
    let a := tileD (k.dreg o.a)
    a.canRead k
    d.canWrite k
    need (a.sameForm d) 7
    let keep := (List.range a.rows).filter fun i => !(k.sreg o.b).getLsbD i
    need (decide (a.rows ≤ 64) && decide (a.cols = d.cols) && decide (keep.length ≤ d.rows)) 6
    let at_ := (simm o).toNat
    k.canWrite at_ (2 * keep.length)
    let ctl := k.sbad o.b
    let rows := (List.range keep.length).flatMap fun n =>
      let r := rowOf k a (keep.getD n 0)
      rowPut d n r.1 r.2.1 (r.2.2 || ctl)
    let ix := runOf at_ (keep.flatMap fun i => leBytes 2 i) ctl
    let bad := ctl || keep.any fun i => (rowOf k a i).2.2
    return ((k.put (rows ++ ix)).sset o.dst (BitVec.ofNat 64 keep.length) ctl).eat bad

/-- RCOMPACT. -/
def execRcompact (c : Lcid) (o : Op) (s : State) : Out :=
  issueK c 0x97 ⟨.ds, .d, .s, 0, 0xFFFFFFFF, false⟩ o s (bodyRcompact o)

/-- RSTAT: sd = a route count of the context; 6 and 7 are reserved (R110). -/
def bodyRstat (o : Op) (k : CoreCtx) : Tr CoreCtx := do
    let n := o.imm.toNat
    need (decide (n ≤ 5)) 2
    let _ ← k.rctx o
    let i := if n = 5 then 5 else 8 * (o.mod.toNat % 4) + n
    return k.sset o.dst (BitVec.ofNat 64 (Tab.getD k.routeCounts i 0)) false

/-- RSTAT. -/
def execRstat (c : Lcid) (o : Op) (s : State) : Out :=
  issueK c 0x98 ⟨.s, .no, .no, 3, 7, false⟩ o s (bodyRstat o)

end Sys2Proof.Machine
end

