-- ==== Sys2Proof/Machine/TableStore.lean ====
section
/-! DEFINITION. Page tables in the table stores: directories, leaves, and the copies a tick makes of them (R177-R180, R186, R202). -/

namespace Sys2Proof.Machine

open Sys2Proof

/-! ## Tables (R177, R179) -/

/-- Tables of a store (R177). -/
def storeTables : Nat := 2813952

/-- Words of a table. -/
def State.table (s : State) (stack i : Nat) : Tab Nat := Tab.getD s.tables (stack * 2 ^ 24 + i) []

/-- Word `j` of a table. -/
def State.tableWord (s : State) (stack i j : Nat) : Nat := Tab.getD (s.table stack i) j 0

/-- Writes a table. -/
def State.setTable (s : State) (stack i : Nat) (t : Tab Nat) : State := { s with tables := Tab.set s.tables (stack * 2 ^ 24 + i) t }

/-- A page-table entry. -/
def Pte.word (e : Pte) : Nat := bit e.retired 27 + bit e.cow 26 + bit e.shared 25 + bit e.valid 24 + e.pfn % 2 ^ 24

/-- A page-table entry of its word; the entry of zero is absent. -/
def pteOf (w : Nat) : Option Pte :=
  if w = 0 then none
  else some { retired := w.testBit 27, cow := w.testBit 26, shared := w.testBit 25, valid := w.testBit 24, pfn := w % 2 ^ 24 }

/-- An entry of a page that KV_RETIRE_PAGES released (R185). -/
def Pte.gone : Pte := { retired := true, cow := false, shared := false, valid := false, pfn := 0 }

/-- An entry that names a page of its own group alone. -/
def Pte.own (pfn : Nat) : Pte := { retired := false, cow := false, shared := false, valid := true, pfn := pfn }

/-- The leaf a directory names at an index (R179). -/
def State.leafOf (s : State) (stack dir n : Nat) : Option Nat :=
  let w := s.tableWord stack dir n
  if w.testBit 24 then some (w % 2 ^ 24) else none

/-- The stack of a group's tables: the home of its serving core (R177, R178). -/
def Group.home (g : Group) : Nat := lcStack g.lcid

/-- The entry of a logical page; none where it is zero, or its directory entry is not VALID (R180). -/
def State.entry (s : State) (g : Group) (n : Nat) : Option Pte :=
  match g.dir.bind fun d => s.leafOf g.home d (n / 64) with
  | some t => pteOf (s.tableWord g.home t (n % 64))
  | none => none

/-- The entries of a group, by logical page. -/
def State.pages (s : State) (g : Group) : Tab Pte :=
  match g.dir with
  | none => []
  | some d => (List.range 64).flatMap fun j =>
      match s.leafOf g.home d j with
      | none => []
      | some t => (List.range 64).filterMap fun i => (pteOf (s.tableWord g.home t i)).map fun e => (64 * j + i, e)

/-- A table's line is read with an error (R202). -/
def State.tableBad (s : State) (stack i j : Nat) : Bool :=
  let p := reserveLoc stack (0x29100000 + 256 * i + 4 * j)
  s.linePoison p.1 p.2

/-- The directory or page-table entry of a logical page is read with an error, which poisons the positions it maps (R202). -/
def State.entryBad (s : State) (g : Group) (n : Nat) : Bool :=
  match g.dir with
  | none => false
  | some d =>
    s.tableBad g.home d (n / 64) || match s.leafOf g.home d (n / 64) with | some t => s.tableBad g.home t (n % 64) | none => false

/-- The reserve lines a walk reads to map a logical page: of its directory and its leaf, as site and place. -/
def State.tableLines (s : State) (g : Group) (n : Nat) : List (Nat × Nat) :=
  match g.dir with
  | none => []
  | some d =>
    reserveLoc g.home (0x29100000 + 256 * d + n / 1024 * 64) ::
      match s.leafOf g.home d (n / 64) with | some t => [reserveLoc g.home (0x29100000 + 256 * t + n % 64 / 16 * 64)] | none => []

/-- A position lies in a VALID page but was retired or masked before a move (log 107). -/
def Group.inGap (g : Group) (t : Nat) : Bool := g.gaps.any fun x => decide (x.1 ≤ t) && decide (t < x.1 + x.2)

/-- The page that holds a position whose contents are kept and scored: VALID and not RETIRED (R179, R180). -/
def State.keptAt (s : State) (g : Group) (t : Nat) : Option Nat :=
  match s.entry g (t / 2 ^ g.pageLog2) with
  | some e => if e.valid && !e.retired && !g.inGap t then some e.pfn else none
  | none => none

/-! ## Sequences -/

/-- Writes a sequence record. -/
def State.setSeq (s : State) (slot : Nat) (r : SeqRec) : State := { s with seqs := Tab.set s.seqs slot r }

/-- Changes every group of a sequence record by its number. -/
def SeqRec.mapGroups (r : SeqRec) (f : Nat → Group → Group) : SeqRec :=
  { r with groups := (List.range r.groups.length).map fun i => f i (r.groups.getD i Group.init) }

/-- Changes a group of a sequence. -/
def modGroup (slot g : Nat) (f : Group → Group) (s : State) : State :=
  match Tab.get s.seqs slot with
  | none => s
  | some r => s.setSeq slot (r.mapGroups fun i x => if i = g then f x else x)

/-- The groups of a sequence. -/
def State.groupsOf (s : State) (slot : Nat) : List Group := match Tab.get s.seqs slot with | some r => r.groups | none => []

/-- A group of a sequence. -/
def State.groupAt (s : State) (slot g : Nat) : Option Group := (s.groupsOf slot)[g]?

/-! ## Copies (R186) -/

/-- The shadow of a group in a list. -/
def shadowIn (l : List Shadow) (slot g : Nat) : Option Shadow := l.find? fun h => h.slot == slot && h.group == g

/-- The shadow of a group: what the tick's appends and its commands' edits have copied. -/
def State.shadowAt (s : State) (slot g : Nat) : Option Shadow :=
  match shadowIn s.shadows slot g, shadowIn s.work.shadows slot g with
  | some a, some b => some { a with leaves := a.leaves ++ b.leaves.filter fun e => (Tab.get a.leaves e.1).isNone }
  | some a, none => some a
  | none, x => x

/-- Every shadow, once each. -/
def State.allShadows (s : State) : List Shadow :=
  ((s.shadows ++ s.work.shadows).map fun h => (h.slot, h.group)).eraseDups.filterMap fun p => s.shadowAt p.1 p.2

/-- Tables of a stack's store that are in use: directories and leaves of its sequences, and copies. -/
def State.usedTables (s : State) (stack : Nat) : List Nat :=
  let of_ (g : Group) : List Nat :=
    match g.dir with
    | some d => if g.home = stack then d :: (List.range 64).filterMap (s.leafOf stack d) else []
    | none => []
  ((s.seqs.flatMap fun e => e.2.groups.flatMap of_)
    ++ ((s.shadows ++ s.work.shadows).filter fun h => h.stack == stack).flatMap fun h => h.dir :: h.leaves.map Prod.snd).eraseDups

/-- Free tables of a stack's store. -/
def State.freeTables (s : State) (stack : Nat) : Nat := storeTables - (s.usedTables stack).length

/-- A free table of a stack's store, the first from a place the device begins at (log 46). -/
def State.freeTable (s : State) (stack start : Nat) : Option Nat :=
  let used := s.usedTables stack
  (List.range (min (used.length + 1) storeTables)).findSome? fun d =>
    let i := (start + d) % storeTables
    if used.contains i then none else some i

/-- A list of shadows with one replaced. -/
def putShadow (h : Shadow) (l : List Shadow) : List Shadow := l.filter (fun x => !(x.slot == h.slot && x.group == h.group)) ++ [h]

/-- Gives a group copies of its directory and of leaf `n`, in the shadow of the tick's appends (`work`) or of its commands' edits; none
where the store has no table for them. -/
def copyLeaf (work : Bool) (slot gi n : Nat) (s : State) : Option State :=
  match s.groupAt slot gi with
  | none => some s
  | some g =>
    let put (h : Shadow) (s : State) : State :=
      if work then { s with work := { s.work with shadows := putShadow h s.work.shadows } } else { s with shadows := putShadow h s.shadows }
    let seen := s.shadowAt slot gi
    (match seen with | some h => some h.dir | none => s.freeTable g.home (Config.tableIndex slot gi 0)).bind fun d =>
      let h := (shadowIn (if work then s.work.shadows else s.shadows) slot gi).getD ⟨slot, gi, g.home, d, []⟩
      let t := put h s
      (match seen.bind fun x => Tab.get x.leaves n with
        | some i => some i
        | none => t.freeTable g.home (Config.tableIndex slot gi (n + 1))).map fun i => put { h with leaves := Tab.set h.leaves n i } t

/-- Fills the copies of a group with what they are copied from, and moves SHADOW into DIR. -/
def openShadow (h : Shadow) (s : State) : State :=
  match s.groupAt h.slot h.group with
  | none => s
  | some g =>
    let words : Tab Nat := match g.dir with | some d => s.table h.stack d | none => []
    let old (n : Nat) : Tab Nat := match g.dir.bind fun d => s.leafOf h.stack d n with | some t => s.table h.stack t | none => []
    let t := h.leaves.foldl (fun t e => t.setTable h.stack e.2 (old e.1)) s
    modGroup h.slot h.group (fun y => { y with dir := some h.dir })
      (t.setTable h.stack h.dir (h.leaves.foldl (fun d e => Tab.set d e.1 (2 ^ 24 + e.2)) words))

/-- A commit opens every shadow: its edits go to the copies (R186). -/
def openShadows (s : State) : State :=
  let l := s.allShadows
  l.foldl (fun t h => openShadow h t) { s with shadows := l, work := { s.work with shadows := [] } }

/-- A group's leaf `n` as a commit may edit it: a copy of the tick, made now if there is none; none where the store has no table. -/
def editLeaf (slot gi n : Nat) (s : State) : Option State :=
  match s.shadowAt slot gi with
  | some h => if (Tab.get h.leaves n).isSome then some s else fresh s
  | none => fresh s
where
  fresh (s : State) : Option State :=
    (copyLeaf false slot gi n s).map fun t =>
      match t.shadowAt slot gi with
      | some h => openShadow { h with leaves := h.leaves.filter fun e => e.1 == n } t
      | none => t

/-- Writes the entry of a logical page in a commit. -/
def putEntry (slot gi page : Nat) (w : Nat) (s : State) : State :=
  match editLeaf slot gi (page / 64) s with
  | none => s
  | some t =>
    match t.groupAt slot gi with
    | none => t
    | some g =>
      match g.dir.bind fun d => t.leafOf g.home d (page / 64) with
      | some i => t.setTable g.home i (Tab.set (t.table g.home i) (page % 64) w)
      | none => t

/-- Ends a shadow: a leaf left without entries leaves the directory, and an empty directory a group of LENGTH 0 (log 46). -/
def closeShadow (h : Shadow) (s : State) : State :=
  match s.groupAt h.slot h.group with
  | none => s
  | some g =>
    if g.dir = some h.dir then
      let empty (e : Nat × Nat) : Bool := (s.table h.stack e.2).all fun w => w.2 == 0
      let t := s.setTable h.stack h.dir ((h.leaves.filter empty).foldl (fun d e => Tab.set d e.1 0) (s.table h.stack h.dir))
      if g.len = 0 ∧ ((List.range 64).all fun j => (t.leafOf h.stack h.dir j).isNone) then
        modGroup h.slot h.group (fun y => { y with dir := none }) t
      else t
    else s

/-- The end of a publication: SHADOW is none again, and the tables left unreferenced are free. -/
def closeShadows (s : State) : State := { s.shadows.foldl (fun t h => closeShadow h t) s with shadows := [] }

end Sys2Proof.Machine
end

