-- ==== Sys2Proof/Machine/Score.lean ====
section
/-! DEFINITION. Scoring: partials, walks over the paged KV cache, appends, merges and normalisation (R171-R203). -/

namespace Sys2Proof.Machine

open Sys2Proof

/-! ## Layouts and positions (R171, R172, R180) -/

/-- Bytes of an element, *e*. -/
def Layout.elem (l : Layout) : Nat := if l.fmt = 1 then 2 else 1
/-- Bytes of a scale row: *d* / 16 for FP8. -/
def Layout.scales (l : Layout) : Nat := if l.fmt = 1 then 0 else l.headDim / 16
/-- Bytes of a key or a value row. -/
def Layout.row (l : Layout) : Nat := l.headDim * l.elem
/-- The token width *W*. -/
def Layout.width (l : Layout) : Nat := l.heads * (2 * l.row + l.scales)

/-- Where a head's K, V and scale rows of offset `o` lie in a page of `t` tokens: start and length. -/
def Layout.rows (l : Layout) (t head o : Nat) : List (Nat × Nat) :=
  let b := head * t * (2 * l.row + l.scales)
  [(b + o * l.row, l.row), (b + (t + o) * l.row, l.row), (b + 2 * t * l.row + o * l.scales, l.scales)]

/-- The bytes of a frame in its slice from a private offset (R115). -/
def State.privBytes (s : State) (site off n : Nat) : List Byte :=
  (List.range n).map fun i => s.byteAt site (privLoc s.cfg.globalSteps (off + i))

/-- The places of the 64-byte lines a private range touches. -/
def State.privLines (s : State) (off n : Nat) : List Nat :=
  if n = 0 then []
  else (List.range ((off + n - 1) / 64 - off / 64 + 1)).map fun i => privLoc s.cfg.globalSteps ((off / 64 + i) * 64)

/-- The descriptor of a frame (R174, R175). -/
def State.descOf (s : State) (pfn : Nat) : Desc :=
  Tab.getD s.descs pfn { lcid := 0, st := .unused, pageLog2 := 0, off := 0, refs := 0, layout := 0, pool := 0 }

/-- A frame's descriptor is read with an error (R202). -/
def State.descBad (s : State) (pfn : Nat) : Bool :=
  let p := reserveLoc (pfn % 20) (0x24000000 + 16 * (pfn / 20))
  s.linePoison p.1 p.2

/-- The maximum length of a group (R181). -/
def maxLen (pageLog2 : Nat) : Nat := min 1048576 (4096 * 2 ^ pageLog2)

/-! ## Partials (R193, R195, R197) -/

/-- A partial descriptor. -/
structure PartD where
  o : Nat
  stat : Nat
  cand : Nat
  rows : Nat
  dim : Nat
  rsv : Bool
deriving DecidableEq, Repr

/-- The descriptor in 16 bytes. -/
def partD (l : List Byte) : PartD :=
  { o := field l 0 4, stat := field l 4 4, cand := field l 8 4, rows := field l 12 1, dim := field l 13 1,
    rsv := decide (field l 14 2 ≠ 0) }

/-- *d* of a descriptor. -/
def PartD.d (p : PartD) : Nat := 64 * 2 ^ p.dim

/-- The checks of a partial descriptor (R197, R203). -/
def PartD.check (p : PartD) (capture : Bool) : Tr Unit := do
  need (decide (1 ≤ p.rows) && decide (p.rows ≤ 64) && decide (p.dim ≤ 2) && !p.rsv && !(capture && p.cand == 0)) 0x10
  need (decide (p.o % 64 = 0) && decide (p.stat % 64 = 0) && decide (p.cand % 64 = 0)) 5

/-- The bench ranges of a partial. -/
def PartD.ranges (p : PartD) (capture : Bool) : List (Nat × Nat) :=
  [(p.o, 4 * p.rows * p.d), (p.stat, 16 * p.rows)] ++ if capture then [(p.cand, 128 * p.rows)] else []

/-- One row of a partial. -/
structure PartRow where
  o : List W32
  m : W32
  l : W32
  empty : Bool
  mass : W32
  cands : List (W32 × W32)
  bad : Bool
deriving DecidableEq, Repr

/-- An unfilled candidate. -/
def noCand : W32 × W32 := (0xFF800000, 0xFFFFFFFF)

/-- An empty row (R192). -/
def PartRow.none (d : Nat) : PartRow :=
  { o := List.replicate d 0, m := 0xFF800000, l := 0, empty := true, mass := Config.massWord 0xFF800000 0, cands := List.replicate 16 noCand, bad := false }

/-- A 32-bit word of bench memory. -/
def CoreCtx.word (k : CoreCtx) (a : Nat) : W32 := BitVec.ofNat 32 (leNat (Mem.read k.bench a 4))

/-- Row `r` of a partial in bench memory. -/
def PartD.row (p : PartD) (k : CoreCtx) (capture : Bool) (r : Nat) : PartRow :=
  let oa := p.o + 4 * p.d * r
  let sa := p.stat + 16 * r
  let ca := p.cand + 128 * r
  { o := (List.range p.d).map fun j => k.word (oa + 4 * j), m := k.word sa, l := k.word (sa + 4),
    empty := (k.word (sa + 8)).getLsbD 0, mass := k.word (sa + 12),
    cands := if capture then (List.range 16).map fun i => (k.word (ca + 8 * i), k.word (ca + 8 * i + 4)) else [],
    bad := k.dirty oa (4 * p.d) || k.dirty sa 16 || (capture && k.dirty ca 128) }

/-- Bytes of 32-bit words. -/
def wordBytes (l : List W32) : List Byte := l.flatMap fun w => leBytes 4 w.toNat

/-- The statistics entry of a row. -/
def PartRow.stat (r : PartRow) : List Byte := wordBytes [r.m, r.l, if r.empty then 1 else 0, r.mass]

/-- The candidates of a row. -/
def PartRow.candBytes (r : PartRow) : List Byte := wordBytes (r.cands.flatMap fun c => [c.1, c.2])

/-- Writes a partial; a poisoned row poisons its output, statistics and candidate lines. -/
def PartD.put (p : PartD) (k : CoreCtx) (capture : Bool) (rows : List PartRow) : CoreCtx :=
  k.put ((List.range rows.length).flatMap fun i =>
    let r := rows.getD i (PartRow.none p.d)
    runOf (p.o + 4 * p.d * i) (wordBytes r.o) r.bad ++ runOf (p.stat + 16 * i) r.stat r.bad
      ++ if capture then runOf (p.cand + 128 * i) r.candBytes r.bad else [])

/-- A candidate ranks before another: higher score, NaN below every number, ties by the lower position; unfilled entries last, as no
key's score of −Inf is a candidate (R195). -/
def candBefore (a b : W32 × W32) : Bool :=
  if a.2 = 0xFFFFFFFF ∨ b.2 = 0xFFFFFFFF then decide (a.2 ≠ 0xFFFFFFFF)
  else if isNan a.1 then (isNan b.1 && decide (a.2.toNat < b.2.toNat))
  else if isNan b.1 then true
  else if (val32 b.1).lt false (val32 a.1) then true
  else if (val32 a.1).lt false (val32 b.1) then false
  else decide (a.2.toNat < b.2.toNat)

/-- Inserts a candidate into a list in rank order, after those it does not precede. -/
def candIn (x : W32 × W32) : List (W32 × W32) → List (W32 × W32)
  | [] => [x]
  | y :: l => if candBefore x y then x :: y :: l else y :: candIn x l

/-- The 16 best of two candidate lists, the first's entry first when equal (R195). -/
def mergeCands (a b : List (W32 × W32)) : List (W32 × W32) :=
  (b.foldl (fun l c => candIn c l) (a.foldl (fun l c => candIn c l) [])).take 16

/-- Merges two partial rows, the first in the fixed order first (R193). MASS, which the spec does not give before SNORM, is a free value
of the row's *m* and *ℓ*, so that it is the same in every attempt and replay (R213, log 108). -/
def mergeRow (capture : Bool) (a b : PartRow) : PartRow × Fl :=
  let bad := a.bad || b.bad
  if b.empty then ({ a with bad := bad }, 0)
  else if a.empty then ({ b with bad := bad }, 0)
  else
    let m := fmax a.m b.m
    let da := fsub a.m m
    let db := fsub b.m m
    let ea := fexp da.1
    let eb := fexp db.1
    let la := fmul a.l ea.1
    let l := ffma b.l eb.1 la.1
    let o := (List.range a.o.length).map fun j =>
      let x := fmul (a.o.getD j 0) ea.1
      let y := ffma (b.o.getD j 0) eb.1 x.1
      (y.1, x.2 ||| y.2)
    ({ o := o.map Prod.fst, m := m, l := l.1, empty := false, mass := Config.massWord m l.1,
       cands := if capture then mergeCands a.cands b.cands else [], bad := bad },
     o.foldl (fun f e => f ||| e.2) (da.2 ||| db.2 ||| ea.2 ||| eb.2 ||| la.2 ||| l.2))

/-! ## Contexts and counts (R196, R200) -/

/-- A scoring configuration block. -/
structure ScoreCfg where
  layout : Nat
  qfmt : Nat
  mask : Nat
  scale : W32
  rsv : Bool
deriving DecidableEq, Repr

/-- The configuration block in 32 bytes. -/
def scoreCfg (l : List Byte) : ScoreCfg :=
  { layout := field l 0 1, qfmt := field l 1 1, mask := field l 2 1, scale := BitVec.ofNat 32 (field l 4 4),
    rsv := decide (field l 3 1 ≠ 0) || decide (field l 8 24 ≠ 0) }

/-- The configuration of a bound context, and its layout; else SCORE_STATE (R203). -/
def CoreCtx.sctx (k : CoreCtx) (s : State) (n : Nat) : Tr (ScoreCfg × Layout) :=
  match Tab.get k.score n with
  | none => .error (.trap 0x10)
  | some x =>
    let cfg := scoreCfg (Mem.read k.bench x.block 32)
    match Tab.get s.layouts cfg.layout with
    | none => .error (.trap 0x10)
    | some l => if x.bound then .ok (cfg, l) else .error (.trap 0x10)

/-- SCFG: binds a context to a configuration block of a resident region (R196, R203). -/
def bodyScfg (o : Op) (s : State) (k : CoreCtx) : Tr CoreCtx := do
    let a := (← k.addr o.a).toNat
    let l ← k.rd a 32
    need (!k.dirty a 32) 0xC
    need (k.resident.any fun r => decide (r.1 ≤ a) && decide (a + 32 ≤ r.1 + r.2)) 4
    let cfg := scoreCfg l
    need (!cfg.rsv && (Tab.get s.layouts cfg.layout).isSome && decide (cfg.qfmt ≤ 1) && decide (cfg.mask ≤ 2)) 0x10
    return { k with score := Tab.set k.score (o.mod.toNat % 4) ⟨true, a⟩ }

/-- SCFG. -/
def execScfg (c : Lcid) (o : Op) (s : State) : Out :=
  issueK c 0x80 ⟨.no, .s, .no, 3, 0, false⟩ o s (bodyScfg o s)

/-- Adds to a count SSTAT reads. -/
def CoreCtx.bumpScore (k : CoreCtx) (i n : Nat) : CoreCtx :=
  { k with scoreCounts := Tab.set k.scoreCounts i (Tab.getD k.scoreCounts i 0 + n) }

/-- Counts events of the tick, none for zero. -/
def incN (x : Ctr) (n : Nat) (s : State) : State := if n = 0 then s else inc x n s

/-! ## Walks (R190, R191, R198, R202) -/

/-- A walk parameter block. -/
structure WalkP where
  slot : Nat
  grp : Nat
  head : Nat
  loc : Nat
  pos : Nat
  qpos : Nat
  lo : Nat
  hi : Nat
  causal : Bool
  capture : Bool
  q : Nat
  localAt : Nat
  mask : Nat
  cap : W64
  part : PartD
  rsv : Bool
deriving DecidableEq, Repr

/-- The walk block in 64 bytes. -/
def walkP (l : List Byte) : WalkP :=
  { slot := field l 0 4 % 2 ^ 17, grp := field l 4 1, head := field l 5 1, loc := field l 6 1, pos := field l 7 1,
    qpos := field l 8 4, lo := field l 12 4, hi := field l 16 4, causal := field l 20 4 % 2 == 1,
    capture := field l 20 4 / 2 % 2 == 1, q := field l 24 4, localAt := field l 28 4, mask := field l 32 4,
    cap := BitVec.ofNat 64 (field l 40 8), part := partD (slice l 48 16),
    rsv := decide (field l 0 4 / 2 ^ 17 ≠ 0) || decide (field l 20 4 / 4 ≠ 0) || decide (field l 36 4 ≠ 0) }

/-- A key position with its K, V and scale rows, and whether a line they lie in is poisoned. -/
structure KeyPos where
  pos : Nat
  k : List Byte
  v : List Byte
  sc : List Byte
  bad : Bool
deriving DecidableEq, Repr

/-- A key whose bytes are free values, and poisoned. -/
def State.lostKey (s : State) (l : Layout) (t : Nat) : KeyPos :=
  let get (i n : Nat) : List Byte := (List.range n).map fun b => Config.freeByte s.fresh (4096 * t + 1024 * i + b)
  { pos := t, k := get 0 l.row, v := get 1 l.row, sc := get 2 l.scales, bad := true }

/-- The committed key at position `t` of a head; none where its page is not kept (R179, R180). Bytes of a slice that cannot be reached,
or of a position whose table entry is read with an error, are free values and poisoned (R118, R202). -/
def State.keyAt (s : State) (g : Group) (l : Layout) (head t : Nat) : Option KeyPos :=
  if s.entryBad g (t / 2 ^ g.pageLog2) then some (s.lostKey l t)
  else (s.keptAt g t).map fun pfn =>
    let d := s.descOf pfn
    let site := lcSite d.lcid
    let rows := l.rows (2 ^ g.pageLog2) head (t % 2 ^ g.pageLog2)
    if s.sliceGone site then s.lostKey l t
    else
      let get (i : Nat) : List Byte := let r := rows.getD i (0, 0); s.privBytes site (d.off + r.1) r.2
      { pos := t, k := get 0, v := get 1, sc := get 2,
        bad := s.descBad pfn || rows.any fun r => (s.privLines (d.off + r.1) r.2).any fun a => s.linePoison site a }

/-- The local tokens' key `i` of a walk, at position LENGTH + i, from its planes in bench memory (R198). -/
def CoreCtx.localKey (k : CoreCtx) (l : Layout) (p : WalkP) (len i : Nat) : KeyPos :=
  let plane := roundUp (p.loc * l.row) 64
  let ka := p.localAt + i * l.row
  let va := p.localAt + plane + i * l.row
  let sa := p.localAt + 2 * plane + i * l.scales
  { pos := len + i, k := Mem.read k.bench ka l.row, v := Mem.read k.bench va l.row, sc := Mem.read k.bench sa l.scales,
    bad := k.dirty ka l.row || k.dirty va l.row || k.dirty sa l.scales }

/-- Bytes of the planes of `n` tokens of one head in bench memory. -/
def Layout.planes (l : Layout) (n : Nat) : Nat := 2 * roundUp (n * l.row) 64 + roundUp (n * l.scales) 64

/-- Element `j` of a row of K or V, unscaled. -/
def Layout.elemAt (l : Layout) (row : List Byte) (j : Nat) : Val := codeVal l.fmt (field row (j * l.elem) l.elem)

/-- The score of a query row and a key before SCALE: blocks of 32 in order (R191). -/
def dotKey (l : Layout) (q : List W32) (key : KeyPos) : W32 × Fl :=
  (List.range (l.headDim / 32)).foldl
    (fun (acc : W32 × Fl) b =>
      let s := (List.range 32).foldl
        (fun (v : Val × Fl) i =>
          let p := prodVal (val32 (q.getD (32 * b + i) 0)) (l.elemAt key.k (32 * b + i))
          let r := sumVal v.1 p.1
          (r.1, v.2 ||| p.2 ||| r.2)) (Val.zero, (0 : Fl))
      let t := to32 s.1
      let u : W32 × Fl := if l.fmt = 1 then t else to32 ((val32 t.1).scaled (key.sc.getD b 0).toNat)
      let r := fadd acc.1 u.1
      (r.1, acc.2 ||| s.2 ||| t.2 ||| u.2 ||| r.2)) (0, 0)

/-- Element `j` of a value row in FP32. -/
def valueAt (l : Layout) (key : KeyPos) (j : Nat) : W32 × Fl :=
  to32 (if l.fmt = 1 then l.elemAt key.v j
        else (l.elemAt key.v j).scaled (key.sc.getD (l.headDim / 32 + j / 32) 0).toNat)

/-- A query row as its walk goes on: its partial and the flags raised. -/
structure RowAcc where
  row : PartRow
  fl : Fl
deriving DecidableEq, Repr

/-- One visited block for one query row (R191, R195). -/
def blockStep (l : Layout) (scale : W32) (q : List W32) (capture : Bool) (attends : Nat → Bool) (a : RowAcc) (blk : List KeyPos) :
    RowAcc :=
  let scored := (blk.filter fun t => attends t.pos).map fun t =>
    let d := dotKey l q t
    let r := fmul d.1 scale
    (t, r.1, d.2 ||| r.2)
  -- a NaN or +Inf score sets INV, whatever made it (R191)
  let f0 := scored.foldl (fun f e => f ||| e.2.2 ||| (if isNan e.2.1 || e.2.1 == 0x7F800000 then flInv else 0)) a.fl
  let kept := scored.filter fun e => decide (e.2.1 ≠ 0xFF800000)
  if kept.isEmpty then { a with fl := f0 }
  else
    let mn := kept.foldl (fun m e => fmax m e.2.1) a.row.m
    let d0 := fsub a.row.m mn
    let e0 := fexp d0.1
    let l0 := fmul a.row.l e0.1
    let o0 := a.row.o.map fun x => fmul x e0.1
    let f1 := o0.foldl (fun f e => f ||| e.2) (f0 ||| d0.2 ||| e0.2 ||| l0.2)
    let r := kept.foldl
      (fun (acc : W32 × List W32 × Fl) e =>
        let d := fsub e.2.1 mn
        let p := fexp d.1
        let l1 := fadd acc.1 p.1
        let o1 := (List.range l.headDim).map fun j =>
          let v := valueAt l e.1 j
          let y := ffma p.1 v.1 (acc.2.1.getD j 0)
          (y.1, v.2 ||| y.2)
        (l1.1, o1.map Prod.fst, o1.foldl (fun f x => f ||| x.2) (acc.2.2 ||| d.2 ||| p.2 ||| l1.2)))
      (l0.1, o0.map Prod.fst, f1)
    { row := { a.row with
        o := r.2.1, m := mn, l := r.1, empty := false, mass := Config.massWord mn r.1,
        cands := if capture then
            (kept.foldl (fun c e => candIn (e.2.1, BitVec.ofNat 32 e.1.pos) c) a.row.cands).take 16
          else a.row.cands
        bad := a.row.bad || kept.any fun e => e.1.bad }
      fl := r.2.2 }

/-- Bytes of a bitmap of `n` bits padded to a multiple of 512 bits. -/
def bitmapLen (n : Nat) : Nat := ceilDiv n 512 * 64

/-- Bit `i` of a bitmap in bench memory. -/
def CoreCtx.bitAt (k : CoreCtx) (a i : Nat) : Bool := (Mem.get k.bench (a + i / 8)).getLsbD (i % 8)

/-- Key blocks of a walk's mask. -/
def maskBlocks (len loc : Nat) : Nat := ceilDiv (len + loc) 64

/-- Both bits of block `b` are set: it has an element bitmap. -/
def CoreCtx.partialBlock (k : CoreCtx) (p : WalkP) (len b : Nat) : Bool :=
  k.bitAt p.mask b && k.bitAt (p.mask + bitmapLen (maskBlocks len p.loc)) b

/-- The bench range of the mask a walk reads (R190). -/
def maskSize (k : CoreCtx) (mode : Nat) (p : WalkP) (len : Nat) : Nat :=
  let nb := maskBlocks len p.loc
  match mode with
  | 0 => 0
  | 1 => 2 * bitmapLen nb + 512 * ((List.range nb).filter fun b => k.partialBlock p len b).length
  | _ => p.pos * bitmapLen (len + p.loc)

/-- A query row attends to a key position (R190). -/
def attendsTo (k : CoreCtx) (mode : Nat) (p : WalkP) (len gqa r t : Nat) : Bool :=
  let qp := p.qpos + r / gqa
  let nb := maskBlocks len p.loc
  !(p.causal && decide (qp < t)) &&
  match mode with
  | 0 => true
  | 1 =>
    let b := t / 64
    k.bitAt p.mask b &&
      (!k.partialBlock p len b ||
        let i := ((List.range b).filter fun x => k.partialBlock p len x).length
        k.bitAt (p.mask + 2 * bitmapLen nb + 512 * i + 8 * (qp % 64)) (t % 64))
  | _ => k.bitAt (p.mask + r / gqa * bitmapLen (len + p.loc)) t

/-- Query row `r` in FP32. -/
def queryRow (k : CoreCtx) (qfmt d a r : Nat) : List W32 :=
  (List.range d).map fun j =>
    if qfmt = 0 then k.word (a + 4 * (r * d + j)) else BitVec.ofNat 32 (leNat (Mem.read k.bench (a + 2 * (r * d + j)) 2) * 65536)

/-- Committed key blocks of a walk's range, with whether each is visited. -/
def walkBlocks (k : CoreCtx) (mode : Nat) (p : WalkP) (len : Nat) : List (Nat × Bool) :=
  let hi := min p.hi len
  (List.range (ceilDiv hi 64 - p.lo / 64)).map fun i =>
    let b := p.lo / 64 + i
    (b, !(mode == 1 && !k.bitAt p.mask b) && !(p.causal && decide (p.qpos + p.pos - 1 < 64 * b)))

/-- Why a walk or an append does nothing: DENIED or BUSY (R202). -/
def seqDenied (s : State) (c : Lcid) (slot grp head layout : Nat) : Status × Option (SeqRec × Group) :=
  match s.seqAt slot with
  | none => (.denied, none)
  | some r =>
    match r.groups[grp]? with
    | none => (.denied, none)
    | some g =>
      let heads := match Tab.get s.layouts g.layout with | some l => l.heads | none => 0
      if r.home ≠ lcStack c ∨ g.layout ≠ layout ∨ heads ≤ head then (.denied, none)
      else if r.hold ≠ 0 then (.busy, none)
      else (.ok, some (r, g))

/-- Runs of consecutive rows, from their first and count. -/
def joinRuns (l : List (Nat × Nat)) : List (Nat × Nat) :=
  (l.foldl (fun (acc : List (Nat × Nat)) x =>
    match acc with
    | (a, n) :: r => if a + n = x.1 then (a, n + x.2) :: r else x :: acc
    | [] => [x]) []).reverse

/-- The tokens of the pieces of a walk: of each kept page, each plane of the head as one run over the visited blocks (R131, R201). -/
def State.walkTokens (s : State) (g : Group) (l : Layout) (head : Nat) (seen : List Nat) (len : Nat) : List Nat :=
  let size := 2 ^ g.pageLog2
  let rowsOf (n : Nat) : List (Nat × Nat) :=
    joinRuns ((seen.filter fun b => decide (64 * b < (n + 1) * size) && decide (n * size < 64 * b + 64)).map fun b =>
      (max (64 * b) (n * size) - n * size, min 64 size))
  let pages := ((seen.flatMap fun b => [64 * b, 64 * b + 16, 64 * b + 32, 64 * b + 48]).filter fun t => decide (t < len)).map
    fun t => t / size
  pages.eraseDups.flatMap fun n =>
    if s.entryBad g n then []
    else match s.keptAt g (n * size) with
      | none => []
      | some pfn => (List.range 3).flatMap fun j => (rowsOf n).flatMap fun r =>
          let p := (l.rows size head r.1).getD j (0, 0)
          runTokens ((s.descOf pfn).off + p.1) (r.2 * p.2)

/-- Notes the errors that a walk meets in the tables and descriptors it reads (R202). -/
def noteTables (g : Group) (pages : List Nat) (s : State) : State :=
  let descs := pages.filterMap fun n => match s.entry g n with
    | some e => if e.valid then some (reserveLoc (e.pfn % 20) (0x24000000 + 16 * (e.pfn / 20))) else none
    | none => none
  ((pages.flatMap fun n => s.tableLines g n) ++ descs).map (fun p => (p.1, p.2 / 64 * 64)) |>.eraseDups.foldl (fun t p => noteLine true p.1 p.2 t) s

/-- Ends a walk: writes its partial, its status and its counts. -/
def endWalk (c : Lcid) (o : Op) (k : CoreCtx) (p : WalkP) (st : Status) (rows : List PartRow) (fl : Fl) (visited skipped pte : Nat)
    (s : State) : CoreCtx × State :=
  let empties := (rows.filter fun r => r.empty).length
  let k := (p.part.put k p.capture rows).orFlags fl
  let k := (k.sset o.dst (BitVec.ofNat 64 st.code) false).eat (rows.any fun r => r.bad)
  let k := (((k.bumpScore 0 1).bumpScore 1 visited).bumpScore 2 skipped).bumpScore 3 empties
  let t := incN .emptyRow empties (incN .pteFault pte { s with fresh := s.fresh + 1 })
  ({ k.step with paid := 0 }, (if visited = 0 then t else incP .walkBlocks visited t).setCore c (t.core c))

/-- The walk itself, once its sequence is found (R191, R202). It ends when every piece of its reads has its tokens (R131). -/
def runWalk (c : Lcid) (o : Op) (k : CoreCtx) (s : State) (cfg : ScoreCfg) (l : Layout) (p : WalkP) (g : Group) :
    Tr (CoreCtx × State) := do
  need (!(cfg.mask == 2 && decide (65536 < g.len + p.loc))) 6
  let msize := maskSize k cfg.mask p g.len
  k.access p.mask (if cfg.mask = 1 then 2 * bitmapLen (maskBlocks g.len p.loc) else 0)
  k.access p.mask msize
  need (!k.dirty p.mask msize) 0xC
  let blocks := walkBlocks k cfg.mask p g.len
  let seen := (blocks.filter fun b => b.2).map Prod.fst
  let useLocal := decide (0 < p.loc) && !(p.causal && decide (p.qpos + p.pos - 1 < g.len))
  let posOf (b : Nat) : List Nat := (List.range 64).map fun i => 64 * b + i
  let keys (b : Nat) : List KeyPos :=
    ((posOf b).filter fun t => decide (t < min p.hi g.len)).filterMap fun t => s.keyAt g l p.head t
  let lists := seen.map keys ++ (if useLocal then [(List.range p.loc).map (k.localKey l p g.len)] else [])
  let rows := (List.range p.part.rows).map fun r =>
    let cap := p.capture && p.cap.getLsbD r
    let q := queryRow k cfg.qfmt l.headDim p.q r
    let start : RowAcc := ⟨PartRow.none l.headDim, 0⟩
    let a := lists.foldl (blockStep l cfg.scale q cap (attendsTo k cfg.mask p g.len l.gqa r)) start
    let esz := if cfg.qfmt = 0 then 4 else 2
    let bad := a.row.bad || k.dirty (p.q + esz * r * l.headDim) (esz * l.headDim)
    if a.row.empty then (⟨{ a.row with bad := bad }, 0⟩ : RowAcc) else ⟨{ a.row with bad := bad }, a.fl⟩
  -- lines of visited blocks, for STALE and UNAVAIL
  let pages := ((seen.flatMap posOf).filter fun t => decide (t < g.len)).map (fun t => t / 2 ^ g.pageLog2) |>.eraseDups
  let good := pages.filter fun n => !s.entryBad g n
  let faults := (good.filter fun n => match s.entry g n with | some e => !e.valid && !e.retired | none => true).length
  let held := (seen.flatMap posOf).filterMap fun t => if s.entryBad g (t / 2 ^ g.pageLog2) then none else (s.keptAt g t).map fun pfn => (t, pfn)
  let gone := (held.map Prod.snd).eraseDups.any fun pfn => s.sliceGone (lcSite (s.descOf pfn).lcid)
  let stale := held.any fun x =>
    let d := s.descOf x.2
    (l.rows (2 ^ g.pageLog2) p.head (x.1 % 2 ^ g.pageLog2)).any fun r =>
      (s.privLines (d.off + r.1) r.2).any fun a => s.stagedLine (lcSite d.lcid) a false
  let bad := rows.any fun a => a.row.bad
  let st := (if gone then Status.unavail else .ok).first ((if bad then Status.poison else .ok).first (if stale then .stale else .ok))
  let due := s.walkTokens g l p.head seen (min p.hi g.len)
  let (paid, t) := payPieces c (due.drop k.paid) k.paid s
  if paid < due.length then return ({ k with paid := paid }, t)
  else
    return endWalk c o k p st (rows.map fun a => a.row) (rows.foldl (fun f a => f ||| a.fl) 0)
      (seen.length + if useLocal then 1 else 0) (blocks.length - seen.length + if decide (0 < p.loc) && !useLocal then 1 else 0)
      faults (noteTables g pages t)

/-- SWALK: walks a head of a sequence under a parameter block; sd = status (R191, R198-R203). -/
def bodySwalk (c : Lcid) (o : Op) (s : State) (k : CoreCtx) : Tr (CoreCtx × State) := do
    let a := (← k.addr o.a).toNat
    let (cfg, l) ← k.sctx s (o.mod.toNat % 4)
    let blk ← k.rd a 64
    need (!k.dirty a 64) 0xC
    let p := walkP blk
    need (!p.rsv && decide (p.loc ≤ 64) && decide (p.part.rows = p.pos * l.gqa) && decide (p.part.rows ≤ 64)
      && decide (p.part.d = l.headDim)) 0x10
    p.part.check p.capture
    need (decide (p.qpos % 64 + p.pos ≤ 64) && decide (p.lo % 64 = 0)) 6
    (p.part.ranges p.capture).forM fun r => k.canWrite r.1 r.2
    match seqDenied s c p.slot p.grp p.head cfg.layout with
    | (_, some (_, g)) =>
      k.access p.q (p.part.rows * l.headDim * (if cfg.qfmt = 0 then 4 else 2))
      k.access p.localAt (l.planes p.loc)
      runWalk c o k s cfg l p g
    | (st, none) =>
      return endWalk c o k p st ((List.range p.part.rows).map fun _ => PartRow.none l.headDim) 0 0 0 0 s

/-- SWALK. -/
def execSwalk (c : Lcid) (o : Op) (s : State) : Out :=
  issue c 0x81 ⟨.s, .s, .no, 3, 0, false⟩ o s (bodySwalk c o s)

/-! ## Appends (R181-R184, R199, R202) -/

/-- Tokens already appended to a head in the tick. -/
def State.appended (s : State) (slot grp head : Nat) : Nat :=
  (s.work.appends.filter fun a => a.seq == slot && a.group == grp && a.head == head).foldl (fun n a => n + a.count) 0

/-- A free frame is taken: by an append of the tick, or by a KV_RETIRE_FRAME accepted in it (R182, R189). -/
def State.frameTaken (s : State) (f : Nat) : Bool :=
  s.work.taken.contains f
    || s.changes.any fun c => match c with | .retireFrame pfn spare => pfn == f || spare == some f | _ => false

/-- The frame a pool gives next: its first free frame not yet taken, while its FREE_COUNT less those taken is not 0 (R182). -/
def State.poolFrame (s : State) (p : Pool) : Option Nat :=
  if (p.free.filter s.frameTaken).length < p.count then p.free.find? fun f => !s.frameTaken f else none

/-- The frame a new page takes: of the lowest pool of the slice that fits and has one (R182). -/
def State.freeFrame (s : State) (c : Lcid) (layout pageLog2 : Nat) : Option Nat :=
  (List.range 16).findSome? fun j =>
    match Tab.get s.pools (16 * lcOrd c + j) with
    | none => none
    | some p =>
      if p.layout = layout ∧ p.pageLog2 = pageLog2 then s.poolFrame p else none

/-- Copies positions 0 to `n` − 1 of every head of a page to another frame of the slice, directly and with poison (R184). -/
def copyPage (l : Layout) (pageLog2 src dst n : Nat) (s : State) : State :=
  let a := s.descOf src
  let b := s.descOf dst
  let site := lcSite b.lcid
  let places := (List.range l.heads).flatMap fun h =>
    let st := l.rows (2 ^ pageLog2) h 0
    (st.map fun r => (r.1, n * r.2)).filter fun r => decide (0 < r.2)
  let lines := places.flatMap fun r => (List.range ((r.1 + r.2 - 1) / 64 - r.1 / 64 + 1)).map fun i => (r.1 / 64 + i) * 64
  lines.eraseDups.foldl
    (fun t off =>
      let inPlane (i : Nat) : Bool := places.any fun r => decide (r.1 ≤ off + i) && decide (off + i < r.1 + r.2)
      let from_ := s.privBytes (lcSite a.lcid) (a.off + off) 64
      let old := t.privBytes site (b.off + off) 64
      let bytes := (List.range 64).map fun i => if inPlane i then from_.getD i 0 else old.getD i 0
      let loc := privLoc s.cfg.globalSteps (b.off + off)
      t.putLine site loc bytes (s.linePoison (lcSite a.lcid) (privLoc s.cfg.globalSteps (a.off + off)))) s

/-- The tokens of the pieces of a split's copy of `n` positions of a page at a private offset, head by head and plane by plane. -/
def copyTokens (l : Layout) (pageLog2 off n : Nat) : List Nat :=
  (List.range l.heads).flatMap fun h => (l.rows (2 ^ pageLog2) h 0).flatMap fun r => runTokens (off + r.1) (n * r.2)

/-- What gives an append its page: the frame, already there or taken now. -/
inductive PageOf where
  /-- The page is there to write. -/
  | have (pfn : Nat)
  /-- No frame is free (R182). -/
  | noFrame
  /-- The table store has no table for the copies (R186). -/
  | noTable
deriving DecidableEq, Repr

/-- Writes an entry in the shadow: the copies of its tables, and the page (R182, R186). -/
def shadowPage (p : NewPage) (s : State) : Option State :=
  (copyLeaf true p.seq p.group (p.page / 64) s).map fun t => { t with work := { t.work with newPages := t.work.newPages ++ [p] } }

/-- Finds or takes the page of a position for an append (R182, R184); with a split, the tokens of its copy. -/
def pageFor (c : Lcid) (l : Layout) (slot grp : Nat) (g : Group) (t : Nat) (s : State) : PageOf × State × Option (List Nat) :=
  let n := t / 2 ^ g.pageLog2
  let take (split : Option Nat) : PageOf × State :=
    match s.freeFrame c g.layout g.pageLog2 with
    | none => (.noFrame, s)
    | some f =>
      match shadowPage { seq := slot, group := grp, page := n, pfn := f, split := split, inPlace := false } s with
      | none => (.noTable, s)
      | some t => (.have f, { t with work := { t.work with taken := t.work.taken ++ [f] } })
  match s.work.newPages.find? (fun p => p.seq == slot && p.group == grp && p.page == n) with
  | some p => (.have p.pfn, s, none)
  | none =>
    match s.entry g n with
    | none => let r := take none; (r.1, r.2, none)
    | some e =>
      if !e.valid then (let r := take none; (r.1, r.2, none))
      else if !e.cow then (.have e.pfn, s, none)
      else if (s.descOf e.pfn).refs.toNat ≤ 1 then
        match shadowPage { seq := slot, group := grp, page := n, pfn := e.pfn, split := none, inPlace := true } s with
        | some t => (.have e.pfn, t, none)
        | none => (.noTable, s, none)
      else
        let held := g.len % 2 ^ g.pageLog2
        match take (some e.pfn) with
        | (.have f, t) =>
          (.have f, inc .split 1 (copyPage l g.pageLog2 e.pfn f held t), some (copyTokens l g.pageLog2 (s.descOf e.pfn).off held))
        | (r, t) => (r, t, none)

/-- The bytes of an append in one page: private offset in the frame and byte, with poison. -/
def appendBytes (k : CoreCtx) (l : Layout) (src count i head pageLog2 t : Nat) : List (Nat × Byte × Bool) :=
  let rows := l.rows (2 ^ pageLog2) head (t % 2 ^ pageLog2)
  let plane := roundUp (count * l.row) 64
  let froms := [(src + i * l.row, l.row), (src + plane + i * l.row, l.row), (src + 2 * plane + i * l.scales, l.scales)]
  (List.range 3).flatMap fun j =>
    let r := rows.getD j (0, 0)
    let f := froms.getD j (0, 0)
    (List.range f.2).map fun b => (r.1 + b, Mem.get k.bench (f.1 + b), k.dirty (f.1 + b) 1)

/-- Stages an append's bytes of one position as append lines (R199); none where a bank stage is full. -/
def stageAppend (c : Lcid) (order pfn : Nat) (bytes : List (Nat × Byte × Bool)) (s : State) : Option State :=
  let d := s.descOf pfn
  let site := lcSite d.lcid
  let offs := (bytes.map fun b => (d.off + b.1) / 64 * 64).eraseDups
  offs.foldl
    (fun st off =>
      match st with
      | none => none
      | some t =>
        let mine := bytes.filter fun b => (d.off + b.1) / 64 * 64 == off
        let loc := privLoc s.cfg.globalSteps off
        stageLine t { site := site, line := loc, data := mine.map fun b => ((d.off + b.1) % 64, b.2.1),
                      poison := mine.any (fun b => b.2.2) || (decide (mine.length < 64) && s.linePoison site loc),
                      order := [1, lcOrd c, order], append := true }) (some s)

/-- An append as it goes on, token by token: positions appended with their frames, and the tokens of the copies of its splits. -/
structure AppAcc where
  st : State
  placed : List (Nat × Nat)
  copies : List (List Nat)
  status : Status
  full : Bool

/-- One token of an append. -/
def appendToken (c : Lcid) (k : CoreCtx) (l : Layout) (g : Group) (slot grp head src count order base : Nat) (a : AppAcc) (i : Nat) :
    AppAcc :=
  if a.status ≠ .ok ∨ a.full then a
  else
    let t := base + i
    if maxLen g.pageLog2 ≤ t then { a with status := .limit }
    else
      match pageFor c l slot grp g t a.st with
      | (.noFrame, s, _) =>
        { a with st := inc .poolEmpty 1 (postWork (event .kvPoolEmpty (objWord 2 slot) []) s), status := .limit }
      | (.noTable, s, _) => { a with st := s, status := .limit }
      | (.have pfn, s, copy) =>
        match stageAppend c order pfn (appendBytes k l src count i head g.pageLog2 t) s with
        | none => { a with full := true }
        | some u => { a with st := u, placed := a.placed ++ [(t, pfn)], copies := a.copies ++ copy.toList }

/-- The tokens of an append's pieces: of its splits' copies, then of the staged lines of each plane in each page (R131, R184, R199). -/
def appendTokens (l : Layout) (g : Group) (head : Nat) (a : AppAcc) : List Nat :=
  a.copies.flatten ++ (a.placed.map Prod.snd).eraseDups.flatMap fun pfn =>
    match a.placed.filter fun x => x.2 == pfn with
    | [] => []
    | (t, _) :: r => (l.rows (2 ^ g.pageLog2) head (t % 2 ^ g.pageLog2)).flatMap fun p =>
        let lo := (a.st.descOf pfn).off + p.1
        let hi := lo + (r.length + 1) * p.2
        if p.2 = 0 then [] else runTokens (lo / 64 * 64) (roundUp hi 64 - lo / 64 * 64)

/-- SAPPEND: appends COUNT positions to a head; sd = status and tokens appended (R181-R184, R199, R202). -/
def bodySappend (c : Lcid) (o : Op) (s : State) (k : CoreCtx) : Tr (CoreCtx × State) := do
    let a := (← k.addr o.a).toNat
    let (cfg, l) ← k.sctx s (o.mod.toNat % 4)
    need (decide (a % 16 = 0)) 5
    let blk ← k.rd a 16
    need (!k.dirty a 16) 0xC
    let slot := field blk 0 4 % 2 ^ 17
    let grp := field blk 4 1
    let head := field blk 5 1
    let count := field blk 6 1
    let src := field blk 8 4
    need (decide (field blk 0 4 / 2 ^ 17 = 0) && decide (field blk 7 1 = 0) && decide (field blk 12 4 = 0)
      && decide (1 ≤ count) && decide (count ≤ 64)) 0x10
    need (decide (src % 64 = 0)) 5
    let finish (k : CoreCtx) (st : Status) (n splits : Nat) (bad : Bool) (t : State) : CoreCtx × State :=
      let k := (k.sset o.dst (BitVec.ofNat 64 (st.code + 256 * n)) false).eat bad
      ({ ((k.bumpScore 4 n).bumpScore 5 splits).step with paid := 0 }, t)
    match seqDenied s c slot grp head cfg.layout with
    | (st, none) => return finish k st 0 0 false s
    | (_, some (_, g)) =>
      need (g.lcid == c) 0x10
      k.access src (l.planes count)
      if s.sliceGone (lcSite c) then return finish k .unavail 0 0 false s
      else
        let base := g.len + s.appended slot grp head
        let run (t : State) : AppAcc := (List.range count).foldl (appendToken c k l g slot grp head src count k.stores base)
          { st := t, placed := [], copies := [], status := .ok, full := false }
        let r := run s
        need (!r.full) 0xB
        let due := appendTokens l g head r
        let (paid, t) := payPieces c (due.drop k.paid) k.paid s
        if paid < due.length then return ({ k with paid := paid }, t)
        else
          let r := run t
          let n := r.placed.length
          let u : State :=
            if n = 0 then r.st else { r.st with work := { r.st.work with appends := r.st.work.appends ++ [⟨slot, grp, head, n⟩] } }
          return finish { k with stores := k.stores + 1 } r.status n r.copies.length false u

/-- SAPPEND. -/
def execSappend (c : Lcid) (o : Op) (s : State) : Out :=
  issue c 0x82 ⟨.s, .s, .no, 3, 0, false⟩ o s (bodySappend c o s)

/-! ## Merge, normalise, read (R193-R195, R200) -/

/-- Reads a partial descriptor at a bench address. -/
def CoreCtx.readPart (k : CoreCtx) (a : Nat) (capture : Bool) : Tr PartD := do
  let l ← k.rd a 16
  need (!k.dirty a 16) 0xC
  let p := partD l
  p.check capture
  (p.ranges capture).forM fun r => k.access r.1 r.2
  return p

/-- SMERGE: the partial at sa becomes the merge of it and the partial at sb (R193, R195). -/
def bodySmerge (o : Op) (k : CoreCtx) : Tr CoreCtx := do
    let cap := o.mod.getLsbD 2
    let p ← k.readPart (← k.addr o.a).toNat cap
    let q ← k.readPart (← k.addr o.b).toNat cap
    need (decide (p.rows = q.rows) && decide (p.dim = q.dim)) 0x10
    (p.ranges cap).forM fun r => k.canWrite r.1 r.2
    let out := (List.range p.rows).map fun r => mergeRow cap (p.row k cap r) (q.row k cap r)
    let k' := (p.put k cap (out.map Prod.fst)).orFlags (out.foldl (fun f e => f ||| e.2) 0)
    return (k'.eat (out.any fun e => e.1.bad))

/-- SMERGE. -/
def execSmerge (c : Lcid) (o : Op) (s : State) : Out :=
  issueK c 0x83 ⟨.no, .s, .s, 4, 0, false⟩ o s (bodySmerge o)

/-- A row normalised: its outputs, its weights and their sum, and the flags raised (R194, R195). -/
def normRow (r : PartRow) : List W32 × List (W32 × W32) × W32 × Fl :=
  if r.empty then (r.o.map (fun _ => 0), r.cands.map (fun c => (0, c.2)), 0, 0)
  else
    let o := r.o.map fun x => fdiv x r.l
    let w := r.cands.map fun c =>
      let d := fsub c.1 r.m
      let e := fexp d.1
      let q := fdiv e.1 r.l
      (q.1, c.2, d.2 ||| e.2 ||| q.2)
    let mass := w.foldl (fun (a : W32 × Fl) x => let t := fadd a.1 x.1; (t.1, a.2 ||| t.2)) (0, 0)
    (o.map Prod.fst, w.map (fun x => (x.1, x.2.1)), mass.1,
     w.foldl (fun f x => f ||| x.2.2) (o.foldl (fun f x => f ||| x.2) mass.2))

/-- SNORM: tile dd = the normalised partial at sa, of ROWS × *d* in FP32 or BF16; with CAPTURE the candidates become weights
and the mass is written (R194, R195, R200). -/
def bodySnorm (o : Op) (k : CoreCtx) : Tr CoreCtx := do
    let cap := o.mod.getLsbD 2
    let p ← k.readPart (← k.addr o.a).toNat cap
    let d := tileD (k.dreg o.dst)
    need (decide (d.fmt ≤ 1) && decide (d.rows = p.rows) && decide (d.cols = p.d)) 7
    d.canWrite k
    let rows := (List.range p.rows).map fun r => p.row k cap r
    let out := rows.map fun r => (r, normRow r)
    let k1 ← d.store k (out.map fun e => e.2.1.map fun w => (val32 w, e.1.bad))
    let k2 ←
      if cap then do
        (p.ranges cap).forM fun r => k.canWrite r.1 r.2
        let bytes := (List.range out.length).flatMap fun i =>
          let e := out.getD i (PartRow.none p.d, [], [], 0, 0)
          runOf (p.cand + 128 * i) (wordBytes (e.2.2.1.flatMap fun x => [x.1, x.2])) e.1.bad
            ++ runOf (p.stat + 16 * i + 12) (wordBytes [e.2.2.2.1]) e.1.bad
        pure (k1.put bytes)
      else pure k1
    return (k2.orFlags (out.foldl (fun f e => f ||| e.2.2.2.2) 0)).eat (rows.any fun r => r.bad)

/-- SNORM. -/
def execSnorm (c : Lcid) (o : Op) (s : State) : Out :=
  issueK c 0x84 ⟨.d, .s, .no, 4, 0, false⟩ o s (bodySnorm o)

/-- SLEN: sd = LENGTH and GENERATION of a group; all ones where the slot is closed or the group absent (R200). -/
def bodySlen (o : Op) (s : State) (k : CoreCtx) : Tr CoreCtx := do
    let slot := (← k.addr o.a).toNat
    let v : W64 :=
      match s.seqAt slot with
      | none => BitVec.allOnes 64
      | some r =>
        match r.groups[o.imm.toNat % 16]? with
        | none => BitVec.allOnes 64
        | some g => BitVec.ofNat 64 (g.len + r.gen.toNat * 2 ^ 32)
    return k.sset o.dst v false

/-- SLEN. -/
def execSlen (c : Lcid) (o : Op) (s : State) : Out :=
  issueK c 0x85 ⟨.s, .s, .no, 0, 15, false⟩ o s (bodySlen o s)

/-- SSTAT: sd = a per-tick count; 6 and 7 are reserved (R200). -/
def bodySstat (o : Op) (k : CoreCtx) : Tr CoreCtx := do
    need (decide (o.imm.toNat ≤ 5)) 2
    return k.sset o.dst (BitVec.ofNat 64 (Tab.getD k.scoreCounts o.imm.toNat 0)) false

/-- SSTAT. -/
def execSstat (c : Lcid) (o : Op) (s : State) : Out :=
  issueK c 0x86 ⟨.s, .no, .no, 0, 7, false⟩ o s (bodySstat o)

end Sys2Proof.Machine
end

