-- ==== Sys2Proof/Machine/Crumb.lean ====
section
/-! DEFINITION. Crumb units: the crumb class of tile programs and crumb programs (R138-R168). -/

namespace Sys2Proof.Machine

open Sys2Proof

/-! ## Slots (R155-R157) -/

/-- The largest throttle fraction of the quadrants of a stack that take part, in 1/896 (R321, R324). -/
def State.stackF (s : State) (n : Nat) : Nat :=
  (List.range 4).foldl (fun m q => let t := s.thermAt (4 * n + q); if t.takesPart then max m t.f else m) 0

/-- The effective bank activation budget of a stack (R157, R324). -/
def State.effBudget (s : State) (n : Nat) : Nat :=
  if s.power.off.contains (80 + n) then 0
  else max 1 (max 1 (s.cfg.budget * (8960 - 7 * s.stackF n) / 8960) - s.power.dsteps)

/-- The DRAM layer of a slice bank index (R14). -/
def bankLayer (b : Nat) : Nat := b / 4

/-- Banks of a slice whose units hold an activation slot. -/
def State.activeBanks (s : State) (slice : Nat) : List Nat :=
  (List.range 48).filter fun b => let v := s.crumbAt ⟨slice, b⟩; v.running && !v.waiting

/-- A unit may take a slot: one is free, and its layer holds no active unit. -/
def State.slotFree (s : State) (u : UnitId) : Bool :=
  let act := s.activeBanks u.slice
  decide (act.length < s.effBudget (u.slice / 256)) && act.all fun b => bankLayer b != bankLayer u.bank

/-- Pending units of a slice in the order they are granted from a rotation layer (R156). -/
def State.pendingBanks (s : State) (slice rot : Nat) : List Nat :=
  (List.range 12).flatMap fun j =>
    (List.range 4).filterMap fun i =>
      let b := 4 * ((rot + j) % 12) + i
      let v := s.crumbAt ⟨slice, b⟩
      if v.running && v.waiting then some b else none

/-- CRUMB_GRANT: pending units take the slots that are free, in layer order from the tick's rotation layer (R156). -/
def execCrumbGrant (slice : Nat) (s : State) : Out :=
  unit (validSite slice) <|
    .next ((s.pendingBanks slice (5 * s.seqr.tick % 12)).foldl
      (fun t b => if t.slotFree ⟨slice, b⟩ then t.setCrumb ⟨slice, b⟩ { t.crumbAt ⟨slice, b⟩ with waiting := false } else t) s)

/-! ## Targets (R148) -/

/-- The slice site and banks a target names for its issuer; none where a rule of R148 is broken. -/
def crumbTarget (s : State) (c : Lcid) (v : W64) : Option (Nat × BitVec 48) :=
  let n := v.toNat
  let peer := v.getLsbD 57
  let row := n / 2 ^ 53 % 16
  let col := n / 2 ^ 49 % 16
  let mask : BitVec 48 := BitVec.ofNat 48 n
  let site := if peer then 256 * lcStack c + 16 * row + col else lcSite c
  let wellFormed := decide (n / 2 ^ 58 = 0) && !v.getLsbD 48 && decide (mask ≠ 0)
    && (if peer then decide (col ≤ 14) else decide (row = 0) && decide (col = 0))
  let sec := (s.planOf c).bind fun p => p.crumbs.find? fun x => lcSite x.lcid == site && x.issuer == c
  match sec with
  | none => none
  | some x =>
    if wellFormed && decide (mask &&& ~~~x.mask = 0)
      && (List.range 48).all (fun b => !(mask.getLsbD b && (globalBanks s.cfg.globalSteps).contains b)) then some (site, mask)
    else none

/-- The target a register names, else CRUMB_FAULT. -/
def CoreCtx.target48 (k : CoreCtx) (s : State) (c : Lcid) (r : BitVec 5) : Tr (Nat × BitVec 48) := do
  let v ← k.addr r
  match crumbTarget s c v with
  | some t => return t
  | none => .error (.trap 0xF)

/-- The banks of a mask, in increasing index. -/
def maskBanks (m : BitVec 48) : List Nat := (List.range 48).filter fun b => m.getLsbD b

/-- Folds a status into what CSTAT reads. -/
def CoreCtx.crumbSt (k : CoreCtx) (st : Status) : CoreCtx := { k with crumbStatus := Status.first k.crumbStatus st }

/-- Crumb traffic of the core not yet landed. -/
def CoreCtx.crumbOut (k : CoreCtx) : Bool := k.outbound.any fun x => x.kind == 7

/-- Starts a crumb transfer over the mesh, from one site of the core's stack to another: its use is 0 vector, 1 parameters,
2 return; `at_` is where it goes there. -/
def startCrumb (c : Lcid) (k : CoreCtx) (use at_ mask src dst : Nat) (flits : List (Nat × List Byte × Bool)) (s : State) :
    CoreCtx × State :=
  let x := { NetXfer.init 7 mask (4 * at_ + use) none [c] flits with id := k.nextXfer, batch := k.nextXfer }
  let s := s.setCore c { k with nextXfer := k.nextXfer + 1, outbound := k.outbound ++ [x] }
  let l := (copyFlits s c x 1 (dst % 256) c none).map fun f => { f with src := BitVec.ofNat 8 src }
  let t := inject c l s
  (t.core c, t)

/-- Puts vector bytes into the buffers of units of a slice. -/
def putVec (slice : Nat) (banks : List Nat) (at_ : Nat) (l : List (Byte × Bool)) (s : State) : State :=
  banks.foldl
    (fun t b =>
      let v := t.crumbAt ⟨slice, b⟩
      let w := (List.range l.length).map fun i => (at_ + i, (l.getD i (0, false)).1, (l.getD i (0, false)).2)
      t.setCrumb ⟨slice, b⟩ { v with vec := w.foldl (fun m e => Mem.set m e.1 e.2.1) v.vec, vecPoison := poisonAfter v.vecPoison w }) s

/-- Bytes with their poison, cut into flits of 64. -/
def vecFlits (l : List (Byte × Bool)) : List (Nat × List Byte × Bool) :=
  (List.range (ceilDiv l.length 64)).map fun i =>
    let p := (l.drop (64 * i)).take 64
    (64 * i, p.map Prod.fst, p.any fun e => e.2)

/-- CVEC: bench bytes into the vector buffer of every unit of a target, once no program of the core runs on them (R149,
R150). -/
def bodyCvec (c : Lcid) (o : Op) (s : State) (k : CoreCtx) : Tr (CoreCtx × State) := do
    let (site, mask) ← k.target48 s c o.dst
    let a := (← k.addr o.a).toNat
    let n := (← k.addr o.b).toNat
    let off := o.imm.toNat
    need (decide (n % 64 = 0) && decide (64 ≤ n) && decide (n ≤ 8192) && decide (off % 64 = 0) && decide (off + n ≤ 8192)) 5
    let data ← k.rd a n
    if s.sliceDead site then return ((k.crumbSt .unavail).step, s)
    else
      await (!(k.jobs.any fun j => j.slice == site && mask.getLsbD j.bank && !j.ended))
      await (decide (site = lcSite c) || k.netRoom)
      let l := (List.range n).map fun i => (data.getD i 0, k.dirty (a + i) 1)
      let (t, go) := sliceTokens c (n / 64) s
      await go
      if site = lcSite c then return (k.step, putVec site (maskBanks mask) off l t)
      else return startCrumb c k.step 0 off mask.toNat (s.siteOf c) site (vecFlits l) t

/-- CVEC. -/
def execCvec (c : Lcid) (o : Op) (s : State) : Out :=
  issue c 0xB0 ⟨.s, .s, .s, 0, 0xFFFFFFFF, false⟩ o s (bodyCvec c o s)

/-- Programs not retired, oldest first, by the number of their CISSUE. -/
def CoreCtx.programs (k : CoreCtx) : List Nat := (k.jobs.map fun j => j.order).eraseDups

/-- A 17th program waits until the one sixteen before it has ended (R150). -/
def CoreCtx.programRoom (k : CoreCtx) : Bool :=
  let l := k.programs
  match l[l.length - 16]? with
  | some n => decide (l.length < 16) || k.jobs.all fun j => !(j.order == n) || j.ended
  | none => true

/-- CISSUE: starts a program on every unit of a target, each with its block of parameters (R149-R151). -/
def bodyCissue (c : Lcid) (o : Op) (s : State) (k : CoreCtx) : Tr (CoreCtx × State) := do
    let (site, mask) ← k.target48 s c o.dst
    let a := (← k.addr o.a).toNat
    let base := (← k.addr o.b).toNat
    let len := 64 * (o.imm.toNat / 65536)
    let banks := maskBanks mask
    let data ← k.rd a (32 * banks.length)
    need (!k.dirty a (32 * banks.length)) 0xC
    k.canWrite base len
    if s.sliceDead site then return ((k.crumbSt .unavail).step, s)
    else
      await k.programRoom
      let jobs := (List.range banks.length).map fun i : Nat =>
        ({ slice := site, bank := banks.getD i 0, start := o.imm.toNat % 64,
           params := (List.range 8).map (fun q => BitVec.ofNat 32 (field data (32 * i + 4 * q) 4)), retBase := base, retLen := len,
           pc := k.pc, order := k.nextXfer, started := false, ended := false, back := [], flags := 0 } : CrumbJob)
      let k1 := { k.step with jobs := k.jobs ++ jobs }
      if site = lcSite c then return ({ k1 with nextXfer := k1.nextXfer + 1 }, s)
      else return startCrumb c k1 1 0 mask.toNat (s.siteOf c) site (vecFlits (data.map fun b => (b, false))) s

/-- CISSUE. -/
def execCissue (c : Lcid) (o : Op) (s : State) : Out :=
  issue c 0xB1 ⟨.s, .s, .s, 0, 0xFFFF003F, false⟩ o s (bodyCissue c o s)

/-- FENCE.CRUMB: once every program has ended and its returns have landed, merges their flags and releases their return
ranges (R143, R149). -/
def bodyFenceCrumb (k : CoreCtx) : Tr CoreCtx := do
  await (k.jobs.all (fun j => j.ended) && !k.crumbOut)
  return { k.orFlags (k.jobs.foldl (fun f j => f ||| j.flags) 0) with jobs := [] }

/-- FENCE.CRUMB; a broken crumb program stops the core here, at its CISSUE (R166). -/
def execFenceCrumb (c : Lcid) (o : Op) (s : State) : Out :=
  match (s.core c).crumbFault with
  | some a =>
    unit (validLcid c) <| when (issues s c 0xB2 o) s (progFault c 0xF a (s.core c).slot s)
  | none =>
    issueK c 0xB2 ⟨.no, .no, .no, 0, 0, false⟩ o s bodyFenceCrumb

/-- CSTAT: sd = the first completion code since the last CSTAT (R149). -/
def bodyCstat (o : Op) (k : CoreCtx) : Tr CoreCtx :=
    return { k.sset o.dst (BitVec.ofNat 64 k.crumbStatus.code) false with crumbStatus := .ok }

/-- CSTAT. -/
def execCstat (c : Lcid) (o : Op) (s : State) : Out :=
  issueK c 0xB3 ⟨.s, .no, .no, 0, 0, false⟩ o s (bodyCstat o)

/-! ## Running a program (R144-R147, R150) -/

/-- The crumb instruction word (R145). -/
def crumbWord (op : BitVec 6) (o : CrumbOp) : W32 := op ++ o.qd ++ o.qa ++ o.qb ++ o.imm

/-- A program of a unit: the core that issued it and the job, of those that pass a test, in program order. -/
def State.jobWhere (s : State) (u : UnitId) (f : CrumbJob → Bool) : Option (Lcid × CrumbJob) :=
  s.cores.findSome? fun e =>
    (e.2.jobs.find? fun j => j.slice == u.slice && j.bank == u.bank && f j).map fun j => (BitVec.ofNat 16 e.1, j)

/-- Changes a job of a core. -/
def modJob (c : Lcid) (j : CrumbJob) (g : CrumbJob → CrumbJob) (s : State) : State :=
  let k := s.core c
  s.setCore c { k with jobs := k.jobs.map fun x => if x = j then g x else x }

/-- Register q of a unit. -/
def CrumbUnit.reg (v : CrumbUnit) (r : BitVec 3) : W32 := Tab.getD v.q r.toNat 0

/-- Writes a register. -/
def CrumbUnit.setReg (v : CrumbUnit) (r : BitVec 3) (x : W32) : CrumbUnit := { v with q := Tab.set v.q r.toNat x }

/-- What the fetch of the next instruction finds wrong: no instruction, or an opcode not defined (R145, R147). -/
def CrumbUnit.fetchBad (v : CrumbUnit) : Bool :=
  match v.prog[v.pc]? with
  | none => true
  | some w => decide (10 < w.toNat / 2 ^ 26)

/-- The unit stops: it gives up its slot. -/
def CrumbUnit.stop (v : CrumbUnit) : CrumbUnit := { v with running := false, waiting := false, loop := none }

/-- A program breaks a rule of R147: its issuing core faults at its next FENCE.CRUMB or HALT (R166). -/
def breakProgram (c : Lcid) (u : UnitId) (j : CrumbJob) (s : State) : State :=
  let t := modJob c j (fun x => { x with ended := true }) (s.setCrumb u (s.crumbAt u).stop)
  let k := t.core c
  t.setCore c { k with crumbFault := some (k.crumbFault.getD j.pc) }

/-- The lines of a job's return range that have not landed are poisoned, with UNAVAIL (R167). -/
def loseReturns (c : Lcid) (u : UnitId) (j : CrumbJob) (s : State) : State :=
  let t := modJob c j (fun x => { x with ended := true }) (s.setCrumb u (s.crumbAt u).stop)
  let k := t.core c
  let back := (k.jobs.filter fun x => x.order == j.order).flatMap fun x => x.back
  let lines := (List.range (j.retLen / 64)).filter fun i => !back.any fun r => overlaps (64 * i) 64 r.1 r.2
  t.setCore c ((lines.foldl (fun k i => k.put (runOf (j.retBase + 64 * i) (Mem.read k.bench (j.retBase + 64 * i) 64) true)) k).crumbSt
    .unavail)

/-- CRUMB_PROGRAM_START: the unit's next program starts, once the one before it has ended and its vectors and parameters
have landed; it takes a slot or waits (R143, R150, R155). -/
def execCrumbProgramStart (u : UnitId) (s : State) : Out :=
  unit (validUnit u) <|
    match s.jobWhere u (fun j => !j.ended) with
    | none => skip s
    | some (c, j) =>
      let late := (s.core c).outbound.any fun x =>
        x.kind == 7 && decide (x.xfer % 4 ≠ 2) && decide (x.id ≤ j.order) && (BitVec.ofNat 48 x.group).getLsbD u.bank
      if j.started || late || decide (s.seqr.phase ≠ .executing) then skip s
      else if s.sliceDead u.slice then .next (loseReturns c u j s)
      else
        let v := s.crumbAt u
        let q : Tab W32 := (List.range 8).map fun i => (i, j.params.getD i 0)
        let v := { v with q := q, pc := j.start, flags := 0, loop := none, running := true, waiting := !s.slotFree u }
        let t := (modJob c j (fun x => { x with started := true }) s).setCrumb u v
        let j := { j with started := true }
        .next (if v.fetchBad then breakProgram c u j t else t)

/-- Why a crumb instruction does not complete. -/
inductive CStop where
  | wait | broken | full
deriving DecidableEq, Repr

/-- Requires a rule of R147. -/
def rule (b : Bool) : Except CStop Unit := if b then .ok () else .error .broken

/-- The next instruction of a unit, with the loop that ends here (R146). -/
def CrumbUnit.next (v : CrumbUnit) : CrumbUnit :=
  match v.loop with
  | none => { v with pc := v.pc + 1 }
  | some l =>
    if l.last = v.pc then
      (if l.left = 0 then { v with pc := v.pc + 1, loop := none } else { v with pc := l.first, loop := some { l with left := l.left - 1 } })
    else { v with pc := v.pc + 1 }

/-- One crumb instruction of a unit: taken where the unit runs, holds its slot and stands at this word; unused fields must be
zero. `body` gives the unit, at its next instruction, the cycles counted, and the state (R145, R154). -/
def crumbRun (u : UnitId) (op : BitVec 6) (d a b : Bool) (imms : BitVec 17) (o : CrumbOp) (s : State)
    (body : Lcid → CrumbJob → CrumbUnit → Except CStop (CrumbUnit × Nat × State)) : Out :=
  unit (validUnit u) <|
    let v := s.crumbAt u
    match s.jobWhere u (fun j => j.started && !j.ended) with
    | none => skip s
    | some (c, j) =>
      if v.running && !v.waiting && decide (s.seqr.phase = .executing) && decide (v.prog[v.pc]? = some (crumbWord op o)) then
        if s.sliceDead u.slice then .next (loseReturns c u j s)
        else
          let r : Except CStop (CrumbUnit × Nat × State) := do
            rule ((d || decide (o.qd = 0)) && (a || decide (o.qa = 0)) && (b || decide (o.qb = 0)) && decide (o.imm &&& ~~~imms = 0))
            body c j v
          match r with
          | .ok (v', n, t) =>
            let t := incP .crumbCycles n (t.setCrumb u v')
            .next (if v'.running && v'.fetchBad then breakProgram c u j t else t)
          | .error .wait => .next s
          | .error .broken => .next (breakProgram c u j s)
          | .error .full => .next (progFault c 0xB j.pc (s.core c).slot s)
      else skip s

/-- An instruction that changes its unit alone. -/
def crumbUnitOp (u : UnitId) (op : BitVec 6) (d a b : Bool) (imms : BitVec 17) (o : CrumbOp) (s : State)
    (f : CrumbUnit → Except CStop CrumbUnit) : Out :=
  crumbRun u op d a b imms o s fun _ _ v => do
    let w ← f v
    return (w.next, 1, s)

/-- END: the program ends and gives up its slot (R146). -/
def bodyEndProgram (s : State) (c : Lcid) (j : CrumbJob) (v : CrumbUnit) : Except CStop (CrumbUnit × Nat × State) :=
    return (v.stop, 1, modJob c j (fun x => { x with ended := true, flags := v.flags }) s)

/-- ENDPROGRAM. -/
def execEndProgram (u : UnitId) (o : CrumbOp) (s : State) : Out :=
  crumbRun u 0x00 false false false 0 o s (bodyEndProgram s)

/-- LDI: qd = IMM (R146). -/
def bodyLdi (o : CrumbOp) (v : CrumbUnit) : Except CStop CrumbUnit := return v.setReg o.qd (o.imm.setWidth 32)

/-- LDI. -/
def execLdi (u : UnitId) (o : CrumbOp) (s : State) : Out :=
  crumbUnitOp u 0x01 true false false 0x1FFFF o s (bodyLdi o)

/-- ADDI: qd = qa + sext(IMM) (R146). -/
def bodyAddi (o : CrumbOp) (v : CrumbUnit) : Except CStop CrumbUnit := return v.setReg o.qd (v.reg o.qa + o.imm.signExtend 32)

/-- ADDI. -/
def execAddi (u : UnitId) (o : CrumbOp) (s : State) : Out :=
  crumbUnitOp u 0x02 true true false 0x1FFFF o s (bodyAddi o)

/-- ADD: qd = qa + qb (R146). -/
def bodyCrumbAdd (o : CrumbOp) (v : CrumbUnit) : Except CStop CrumbUnit := return v.setReg o.qd (v.reg o.qa + v.reg o.qb)

/-- CRUMBADD. -/
def execCrumbAdd (u : UnitId) (o : CrumbOp) (s : State) : Out :=
  crumbUnitOp u 0x03 true true true 0 o s (bodyCrumbAdd o)

/-- SUB: qd = qa − qb (R146). -/
def bodyCrumbSub (o : CrumbOp) (v : CrumbUnit) : Except CStop CrumbUnit := return v.setReg o.qd (v.reg o.qa - v.reg o.qb)

/-- CRUMBSUB. -/
def execCrumbSub (u : UnitId) (o : CrumbOp) (s : State) : Out :=
  crumbUnitOp u 0x04 true true true 0 o s (bodyCrumbSub o)

/-- Bytes of a vector element: BF16, or INT8 for the integer formats. -/
def vecElem (fmt : Nat) : Nat := if fmt ≤ 6 then 2 else 1

/-- FMT: weight format, *K* and vector base (R146, R147). -/
def bodyFmt (o : CrumbOp) (v : CrumbUnit) : Except CStop CrumbUnit := do
    let code := o.imm.toNat
    let k := (v.reg o.qa).toNat
    let base := (v.reg o.qb).toNat
    rule (decide (2 ≤ code) && decide (code ≤ 8) && decide (k % 32 = 0) && decide (k ≠ 0) && decide (base % 64 = 0)
      && decide (base + k * vecElem code ≤ 8192))
    return { v with fmt := some (code, k, base) }

/-- FMT. -/
def execFmt (u : UnitId) (o : CrumbOp) (s : State) : Out :=
  crumbUnitOp u 0x05 false true true 0xF o s (bodyFmt o)

/-- Bytes of a row record: weights, and its scale bytes for MX formats (R140). -/
def recordLen (code k : Nat) : Nat :=
  roundUp (k * fmtBits code / 8) 16 + if code ≤ 6 then roundUp (k / 32) 16 else 0

/-- Element `i` of the vector. -/
def CrumbUnit.vecAt (v : CrumbUnit) (code base i : Nat) : Val :=
  if code ≤ 6 then val16 (BitVec.ofNat 16 (leNat (Mem.read v.vec (base + 2 * i) 2)))
  else codeVal 7 (Mem.get v.vec (base + i)).toNat

/-- One row record against the vector, into an accumulator entry (R142). -/
def rowDot (v : CrumbUnit) (code k base : Nat) (rec : List Byte) (acc : W32) : W32 × Fl :=
  let bits := fmtBits code
  let w (i : Nat) : Nat := field rec (i * bits / 8) 2 / 2 ^ (i * bits % 8) % 2 ^ bits
  (List.range (k / 32)).foldl
    (fun (a : W32 × Fl) b =>
      if code ≤ 6 then
        let s := (List.range 32).foldl
          (fun (x : Val × Fl) i =>
            let p := prodVal (codeVal code (w (32 * b + i))) (v.vecAt code base (32 * b + i))
            let r := sumVal x.1 p.1
            (r.1, x.2 ||| p.2 ||| r.2)) (Val.zero, (0 : Fl))
        let t := to32 s.1
        let x := (rec.getD (roundUp (k * bits / 8) 16 + b) 0).toNat
        let u : W32 × Fl := if x = 0xFF then (0x7FC00000, flInv) else scale2 t.1 ((x : Int) - 127)
        let c := sumVal (val32 a.1) (val32 u.1)
        let z := to32 c.1
        (z.1, a.2 ||| s.2 ||| t.2 ||| u.2 ||| c.2 ||| z.2)
      else
        let s : Int := (List.range 32).foldl
          (fun x i => x + codeInt code (w (32 * b + i)) * codeInt 7 (Mem.get v.vec (base + 32 * b + i)).toNat) 0
        let z := satInt 32 (a.1.toInt + s)
        (z.1, a.2 ||| z.2)) (acc, 0)

/-- Clears entries `n` from `a`, and the poison of the groups they wholly cover. -/
def CrumbUnit.clear (v : CrumbUnit) (a n : Nat) : CrumbUnit :=
  { v with
    acc := v.acc.filter fun e => !(decide (a ≤ e.1) && decide (e.1 < a + n))
    accPoison := v.accPoison.filter fun g => !(decide (a ≤ 16 * g) && decide (16 * g + 16 ≤ a + n)) }

/-- Poisons the groups of entries. -/
def CrumbUnit.taint (v : CrumbUnit) (l : List Nat) : CrumbUnit :=
  { v with accPoison := v.accPoison ++ ((l.map fun e => e / 16).eraseDups.filter fun g => !v.accPoison.contains g) }

/-- What a unit reports of one 128-bit word it reads: both halves to the fault log as its bank's errors, and the word once, as
uncorrectable where a half is (a poison encoding is, R281) and else as corrected where a half is (R163). A wholly poisoned line was
reported when it was poisoned: its words are only counted (log 38). -/
def noteCrumbWord (slice loc : Nat) (s : State) : State :=
  let l := [loc, loc + 8]
  let t := l.foldl
    (fun t x =>
      match s.metAt slice x with
      | .corrupt => noteCorrected true slice x t
      | .uncorrectable => noteUncorrectable true slice x t
      | _ => t) s
  if l.any fun x => s.wordAt slice x = .poison || s.wordAt slice x = .uncorrectable then inc .crumbPoison 1 t
  else if l.any fun x => s.wordAt slice x = .corrupt then inc .crumbCorrected 1 t
  else t

/-- MV: row records from bank offset qa against the vector, into entries from qd (R142, R146, R147, R163, R164). -/
def bodyMv (u : UnitId) (o : CrumbOp) (s : State) (c : Lcid) (_ : CrumbJob) (v : CrumbUnit) : Except CStop (CrumbUnit × Nat × State) := do
    match v.fmt with
    | none => .error .broken
    | some (code, k, base) =>
      let n := (v.reg o.qb).toNat
      let off := (v.reg o.qa).toNat
      let e0 := (v.reg o.qd).toNat
      let rl := recordLen code k
      rule (decide (n ≠ 0) && decide (off % 16 = 0) && decide (off + n * rl ≤ 0x400000) && decide (e0 + n ≤ 512)
        && (decide (7 ≤ code) == v.int))
      let v0 := if o.imm.getLsbD 0 then v.clear e0 n else v
      let loc (i : Nat) : Nat := u.bank * 0x400000 + off + i * rl
      let out : List (Nat × W32 × Fl) := (List.range n).map fun i =>
        (e0 + i, rowDot v code k base ((List.range rl).map fun b => s.byteAt u.slice (loc i + b)) (Tab.getD v0.acc (e0 + i) 0))
      let vecBad := v.vecPoison.any fun l => overlaps (64 * l) 64 base (k * vecElem code)
      let words (i : Nat) : List (Nat × WordSt) := ((List.range (rl / 8)).map fun b =>
        (loc i + 8 * b, s.wordAt u.slice (loc i + 8 * b))).filter fun x => x.2 != .clean
      let badRows := (List.range n).filter fun i => vecBad || (words i).any fun x => x.2 != .corrupt
      let v1 := { v0 with
        acc := out.foldl (fun t (e : Nat × W32 × Fl) => Tab.set t e.1 e.2.1) v0.acc
        flags := out.foldl (fun f (e : Nat × W32 × Fl) => f ||| e.2.2) v.flags }
      let v1 := v1.taint (badRows.map fun i => e0 + i)
      let t := (List.range n).foldl (fun t i => (List.range (rl / 16)).foldl (fun t w => noteCrumbWord u.slice (loc i + 16 * w) t) t) s
      let k' := t.core c
      return (v1.next, n * (rl / 16) + 6, if badRows.isEmpty then t else t.setCore c (k'.eat true))

/-- MV. -/
def execMv (u : UnitId) (o : CrumbOp) (s : State) : Out :=
  crumbRun u 0x06 true true true 1 o s (bodyMv u o s)

/-- CLRA: entries qa to qa + qb − 1 = 0, and the file's type (R146). -/
def bodyClra (o : CrumbOp) (s : State) (_ : Lcid) (_ : CrumbJob) (v : CrumbUnit) : Except CStop (CrumbUnit × Nat × State) := do
    let a := (v.reg o.qa).toNat
    let n := (v.reg o.qb).toNat
    rule (decide (a + n ≤ 512))
    return ({ (v.clear a n).next with int := o.imm.getLsbD 0 }, ceilDiv n 16, s)

/-- CLRA. -/
def execClra (u : UnitId) (o : CrumbOp) (s : State) : Out :=
  crumbRun u 0x07 false true true 1 o s (bodyClra o s)

/-- The bytes of an entry: 4, or 2 as BF16 under R70. -/
def CrumbUnit.entryBytes (v : CrumbUnit) (bf : Bool) (e : Nat) : List Byte × Fl :=
  let w := Tab.getD v.acc e 0
  if bf then
    let r := bf16.encode (if v.int then Val.ofInt w.toInt else val32 w)
    (leBytes 2 r.1, r.2)
  else (leBytes 4 w.toNat, 0)

/-- The bytes of a range of entries with their poison, and the flags raised. -/
def CrumbUnit.entries (v : CrumbUnit) (bf : Bool) (a n : Nat) : List (Byte × Bool) × Fl :=
  let l := (List.range n).map fun i => (v.entryBytes bf (a + i), v.accPoison.contains ((a + i) / 16))
  (l.flatMap fun e => e.1.1.map fun b => (b, e.2), l.foldl (fun f e => f ||| e.1.2) 0)

/-- RETV: sends entries to the issuing core's bench at return base + qd (R146, R147, R159). -/
def bodyRetv (u : UnitId) (o : CrumbOp) (s : State) (c : Lcid) (j : CrumbJob) (v : CrumbUnit) : Except CStop (CrumbUnit × Nat × State) := do
    let a := (v.reg o.qa).toNat
    let n := (v.reg o.qb).toNat
    let d := (v.reg o.qd).toNat
    let bf := o.imm.getLsbD 0
    let bytes := if bf then 2 * n else 4 * n
    rule (decide (a + n ≤ 512) && decide (d + bytes ≤ j.retLen) && decide ((j.retBase + d) % 64 = 0) && decide (bytes % 64 = 0))
    let (t, go) := if n = 0 then (s, true) else sliceTokens c (bytes / 64) s
    if !go then .error .wait
    else
      let (l, fl) := v.entries bf a n
      let v' := { v.next with flags := v.flags ||| fl }
      let t := modJob c j (fun x => { x with back := x.back ++ [(d, bytes)] }) t
      let k := t.core c
      if u.slice = lcSite c then
        let put := (List.range l.length).map fun i => (j.retBase + d + i, (l.getD i (0, false)).1, (l.getD i (0, false)).2)
        let k := if l.any fun e => e.2 then k.crumbSt .poison else k
        return (v', ceilDiv bytes 16, t.setCore c (k.put put))
      else
        let r := startCrumb c k 2 (j.retBase + d) 0 (u.slice % 256) (t.siteOf c) (vecFlits l) t
        return (v', ceilDiv bytes 16, r.2)

/-- RETV. -/
def execRetv (u : UnitId) (o : CrumbOp) (s : State) : Out :=
  crumbRun u 0x08 true true true 1 o s (bodyRetv u o s)

/-- Stages the lines of an STV; none where the bank stage is full. -/
def stageLines64 (u : UnitId) (order : List Nat) (off : Nat) (l : List (Byte × Bool)) (s : State) : Option State :=
  (List.range (l.length / 64)).foldl
    (fun st i =>
      st.bind fun t =>
        let p := (l.drop (64 * i)).take 64
        stageLine t { site := u.slice, line := u.bank * 0x400000 + off + 64 * i, data := lineTab (p.map Prod.fst),
                      poison := p.any fun e => e.2, order := order, append := false }) (some s)

/-- STV: stages entries as 32-bit values at bank offset qd (R146, R147, R159, R160). -/
def bodyStv (u : UnitId) (o : CrumbOp) (s : State) (c : Lcid) (j : CrumbJob) (v : CrumbUnit) : Except CStop (CrumbUnit × Nat × State) := do
    let a := (v.reg o.qa).toNat
    let n := (v.reg o.qb).toNat
    let d := (v.reg o.qd).toNat
    rule (decide (a + n ≤ 512) && decide (d % 64 = 0) && decide (4 * n % 64 = 0) && decide (d + 4 * n ≤ 0x400000))
    match stageLines64 u [2, lcOrd c, j.order, u.bank, v.stvs] d (v.entries false a n).1 s with
    | none => .error .full
    | some t => return ({ v.next with stvs := v.stvs + 1 }, ceilDiv (4 * n) 16, t)

/-- STV. -/
def execStv (u : UnitId) (o : CrumbOp) (s : State) : Out :=
  crumbRun u 0x09 true true true 0 o s (bodyStv u o s)

/-- LOOP: the next IMM[3:0] instructions, qa times; a zero count skips the body (R146, R147). -/
def bodyCrumbLoop (o : CrumbOp) (s : State) (_ : Lcid) (_ : CrumbJob) (v : CrumbUnit) : Except CStop (CrumbUnit × Nat × State) := do
    let len := o.imm.toNat
    let n := (v.reg o.qa).toNat
    rule (v.loop.isNone && decide (len ≠ 0) && decide (v.pc + len < v.prog.length))
    if n = 0 then return ({ v with pc := v.pc + len + 1 }, 1, s)
    else return ({ v with pc := v.pc + 1, loop := some ⟨v.pc + 1, v.pc + len, n - 1⟩ }, 1, s)

/-- CRUMBLOOP. -/
def execCrumbLoop (u : UnitId) (o : CrumbOp) (s : State) : Out :=
  crumbRun u 0x0A false true false 0xF o s (bodyCrumbLoop o s)

end Sys2Proof.Machine
end

