-- ==== Sys2Proof/Machine/Mesh.lean ====
section
/-! DEFINITION. Network and fold instructions, the flits of the mesh and the frames of the die edges (R235-R263). -/

namespace Sys2Proof.Machine

open Sys2Proof

/-! ## Sending (R241, R242, R250, R252) -/

/-- The length and offset rules of R250. -/
def netForm (n off : Nat) : Tr Unit :=
  need (decide (n % 64 = 0) && decide (64 ≤ n) && decide (n ≤ benchSize) && decide (off % 64 = 0)) 5

/-- The lines of a bench range as flits at window offset `off`, with their poison. -/
def benchFlits (k : CoreCtx) (a n off : Nat) (data : List Byte) : List (Nat × List Byte × Bool) :=
  (List.range (n / 64)).map fun i => (off + 64 * i, slice data (64 * i) 64, k.dirty (a + 64 * i) 64)

/-- Starts a transfer; destinations on stacks that are gone take no flit and are left out with UNAVAIL (R242, R270). -/
def launch (c : Lcid) (k : CoreCtx) (x : NetXfer) (s : State) : CoreCtx × State :=
  let lost := (List.range x.dests.length).filter fun i =>
    let m := x.dests.getD i 0
    lcStack m != lcStack c && s.refusing (lcStack m)
  let (_, t) := startNet c k k.nextXfer { x with stream := if lost.isEmpty then x.stream else none } s
  let t := lost.foldl (fun t d => leaveDest c k.nextXfer d .unavail t) t
  (t.core c, t)

/-- NPUT: bench bytes to a window of a core of the same stack (R250, R252). -/
def bodyNput (c : Lcid) (o : Op) (s : State) (k : CoreCtx) : Tr (CoreCtx × State) := do
    let d := (← k.addr o.dst).toNat
    let a := (← k.addr o.a).toNat
    let n := (← k.addr o.b).toNat
    need (decide (d / 2 ^ 40 = 0)) 2
    let off := d / 2 ^ 16 % 2 ^ 24
    netForm n off
    let m : Lcid := BitVec.ofNat 16 d
    need (validLcid m && lcStack m == lcStack c) 0x12
    let data ← k.rd a n
    await k.netRoom
    return launch c k.step { NetXfer.init 3 0 o.imm.toNat none [m] (benchFlits k a n off data) with reads := [(a, n)] } s

/-- NPUT. -/
def execNput (c : Lcid) (o : Op) (s : State) : Out :=
  issue c 0xA0 ⟨.s, .s, .s, 0, 0x3F, false⟩ o s (bodyNput c o s)

/-- STSEND: bench bytes on a stream to a window of a core on any stack (R250, R262). -/
def bodyStsend (c : Lcid) (o : Op) (s : State) (k : CoreCtx) : Tr (CoreCtx × State) := do
    let d := (← k.addr o.dst).toNat
    let a := (← k.addr o.a).toNat
    let n := (← k.addr o.b).toNat
    need (decide (d / 2 ^ 40 = 0)) 2
    let off := d / 2 ^ 16 % 2 ^ 24
    netForm n off
    let m : Lcid := BitVec.ofNat 16 d
    let x := NetXfer.init 3 0 (o.imm.toNat / 256) (some (o.imm.toNat % 8)) [m] (benchFlits k a n off [])
    need (validLcid m && streamReaches s c x) 0x12
    let data ← k.rd a n
    await k.netRoom
    return launch c k.step { x with flits := benchFlits k a n off data, reads := [(a, n)] } s

/-- STSEND. -/
def execStsend (c : Lcid) (o : Op) (s : State) : Out :=
  issue c 0xA5 ⟨.s, .s, .s, 0, 0x3F07, false⟩ o s (bodyStsend c o s)

/-- MCAST: bench bytes to the windows of every member of a group, from its ROOT alone (R242, R250, R252). -/
def bodyMcast (c : Lcid) (o : Op) (s : State) (k : CoreCtx) : Tr (CoreCtx × State) := do
    let d := (← k.addr o.dst).toNat
    let a := (← k.addr o.a).toNat
    let n := (← k.addr o.b).toNat
    need (decide (d / 2 ^ 24 = 0)) 2
    netForm n d
    match groupOf s c o.imm.toNat with
    | none => .error (.trap 0x12)
    | some g =>
      let x := NetXfer.init 4 g.group g.xfer (defaultStream s c) g.members (benchFlits k a n d [])
      need (g.multicast && g.root == c && n == g.len && streamReaches s c x) 0x12
      let data ← k.rd a n
      await k.netRoom
      return launch c k.step { x with flits := benchFlits k a n d data, reads := [(a, n)] } s

/-- MCAST. -/
def execMcast (c : Lcid) (o : Op) (s : State) : Out :=
  issue c 0xA1 ⟨.s, .s, .s, 0, 0xFF, false⟩ o s (bodyMcast c o s)

/-! ## Folds (R243-R247) -/

/-- Contributions alive at a level of the tree of a fold of `n` members (R244). -/
def foldLive (n : Nat) : Nat → Nat
  | 0 => n
  | l + 1 => (foldLive n l + 1) / 2

/-- Passes an odd last contribution up unchanged (R244). -/
def foldUp (n : Nat) : Nat → Nat → Nat → Nat × Nat
  | 0, l, i => (l, i)
  | fuel + 1, l, i =>
    if foldLive n l ≤ 1 then (l, i)
    else if i % 2 = 0 ∧ foldLive n l ≤ i + 1 then foldUp n fuel (l + 1) (i / 2)
    else (l, i)

/-- The router of the node an operand goes to, or of ROOT for the result (R244). -/
def foldSite (s : State) (g : GroupEnt) (l i : Nat) : Nat :=
  if foldLive g.members.length l ≤ 1 then s.siteOf g.root
  else s.siteOf (g.members.getD (i / 2 * 2 * 2 ^ l) g.root)

/-- *d* of an FSMERGE group. -/
def GroupEnt.d (g : GroupEnt) : Nat := 64 * 2 ^ g.dim

/-- Flits combined together: a whole row for FSMERGE, one otherwise (R245, R246). -/
def GroupEnt.unit (g : GroupEnt) : Nat := if g.op = 2 then 1 + g.d / 16 + (if g.capture then 2 else 0) else 1

/-- An operand flit of a fold for contribution `i` of level `l`, sent from a site. -/
def foldFlit (s : State) (stack slot : Nat) (g : GroupEnt) (l i src seq : Nat) (payload : List Byte) (poison : Bool) : NetFlit :=
  let p := foldUp g.members.length 16 l i
  { stack := stack, tag := BitVec.ofNat 16 s.seqr.count, seq := BitVec.ofNat 16 seq, group := BitVec.ofNat 8 g.group,
    dest := BitVec.ofNat 8 (foldSite s g p.1 p.2), src := BitVec.ofNat 8 src, kind := 5, vc := 1, poison := poison,
    last := decide (64 * (seq + 1) = g.len), status := 0, orig := BitVec.ofNat 5 stack, sys := false,
    offset := BitVec.ofNat 32 (64 * seq), payload := payload, node := (256 * slot + p.1, p.2), ofFold := true, far := none,
    core := g.root }

/-- Two flits are of the same operand of a fold. -/
def sameOperand (f h : NetFlit) : Bool := f.stack == h.stack && f.node == h.node && f.group == h.group

/-- Credits left for an operand: 32 less its flits in flight or buffered and its credits on the way back; a result needs
none (R245). -/
def foldRoom (s : State) (g : GroupEnt) (f : NetFlit) : Nat :=
  if foldLive g.members.length (f.node.1 % 256) ≤ 1 then 1000
  else 32 - ((s.flits.filter fun h => (h.kind == 5 || h.kind == 0xA) && sameOperand f h).length
    + (s.foldBuf.filter fun h => sameOperand f h).length)

/-- Sends fold flits of a core while credits last: the state and the flits left. -/
def sendFold (c : Lcid) (g : GroupEnt) : List NetFlit → State → State × List NetFlit
  | [], s => (s, [])
  | f :: l, s => if 0 < foldRoom s g f then sendFold c g l (inject c [f] s) else (s, f :: l)

/-- The flits of a row of an FSMERGE contribution (R246). -/
def rowPayloads (r : PartRow) (capture : Bool) : List (List Byte) :=
  (r.stat ++ List.replicate 48 0)
    :: (List.range (r.o.length / 16)).map (fun q => wordBytes ((r.o.drop (16 * q)).take 16))
    ++ (if capture then [r.candBytes.take 64, r.candBytes.drop 64] else [])

/-- The row that flits of an FSMERGE carry. -/
def rowOfPayloads (d : Nat) (capture : Bool) (l : List (List Byte)) : PartRow :=
  let w (b : List Byte) (i : Nat) : W32 := BitVec.ofNat 32 (field b (4 * i) 4)
  let st := l.getD 0 []
  let c := (l.drop (1 + d / 16)).flatten
  { o := (List.range d).map fun j => w (l.getD (1 + j / 16) []) (j % 16), m := w st 0, l := w st 1, empty := (w st 2).getLsbD 0,
    mass := w st 3, cands := if capture then (List.range 16).map fun i => (w c (2 * i), w c (2 * i + 1)) else [], bad := false }

/-- FOLD: contributes bench bytes, or a partial, to a fold group (R243, R246, R250, R252). -/
def bodyFold (c : Lcid) (o : Op) (s : State) (k : CoreCtx) : Tr (CoreCtx × State) := do
    let a := (← k.addr o.a).toNat
    match groupOf s c o.imm.toNat with
    | none => .error (.trap 0x12)
    | some g =>
      need (!g.multicast && g.members.contains c && !k.folded.contains g.group) 0x12
      let i := g.members.findIdx fun m => m == c
      let (parts, reads) ←
        if g.op = 2 then do
          need (decide (o.b = 0)) 2
          let p ← k.readPart a g.capture
          need (decide (p.rows = g.rows) && decide (p.dim = g.dim)) 0x12
          pure (((List.range p.rows).flatMap fun r =>
            let row := p.row k g.capture r
            let pay := rowPayloads row g.capture
            let bad (j : Nat) : Bool :=
              if j = 0 then k.dirty (p.stat + 16 * r) 16
              else if j ≤ g.d / 16 then k.dirty (p.o + 4 * p.d * r + 64 * (j - 1)) 64
              else k.dirty (p.cand + 128 * r + 64 * (j - 1 - g.d / 16)) 64
            (List.range pay.length).map fun j => (pay.getD j [], bad j)), p.ranges g.capture)
        else do
          let n := (← k.addr o.b).toNat
          netForm n 0
          need (decide (n = g.len)) 0x12
          let data ← k.rd a n
          pure (((List.range (n / 64)).map fun j => (slice data (64 * j) 64, k.dirty (a + 64 * j) 64)), [(a, n)])
      await k.netRoom
      let flits := (List.range parts.length).map fun j =>
        let e := parts.getD j ([], false)
        foldFlit s (lcStack c) k.slot g 0 i (s.siteOf c) j e.1 e.2
      let x := { NetXfer.init 5 g.group g.xfer none [g.root] (parts.map fun e => (0, e.1, e.2)) with
        id := k.nextXfer, batch := k.nextXfer, reads := reads }
      let k1 := { k.step with nextXfer := k.nextXfer + 1, outbound := k.outbound ++ [x], folded := g.group :: k.folded,
                              netCounts := Tab.set k.netCounts 4 (Tab.getD k.netCounts 4 0 + 1) }
      let (t, left) := sendFold c g flits (s.setCore c k1)
      let t := modNet c x.id (fun y => { y with unsent := left }) t
      return (t.core c, t)

/-- FOLD. -/
def execFold (c : Lcid) (o : Op) (s : State) : Out :=
  issue c 0xA2 ⟨.no, .s, .s, 0, 0xFF, false⟩ o s (bodyFold c o s)

/-- A node's operation on a payload of 64 bytes (R243). -/
def foldPayload (op : Nat) (a b : List Byte) : List Byte × Fl :=
  if op = 4 then ((List.range 64).map (fun i => a.getD i 0 ||| b.getD i 0), 0)
  else
    let w (l : List Byte) (i : Nat) : W32 := BitVec.ofNat 32 (field l (4 * i) 4)
    let r := (List.range 16).map fun i =>
      let x := w a i
      let y := w b i
      match op with
      | 0 => fadd x y
      | 1 => (fmax x y, 0)
      | _ => satInt 32 (x.toInt + y.toInt)
    (wordBytes (r.map Prod.fst), r.foldl (fun f e => f ||| e.2) 0)

/-- What a node makes of a unit of both operands: payloads with their poison, and the flags raised (R243, R247). -/
def foldUnit (g : GroupEnt) (a b : List NetFlit) : List (List Byte × Bool) × Fl :=
  if g.op = 2 then
    let ra := rowOfPayloads g.d g.capture (a.map fun f => f.payload)
    let rb := rowOfPayloads g.d g.capture (b.map fun f => f.payload)
    let m := mergeRow g.capture ra rb
    let p (l : List NetFlit) (i : Nat) : Bool := match l[i]? with | some f => f.poison | none => false
    let pay := rowPayloads m.1 g.capture
    ((List.range pay.length).map (fun i => (pay.getD i [], p a 0 || p b 0 || p a i || p b i)), m.2)
  else
    match a, b with
    | x :: _, y :: _ => let r := foldPayload g.op x.payload y.payload; ([(r.1, x.poison || y.poison)], r.2)
    | _, _ => ([], 0)

/-- A control flit that returns the credit of an operand flit to its sender. -/
def creditFlit (f : NetFlit) : NetFlit := { f with kind := 0xA, vc := 0, dest := f.src, src := f.dest, payload := [], poison := false, last := true }

/-- A member's serving site lies in a quadrant in reset: it is missing (R248). -/
def State.memberGone (s : State) (m : Lcid) : Bool :=
  match s.serving m with | some n => s.quadGone (siteQuad n) | none => true

/-- Every member of the subtree of contribution `i` of a level is missing. -/
def State.subtreeGone (s : State) (g : GroupEnt) (l i : Nat) : Bool :=
  ((g.members.drop (i * 2 ^ l)).take (2 ^ l)).all fun m => s.memberGone m

/-- A node tries unit `n` of a pair of operands, with room for the result. With both present it combines them (R245); where one
operand's members are all missing it passes the other unchanged, poisoned, and drops what that one sent; with both missing it sends
nothing (R248). -/
def tryUnit (slot stack l j n : Nat) (g : GroupEnt) (s : State) : State :=
  let isOp (i : Nat) (f : NetFlit) : Bool :=
    f.stack == stack && f.node == (256 * slot + l, i) && f.group.toNat == g.group && f.seq.toNat / g.unit == n
  let a := s.foldBuf.filter (isOp (2 * j))
  let b := s.foldBuf.filter (isOp (2 * j + 1))
  let site := foldSite s g l (2 * j)
  let up (i : Nat) (e : List Byte × Bool) : NetFlit := foldFlit s stack slot g (l + 1) j site (n * g.unit + i) e.1 e.2
  let room := decide (g.unit ≤ foldRoom s g (up 0 ([], false)))
  let lostA := s.subtreeGone g l (2 * j)
  let lostB := s.subtreeGone g l (2 * j + 1)
  let sent (t : State) (l : List NetFlit) : State :=
    { t with
      foldBuf := t.foldBuf.filter fun f => !(isOp (2 * j) f || isOp (2 * j + 1) f)
      flits := t.flits ++ l ++ (a ++ b).map creditFlit }
  let pass (l : List NetFlit) : State :=
    if l.length = g.unit ∧ room then sent s ((List.range l.length).map fun i => up i (((l[i]?).elim [] NetFlit.payload), true)) else s
  if lostA then (if lostB then s else pass b)
  else if lostB then pass a
  else if a.length = g.unit ∧ b.length = g.unit ∧ room then
    let r := foldUnit g a b
    let root := s.core g.root
    let t := s.setCore g.root (root.modWin g.xfer fun w => { w with flags := w.flags ||| r.2 })
    sent t ((List.range r.1.length).map fun i => up i (r.1.getD i ([], false)))
  else s

/-- A node tries every unit of a pair of operands. -/
def tryNode (slot stack l j : Nat) (g : GroupEnt) (s : State) : State :=
  (List.range (ceilDiv (g.len / 64) g.unit)).foldl (fun t n => tryUnit slot stack l j n g t) s

/-- Where a fold result flit goes at its root: its window's place, or for FSMERGE the partial that the descriptor at BASE names
(R246). -/
def foldPlace (g : GroupEnt) (f : NetFlit) (k : CoreCtx) (w : WinState) : List (Nat × Byte × Bool) :=
  if g.op = 2 then
    let p := partD (Mem.read k.bench w.base 16)
    let r := f.seq.toNat / g.unit
    let i := f.seq.toNat % g.unit
    if i = 0 then runOf (p.stat + 16 * r) (f.payload.take 16) f.poison
    else if i ≤ g.d / 16 then runOf (p.o + 4 * g.d * r + 64 * (i - 1)) (slice f.payload 0 64) f.poison
    else runOf (p.cand + 128 * r + 64 * (i - 1 - g.d / 16)) (slice f.payload 0 64) f.poison
  else plainPlace f k w

/-- A fold flit at the router it is bound for. -/
def foldArrives (f : NetFlit) (s : State) : State :=
  let slot := f.node.1 / 256
  let l := f.node.1 % 256
  match (s.planAt slot).bind fun p => p.groups.find? fun x => x.group == f.group.toNat with
  | none => s
  | some g =>
    if foldLive g.members.length l ≤ 1 then
      (if s.siteDown f then absorb f s else landIn g.root { f with group := BitVec.ofNat 8 g.xfer } (foldPlace g f) s)
    else if s.subtreeGone g l f.node.2 then s
    else tryNode slot f.stack l (f.node.2 / 2) g { s with foldBuf := s.foldBuf ++ [f] }

/-- FLIT_FOLD: a fold flit reaches its node, or the root's window (R243-R248). -/
def execFlitFold (f : NetFlit) (bad : List Nat) (s : State) : Out := arrive 5 f bad s (foldArrives f)

/-- FLIT_CREDIT: a credit returns: its sender's next flits go (R245). -/
def execFlitCredit (f : NetFlit) (bad : List Nat) (s : State) : Out :=
  arrive 0xA f bad s fun s =>
    let slot := f.node.1 / 256
    let l := f.node.1 % 256
    match (s.planAt slot).bind fun p => p.groups.find? fun x => x.group == f.group.toNat with
    | none => s
    | some g =>
      let member := g.members.findSome? fun m =>
        ((s.core m).outbound.find? fun x => x.kind == 5 && x.group == g.group
            && (match x.unsent with | h :: _ => h.node == f.node | [] => false)).map fun x => (m, x)
      match member with
      | some (m, x) =>
        let (t, left) := sendFold m g x.unsent s
        modNet m x.id (fun y => { y with unsent := left }) t
      | none => if l = 0 then s else tryNode slot f.stack (l - 1) f.node.2 g s

/-! ## Flits of slice transfers (R117, R135, R235, R263) -/

/-- Sends a flit off its die if it is bound there; else delivers it. -/
def orLeave (f : NetFlit) (k : State → State) (s : State) : State :=
  match f.far with
  | some w => if w.stack ≠ f.stack then leaveDie f w s else k s
  | none => k s

/-- The slice site a flit of a slice transfer is bound for has no controller to answer it (R118, R248). -/
def State.noSlice (s : State) (f : NetFlit) : Bool := s.sliceDead (256 * f.stack + f.dest.toNat)

/-- The answer to a read: one flit a line of the piece, back to the requester (R117, R263). -/
def readData (s : State) (f : NetFlit) : List NetFlit :=
  let c : Lcid := BitVec.ofNat 16 f.node.1
  match s.xferOf c f.node.2 with
  | none => []
  | some x =>
    match (pieces x.addr.toNat x.len).find? fun p => p.1 == f.offset.toNat with
    | none => []
    | some p =>
      let home := lcStack c
      (List.range (ceilDiv p.2 64)).map fun i =>
        let at_ := s.sliceAt c x.addr.toNat (p.1 + 64 * i)
        { f with
          kind := 1, vc := if home = f.stack then 1 else 2, src := f.dest, orig := BitVec.ofNat 5 f.stack,
          seq := BitVec.ofNat 16 (p.1 / 64 + i), offset := BitVec.ofNat 32 (p.1 + 64 * i), payload := s.bytesAt at_.1 at_.2 64,
          poison := s.linePoison at_.1 at_.2, last := decide (64 * (i + 1) = p.2),
          dest := BitVec.ofNat 8 (if home = f.stack then s.siteOf c else s.portSite f.stack 8),
          far := if home = f.stack then none else some (globalWay home), core := c }

/-- FLIT_READ_REQ: the target's controller answers, or refuses with UNAVAIL (R118, R235, R248, R263). -/
def execFlitReadReq (f : NetFlit) (bad : List Nat) (s : State) : Out :=
  arrive 0 f bad s <| orLeave f fun s =>
    if s.noSlice f then absorb f s else { s with flits := s.flits ++ readData s f }

/-- FLIT_READ_DATA: one line of a read is delivered (R117, R263). -/
def execFlitReadData (f : NetFlit) (bad : List Nat) (s : State) : Out :=
  arrive 1 f bad s <| orLeave f (modXfer (BitVec.ofNat 16 f.node.1) f.node.2 fun x => { x with away := x.away - 1 })

/-- FLIT_WRITE: one line of a store reaches its slice (R128, R263). -/
def execFlitWrite (f : NetFlit) (bad : List Nat) (s : State) : Out :=
  arrive 2 f bad s <| orLeave f fun s =>
    if s.noSlice f then absorb f s else modXfer (BitVec.ofNat 16 f.node.1) f.node.2 (fun x => { x with away := x.away - 1 }) s

/-! ## Flits of puts, multicasts, routes and crumbs (R104-R106, R151, R236, R239, R242) -/

/-- The logical core a flit is delivered to. -/
def State.memberAt (s : State) (f : NetFlit) : Option Lcid := s.servedAt (256 * f.stack + f.dest.toNat)

/-- Delivers a flit to the core at its site, or absorbs it where the quadrant takes none (R248). -/
def deliver (f : NetFlit) (k : Lcid → State → State) : State → State :=
  orLeave f fun s =>
    if s.siteDown f then absorb f s
    else match s.memberAt f with
      | some m => k m s
      | none => s

/-- FLIT_PUT: a flit lands in a window (R239). -/
def execFlitPut (f : NetFlit) (bad : List Nat) (s : State) : Out :=
  arrive 3 f bad s <| deliver f fun m s => tookFlit f (landIn m f (plainPlace f) s)

/-- FLIT_MCAST: a multicast copy lands at a member, or a member whose buffers are full refuses it with BUSY (R242). -/
def execFlitMcast (f : NetFlit) (bad : List Nat) (full : Bool) (s : State) : Out :=
  arrive 4 f bad s <| deliver f fun m s =>
    if full then sendCtl (answerFlit s f 8 .busy) s
    else
      let o : Lcid := BitVec.ofNat 16 f.node.1
      match s.netOf o f.node.2 with
      | none => s
      | some x => let g := { f with group := BitVec.ofNat 8 x.xfer }; tookFlit f (landIn m g (plainPlace g) s)

/-- A transfer of rows or crumbs ends when its destinations have all reported or refused. NSYNC takes the status of the crumb
vectors and parameters the core sent; a member that refuses a row counts as delivered (R105, R241, R242). -/
def settle (c : Lcid) (id : Nat) (s : State) : State :=
  let k := s.core c
  let gone (x : NetXfer) : Bool := decide (x.id = id) && decide (6 ≤ x.kind.toNat)
    && (List.range x.dests.length).all fun d => x.reported.contains d || x.missing.contains d
  s.setCore c { k with
    outbound := k.outbound.filter fun x => !gone x
    syncStatus := (k.outbound.filter fun x => gone x && x.sent).foldl (fun st x => if x.kind = 7 then Status.first st x.status else st) k.syncStatus }

/-- A whole route message lands: a row and its record, a LAST record, or a return row (R104-R106). -/
def rowLands (m : Lcid) (ret : Bool) (l : List NetFlit) (s : State) : State :=
  let bytes := l.flatMap fun f => f.payload
  let rec_ : BitVec 128 := BitVec.ofNat 128 (field bytes 0 16)
  let bad := l.any fun f => f.poison
  let k := s.core m
  if ret then s.setCore m { k with returns := k.returns ++ [(recKey rec_, bytes.drop 16, bad)] }
  else if rec_.getLsbD 4 then s.setCore m { k with lasts := k.lasts ++ [rec_] }
  else s.setCore m { k with rows := k.rows ++ [(recSlot rec_, rec_, bytes.drop 16, bad)] }

/-- FLIT_ROUTE: a flit of a row message arrives; with its last the message lands (R104-R106). -/
def execFlitRoute (f : NetFlit) (bad : List Nat) (s : State) : Out :=
  arrive 6 f bad s <| deliver f fun m s =>
    let o : Lcid := BitVec.ofNat 16 f.node.1
    let k := s.core m
    let mine (h : NetFlit) : Bool := h.node == f.node && h.kind == 6
    let t :=
      if f.last then
        let l := k.part.filter mine ++ [f]
        rowLands m (match s.netOf o f.node.2 with | some x => x.xfer == 1 | none => false) l
          (s.setCore m { k with part := k.part.filter fun h => !mine h })
      else s.setCore m { k with part := k.part ++ [f] }
    tookFlit f t

/-- FLIT_CRUMB: a crumb vector, parameter or return flit arrives at its slice or core (R150, R151, R159). -/
def execFlitCrumb (f : NetFlit) (bad : List Nat) (s : State) : Out :=
  arrive 7 f bad s fun s =>
    let c : Lcid := BitVec.ofNat 16 f.node.1
    match s.netOf c f.node.2 with
    | none => s
    | some x =>
      let at_ := x.xfer / 4 + f.offset.toNat
      let bytes := f.payload.map fun b => (b, f.poison)
      if x.xfer % 4 = 2 then
        (if s.siteDown f then absorb f s
         else
           let k := s.core c
           let k := if f.poison then k.crumbSt .poison else k
           tookFlit f (s.setCore c (k.put (runOf at_ f.payload f.poison))))
      else if s.noSlice f then absorb f s
      else if x.xfer % 4 = 0 then
        tookFlit f (putVec (256 * f.stack + f.dest.toNat) (maskBanks (BitVec.ofNat 48 x.group)) at_ bytes s)
      else tookFlit f s

/-! ## Control flits (R230, R241, R242, R248, R249) -/

/-- A refusal reaches its sender: a crumb transfer takes UNAVAIL (R167); the node that sent the result of a fold goes on (R248). -/
def nackArrives (f : NetFlit) (s : State) : State :=
  if f.ofFold then s
  else
    let c : Lcid := BitVec.ofNat 16 f.node.1
    let t := refused f s
    let t := match t.netOf c f.node.2 with
      | some x => if x.kind = 7 then t.setCore c ((t.core c).crumbSt .unavail) else t
      | none => t
    settle c f.node.2 t

/-- FLIT_NACK: a refusal returns to the sender, which resends or records the member as missing (R242, R248). -/
def execFlitNack (f : NetFlit) (bad : List Nat) (s : State) : Out := arrive 8 f bad s (orLeave f (nackArrives f))

/-- FLIT_COMPLETE: a destination's report reaches the sender (R241). -/
def execFlitComplete (f : NetFlit) (bad : List Nat) (s : State) : Out :=
  arrive 9 f bad s (orLeave f fun s => settle (BitVec.ofNat 16 f.node.1) f.node.2 (reportDone f s))

/-- An abandoned window: its missing lines are zero and poisoned, and it completes with LIMIT (R242). -/
def abandonWin (m : Lcid) (x : Nat) (s : State) : State :=
  let k := s.core m
  match k.win x with
  | none => s
  | some w =>
    if w.complete then s
    else s.setCore m ((fillMissing k w).modWin x fun w => { w with complete := true, status := .limit })

/-- FLIT_CTRL: a stop flushes the stack's routers; an abandon notice ends a member's window (R242, R249). -/
def execFlitCtrl (f : NetFlit) (bad : List Nat) (s : State) : Out :=
  arrive 0xB f bad s fun s =>
    if f.sys then flushStack f.stack s
    else orLeave f (fun s => match s.memberAt f with | some m => abandonWin m f.group.toNat s | none => s) s

/-! ## Frames of the die edges (R257, R258, R262, R263, R270) -/

/-- The flits a DATA frame's flit becomes on the far die: one to the core it is bound for, one to each member there of a
multicast, or one to the slice of a global access (R242, R262, R263). -/
def farFlits (s : State) (f : NetFrame) : List NetFlit :=
  let g := f.flit
  let c : Lcid := BitVec.ofNat 16 g.node.1
  let base : NetFlit := { g with stack := f.dst, vc := if g.kind = 0xB then 0 else 2 }
  if g.kind = 1 then [{ base with dest := BitVec.ofNat 8 (s.siteOf c) }]
  else if g.kind = 0 ∨ g.kind = 2 then
    match s.xferOf c g.node.2 with
    | some x => [{ base with dest := BitVec.ofNat 8 (s.sliceAt c x.addr.toNat g.offset.toNat).1 }]
    | none => []
  else
    let to_ := if g.core ≠ 0xFFFF then [g.core] else
      match s.netOf c g.node.2 with
      | some x => x.dests.filter fun m => lcStack m == f.dst
      | none => []
    to_.map fun m => { base with dest := BitVec.ofNat 8 (s.siteOf m) }

/-- A frame to a stack that is gone is absorbed and answered with UNAVAIL (R270). -/
def frameRefused (f : NetFrame) (s : State) : State :=
  let c : Lcid := BitVec.ofNat 16 f.flit.node.1
  match s.netOf c f.flit.node.2 with
  | some x => (List.range x.dests.length).foldl
      (fun t d => if lcStack (x.dests.getD d 0) = f.dst then leaveDest c x.id d .unavail t else t) s |> settle c x.id
  | none => modXfer c f.flit.node.2 (fun x => { x with away := 0 }) s

/-- FRAME_DESCRIPTOR: an inbound transfer begins; a read request goes on to its slice (R257, R263). -/
def execFrameDescriptor (f : NetFrame) (bad : Nat) (s : State) : Out :=
  arriveFrame 0 f bad s fun s =>
    if s.refusing f.dst then frameRefused f s
    else if f.flit.kind = 0 then { s with flits := s.flits ++ farFlits s f }
    else s

/-- FRAME_DATA: its flit is injected towards its destination, and a credit returns (R257, R262). -/
def execFrameData (f : NetFrame) (bad : Nat) (s : State) : Out :=
  arriveFrame 1 f bad s fun s =>
    let t := answerFrame f 3 { f.flit with payload := [] } s
    if s.refusing f.dst then frameRefused f t else { t with flits := t.flits ++ farFlits t f }

/-- FRAME_COMPLETE: a report or refusal returns to the sender's stack and completes its transfer (R242, R262). -/
def execFrameComplete (f : NetFrame) (bad : Nat) (s : State) : Out :=
  arriveFrame 2 f bad s fun s =>
    if f.flit.kind = 8 then nackArrives f.flit s
    else settle (BitVec.ofNat 16 f.flit.node.1) f.flit.node.2 (reportDone f.flit s)

/-- FRAME_CREDIT: a DATA frame of the other direction is credited (R257). -/
def execFrameCredit (f : NetFrame) (bad : Nat) (s : State) : Out :=
  arriveFrame 3 f bad s fun s =>
    let key := edgeKey f.dst (wayBack (frameWay f) f.src)
    { s with edgeCredits := Tab.set s.edgeCredits key (Tab.getD s.edgeCredits key 0 - 1) }

/-- FRAME_REPLAY_REQ: the frame that failed and those after it are sent again (R257). -/
def execFrameReplayReq (f : NetFrame) (bad : Nat) (s : State) : Out :=
  arriveFrame 4 f bad s fun s =>
    { s with frames := s.frames.map fun g =>
        if g.src = f.dst ∧ g.dst = f.src ∧ g.engine = f.peer then { g with held := false } else g }

/-- FRAME_IDLE: an IDLE frame of a bundle: it feeds the missing-edge detector and changes nothing; one that fails its CRC is
counted as replayed, and one that fails it twice is a fault in the tick of the I/O die's end (R257, R258). -/
def execFrameIdle (f : NetFrame) (bad : Nat) (s : State) : Out :=
  unit (validStack f.src) <|
    if f.kind = 5 ∧ 0 < bad then
      let t := devInc (.frameReplay f.src) 1 s
      .next (if bad = 1 then t else reportFault ⟨f.src, 0x07, .ioDie, 0, 6⟩ (devInc (.frameFail f.src) 1 t))
    else skip s

/-! ## Completion (R239, R241, R242, R248, R251) -/

/-- Flits of a fold contribution still on their way to their node. -/
def foldFlying (s : State) (c : Lcid) (x : NetXfer) : Bool :=
  match groupOf s c x.group with
  | none => false
  | some g =>
    let p := foldUp g.members.length 16 0 (g.members.findIdx fun m => m == c)
    s.flits.any fun f => f.kind == 5 && f.stack == lcStack c && f.node == (256 * (s.core c).slot + p.1, p.2) && f.group.toNat == x.group

/-- Every flit of a transfer has landed or been refused (R241). -/
def netReady (s : State) (c : Lcid) (x : NetXfer) : Bool :=
  x.unsent.isEmpty &&
  if x.kind = 5 then !foldFlying s c x
  else (List.range x.dests.length).all fun d => x.reported.contains d || x.missing.contains d

/-- The missing-member bitmap of a multicast goes to MISS_ADDR (R242). -/
def missBitmap (s : State) (c : Lcid) (x : NetXfer) (k : CoreCtx) : CoreCtx :=
  match groupOf s c x.group with
  | some g => if x.kind = 4 ∧ g.miss ≠ 0 ∧ x.missing ≠ [] then k.put (runOf g.miss (bitmap32 x.missing) false) else k
  | none => k

/-- A transfer completes: its status is folded into what NSYNC returns (R241, R250). -/
def completeNet (c : Lcid) (x : NetXfer) (s : State) : State :=
  let k := missBitmap s c x (s.core c)
  s.setCore c { k with
    syncStatus := Status.first k.syncStatus x.status
    outbound := k.outbound.map fun y => if y.id = x.id then { y with done := true } else y }

/-- NETWORK_TRANSFER_DONE: transfer `n` of a core completes (R241). -/
def execNetworkTransferDone (c : Lcid) (n : Nat) (s : State) : Out :=
  unit (validLcid c) <|
    match s.netOf c n with
    | none => skip s
    | some x => when (decide (x.kind.toNat ≤ 5) && !x.done && netReady s c x) s (completeNet c x s)

/-- Notifies the members of a multicast that lack flits: each leaves the transfer with LIMIT (R242). -/
def notifyLacking (c : Lcid) (n : Nat) (x : NetXfer) (lacking : List Nat) (s : State) : State :=
  lacking.foldl
    (fun t d =>
      let m := x.dests.getD d 0
      let way := if lcStack m = lcStack c then none else t.wayOf c x
      let f : NetFlit := { flitFrom t c n 0xB 0 with
        group := BitVec.ofNat 8 x.xfer, last := true, core := m, far := way
        dest := BitVec.ofNat 8 (match way with | none => t.siteOf m | some w => t.portSite (lcStack c) w.out) }
      leaveDest c n d .limit (sendCtl f t)) s

/-- MCAST_ABANDON: 2 µs after a multicast issued, its ROOT stops resending; the members that lack flits are notified, and a
completion with LIMIT is a fault in the tick (R242). -/
def execMcastAbandon (c : Lcid) (n : Nat) (s : State) : Out :=
  unit (validLcid c) <|
    match s.netOf c n with
    | none => skip s
    | some x =>
      let lacking := (List.range x.dests.length).filter fun d => !x.reported.contains d && !x.missing.contains d
      if x.kind ≠ 4 ∨ x.done ∨ lacking.isEmpty then skip s
      else
        let t := notifyLacking c n x lacking s
        match t.netOf c n with
        | none => .next t
        | some y =>
          let u := completeNet c y t
          .next (if y.status = .limit then failAttempt (devInc (.mcastLimit (lcStack c)) 1 u) else u)

/-- Sources of a window that cannot be reached (R248). -/
def lostSources (s : State) (w : WinState) : List Nat :=
  (List.range w.srcs.length).filter fun i => s.srcGone (w.srcs.getD i 0)

/-- Completes a window whose lines have all landed. -/
def winLanded (w : WinState) : WinState :=
  { w with complete := true, status := if w.landed.any fun l => l.2.2.2.2 then .poison else .ok }

/-- Completes a window with sources that cannot be reached: missing lines are zero and poisoned, all lines of a fold result
are poisoned, and the bitmap is written (R248). -/
def winLost (c : Lcid) (w : WinState) (lost : List Nat) (s : State) : State :=
  let k := fillMissing (s.core c) w
  let k := if w.fold then
      w.ranges.foldl (fun k r =>
        let done := w.landed.length = w.lines
        k.put (runOf r.1 (if done then Mem.read k.bench r.1 r.2 else List.replicate r.2 0) true)) k
    else k
  let k := if w.miss = 0 then k else k.put (runOf w.miss (bitmap32 lost) false)
  let k := k.modWin w.xfer fun w => { w with complete := true, status := .unavail, missing := lost }
  let t := s.setCore c { k with netCounts := Tab.set k.netCounts 5 (Tab.getD k.netCounts 5 0 + 1) }
  if w.fold then inc (.foldMissing (lcStack c)) 1 t else t

/-- WINDOW_COMPLETE: a window completes when all its lines have landed, or when a source cannot be reached (R239, R248). -/
def execWindowComplete (c : Lcid) (xfer : Nat) (s : State) : Out :=
  unit (validLcid c) <|
    match (s.core c).win xfer with
    | none => skip s
    | some w =>
      if w.complete then skip s
      else
        let lost := lostSources s w
        if w.landed.length = w.lines ∧ (lost = [] ∨ w.fold = false) then .next (s.setCore c ((s.core c).modWin xfer winLanded))
        else when (decide (lost ≠ [])) s (winLost c w lost s)

/-- NWAIT: waits for a window, returns its status and retires it (R239, R251, R252). -/
def bodyNwait (o : Op) (k : CoreCtx) : Tr CoreCtx := do
    match k.win o.imm.toNat with
    | none => .error (.trap 0x12)
    | some w =>
      need (!w.retired) 0x12
      await w.complete
      need (!w.conflict) 0x13
      let bad := w.landed.any fun l => l.2.2.2.2
      let st := Status.first w.status (if bad then .poison else .ok)
      let v := st.code + (if w.missing.isEmpty then 0 else 256) + 65536 * w.missing.length
      return ((k.modWin w.xfer fun w => { w with retired := true }).orFlags w.flags).sset o.dst (BitVec.ofNat 64 v) false

/-- NWAIT. -/
def execNwait (c : Lcid) (o : Op) (s : State) : Out :=
  issueK c 0xA3 ⟨.s, .no, .no, 0, 0x3F, false⟩ o s (bodyNwait o)

/-- NSYNC: waits for the core's transfers since the last NSYNC; sd = their first status (R250, R252). -/
def bodyNsync (o : Op) (k : CoreCtx) : Tr CoreCtx := do
    need (!k.netFault) 0x12
    await k.netOut.isEmpty
    let k' := { k with syncStatus := .ok, outbound := k.outbound.filter fun x => !x.done }
    return k'.sset o.dst (BitVec.ofNat 64 k.syncStatus.code) false

/-- NSYNC. -/
def execNsync (c : Lcid) (o : Op) (s : State) : Out :=
  issueK c 0xA4 ⟨.s, .no, .no, 0, 0, false⟩ o s (bodyNsync o)

/-- NSTAT: sd = a count of the tick; 6 and 7 are reserved (R250). -/
def bodyNstat (o : Op) (k : CoreCtx) : Tr CoreCtx := do
    need (decide (o.imm.toNat ≤ 5)) 2
    return k.sset o.dst (BitVec.ofNat 64 (Tab.getD k.netCounts o.imm.toNat 0)) false

/-- NSTAT. -/
def execNstat (c : Lcid) (o : Op) (s : State) : Out :=
  issueK c 0xA6 ⟨.s, .no, .no, 0, 7, false⟩ o s (bodyNstat o)

end Sys2Proof.Machine
end

