-- ==== Sys2Proof/Machine/Charges.lean ====
section
/-! DEFINITION. What plans charge on the links, branch tables and fold units of the mesh under the floor plan and the ports in
force, and the slots of the optical ports (R52, R229, R234, R242, R244, R245, R259, R261, R263). -/

namespace Sys2Proof.Machine

open Sys2Proof

/-! ## Directed links (R228, R229, R234) -/

/-- The key of a directed link of a stack. -/
def linkKey (stack a b : Nat) : Nat := 65536 * stack + 256 * a + b

/-- The directed links between routers in sequence. -/
def linksAlong (stack : Nat) : List Nat → List Nat
  | a :: b :: l => linkKey stack a b :: linksAlong stack (b :: l)
  | _ => []

/-- The directed links of a path. -/
def pathLinks (stack a b : Nat) : List Nat := linksAlong stack (xyPath a b)

/-- The directed links of a tree: each once. -/
def treeLinks (stack a : Nat) (ends : List Nat) : List Nat := (ends.flatMap fun b => pathLinks stack a b).eraseDups

/-- The physical site an end of a logical route lies at; none for a core that the floor plan marks absent. -/
def State.endSite (s : State) : MeshEnd → Option Nat
  | .core c => s.serving c
  | .slice n => some n
  | .edge k => some (256 * k + 0x07)
  | .group _ => none

/-- The engine of a stack that a plan's engine of another stack is paired with; GE's pair is GE (R260, R263). -/
def Plan.peerEngine (p : Plan) (stack e : Nat) : Nat := if e = 8 then 8 else ((p.farEnd stack e).map Prod.snd).getD e

/-- The links of a route between two sites: to another stack, on both dies, by the ports its engines are attached at (R234). -/
def State.routeLinks (s : State) (p : Plan) (e a b : Nat) : List Nat :=
  if a / 256 = b / 256 then pathLinks (a / 256) (a % 256) (b % 256)
  else pathLinks (a / 256) (a % 256) (s.portSite (a / 256) e)
    ++ pathLinks (b / 256) (s.portSite (b / 256) (p.peerEngine (a / 256) e)) (b % 256)

/-- A multicast group's tree: on the root's die to the members there and to the port of DEFAULT_STREAM, on another from its port to
the members there (R242). -/
def State.groupLinks (s : State) (p : Plan) (g : GroupEnt) : List Nat :=
  let home := lcStack g.root
  let stream := (p.nets.find? fun x => x.lcid == g.root).elim 255 NetSec.stream
  let near := (g.members.filter fun m => lcStack m == home).map s.siteOf
  let others := ((g.members.map lcStack).filter fun k => k != home).eraseDups
  treeLinks home (s.siteOf g.root) (near ++ if others.isEmpty then [] else [s.portSite home stream])
    ++ others.flatMap fun k =>
      treeLinks k (s.portSite k (p.peerEngine home stream)) ((g.members.filter fun m => lcStack m == k).map s.siteOf)

/-! ## Folds (R234, R244, R245) -/

/-- The nodes of the tree of a fold of `n` members: level and number. -/
def foldNodes (n : Nat) : List (Nat × Nat) :=
  (List.range 8).flatMap fun l => (List.range (foldLive n l / 2)).map fun j => (l, j)

/-- The links each flit of a fold uses: from the sender of each operand to its node, and from the last node to the root. -/
def State.foldLinks (s : State) (g : GroupEnt) : List Nat :=
  let stack := lcStack g.root
  let n := g.members.length
  -- the flit of contribution i of level l leaves the member, or the node that made it
  let from_ (l i : Nat) : Nat := if l = 0 then s.siteOf (g.members.getD i g.root) else foldSite s g (l - 1) (2 * i)
  let hop (l i : Nat) : List Nat := let q := foldUp n 16 l i; pathLinks stack (from_ l i) (foldSite s g q.1 q.2)
  ((List.range n).flatMap fun i => hop 0 i) ++ (foldNodes n).flatMap fun x => hop (x.1 + 1) x.2

/-- A fold's members and root are served in both halves while the halves run at different clocks: a flit takes two slots (R234). -/
def State.foldSpans (s : State) (g : GroupEnt) : Bool :=
  let t := s.stackAt (lcStack g.root)
  let cols := (g.root :: g.members).map fun m => s.siteOf m % 16
  decide (t.westSlow ≠ t.eastSlow) && cols.any (fun x => decide (x < 8)) && cols.any fun x => decide (8 ≤ x)

/-- Slots a fold takes on each of its links in a tick: every member contributes once (R234, R245). -/
def State.foldCharge (s : State) (g : GroupEnt) : Nat := g.len / 64 * if s.foldSpans g then 2 else 1

/-! ## A plan's charges -/

/-- A plan's slots on each link, by logical route, and those of its folds (R234). -/
def State.meshCharges (s : State) (p : Plan) : List (Nat × Nat) :=
  (p.routes.flatMap fun r =>
    match r.dst with
    | .group n => (match p.groups.find? fun g => g.multicast && g.group == n with
        | some g => (s.groupLinks p g).map fun k => (k, r.flits)
        | none => [])
    | _ => match s.endSite r.src, s.endSite r.dst with
      | some a, some b => (s.routeLinks p r.engine a b).map fun k => (k, r.flits)
      | _, _ => [])
  ++ (p.groups.filter fun g => !g.multicast).flatMap fun g => (s.foldLinks g).map fun k => (k, s.foldCharge g)

/-- Logical cores that a plan names in what it charges to the mesh: its network sections with their sources, its groups with their
members, and the ends of its routes (R16, R461). -/
def Plan.meshCores (p : Plan) : List Lcid :=
  (p.nets.flatMap fun x => x.lcid :: x.windows.flatMap fun w => w.srcs) ++ (p.groups.flatMap fun g => g.root :: g.members)
    ++ (p.rings.map fun r => r.lcid)
    ++ p.routes.flatMap fun r => [r.src, r.dst].filterMap fun e => match e with | .core c => some c | _ => none

/-- The groups whose trees a router holds, and the fold nodes placed in it: keys of routers, one a use (R242, R245). -/
def State.branchUses (s : State) (p : Plan) : List Nat :=
  (p.groups.filter fun g => g.multicast).flatMap fun g =>
    ((s.groupLinks p g).flatMap fun k => [k / 65536 * 256 + k / 256 % 256, k / 65536 * 256 + k % 256]).eraseDups

/-- The routers that hold the nodes of a plan's folds. -/
def State.nodeUses (s : State) (p : Plan) : List Nat :=
  (p.groups.filter fun g => !g.multicast).flatMap fun g =>
    (foldNodes g.members.length).map fun x => 256 * lcStack g.root + foldSite s g x.1 (2 * x.2)

/-- No number stands in a list more often than a bound. -/
def atMost (n : Nat) (l : List Nat) : Bool := l.eraseDups.all fun k => decide ((l.filter fun x => x == k).length ≤ n)

/-! ## The slots of optical ports (R259, R261, R263) -/

/-- Worst-case global frames of some plans at a stack: outgoing and incoming. -/
def globalFrames (l : List Plan) (n : Nat) : Nat × Nat :=
  (l.flatMap fun p => p.globals).foldl
    (fun t u => (t.1 + (if u.src = n then u.out else 0) + (if u.dst = n then u.back else 0),
                 t.2 + (if u.src = n then u.back else 0) + (if u.dst = n then u.out else 0))) (0, 0)

/-- Gives an engine of a port the lowest free logical wavelengths. -/
def takeSlots (s : State) (stack engine n : Nat) (l : List SlotRun) : List SlotRun :=
  let port := s.enginePort stack engine
  let used := (l.filter fun r => r.stack == stack && r.port == port).flatMap fun r => r.waves
  l ++ [{ stack := stack, port := port, engine := engine,
          waves := ((List.range (s.portWidth stack port)).filter fun i => !used.contains i).take n }]

/-- The slots of every port as an admission, or a change of a port's width or of GLOBAL_WAVES, leaves them: GE first, then the streams
of the admitted plans in order of plan slot and section (R259). -/
def assignSlots (s : State) : State :=
  let ge := (List.range 20).foldl (fun l n => takeSlots s n 8 s.cfg.globalWaves l) []
  let order := (List.range 128).filterMap fun i => (s.admitted.find? fun e => e.1 == i).map Prod.snd
  let give (l : List SlotRun) (x : StreamSec) : List SlotRun :=
    takeSlots s x.farStack x.farEngine x.waves (takeSlots s x.nearStack x.nearEngine x.waves l)
  { s with slots := (order.flatMap fun p => p.streams).foldl give ge }

/-- The logical wavelength a frame travels by: those of its sender in turn, in FSEQ order (R257). -/
def State.waveOf (s : State) (f : NetFrame) : Option Nat :=
  (s.slots.find? fun r => r.stack == f.src && r.engine == f.engine.toNat).bind fun r => r.waves[f.fseq.toNat % r.waves.length]?

end Sys2Proof.Machine
end

