-- ==== Sys2Proof/Machine/Heat.lean ====
section
/-! DEFINITION. Heat at a boundary and a commit: throttle fractions, caps, forecasts, cooling degraded, cold hold and
telemetry (R320-R332, R342). -/

namespace Sys2Proof.Machine

open Sys2Proof

/-! ## Readings (R317-R321, R328) -/

/-- A reading as a signed number, in 1/16 °C. -/
def deg (r : BitVec 16) : Int := r.toInt

/-- The readings of a quadrant's working logic sensors. -/
def Therm.logic (t : Therm) : List Int := (if t.aFailed then [] else [deg t.a]) ++ (if t.bFailed then [] else [deg t.b])

/-- Those of every working sensor of a quadrant. -/
def Therm.working (t : Therm) : List Int := t.logic ++ if t.cFailed then [] else [deg t.c]

/-- The lowest of some readings, `d` where there is none. -/
def lowest (l : List Int) (d : Int) : Int := match l with | [] => d | a :: r => r.foldl min a

/-- The highest of some readings, `d` where there is none. -/
def highest (l : List Int) (d : Int) : Int := match l with | [] => d | a :: r => r.foldl max a

/-- Clamps to 0…n. -/
def clampTo (n : Nat) (x : Int) : Nat := (max 0 (min (n : Int) x)).toNat

/-- The throttle fraction of readings L and C, in 1/896 (R321). -/
def fraction (l c : Int) : Nat := max (clampTo 896 (7 * (l - 1600))) (clampTo 896 (8 * (c - 1440)))

/-- The throttle cap of a fraction: 600 W × k rounded down to a multiple of 30 W (R322). -/
def capOf (f : Nat) : Nat := 30 * (20 * (8960 - 7 * f) / 8960)

/-- Both sensors of the logic pair have failed. -/
def Therm.bothFailed (t : Therm) : Bool := t.aFailed && t.bFailed

/-! ## Which quadrants take part (R321) -/

/-- Sites that a quadrant takes part for: serving sites of cores, slices of crumb sections, and the pools and serving cores
of open sequences of admitted plans. -/
def State.partSites (s : State) : List Nat :=
  s.admitted.flatMap fun e =>
    (e.2.cores.filterMap fun x => s.serving x.lcid) ++ (e.2.crumbs.map fun x => lcSite x.lcid)
      ++ ((s.seqs.filter fun q => q.2.isOpen && q.2.plan == e.1).flatMap fun q =>
        q.2.groups.flatMap fun g =>
          lcSite g.lcid :: ((s.pages g).filterMap fun p =>
            if p.2.valid then (Tab.get s.descs p.2.pfn).map fun d => lcSite d.lcid else none))

/-- Quadrants that take part. -/
def State.partQuads (s : State) : List Nat := ((s.partSites.map siteQuad).eraseDups)

/-! ## Caps (R322, R331) -/

/-- The inlet the forecasts take: 45 °C while reports are lost (R329). -/
def State.inletNow (s : State) : Int := if s.power.reportLost then 720 else deg s.power.inlet

/-- The flow the degraded rule compares: FLOW_MIN while reports are lost (R329). -/
def State.flowNow (s : State) : BitVec 16 := if s.power.reportLost then s.power.flowMin else s.power.flow

/-- A calibration value: 0 R_L, 1 tau_L, 2 R_C, 3 tau_C, 4 STANDING_W. -/
def State.calibOf (s : State) (i : Nat) : Nat := s.power.calib.getD i 0

/-- Energy charges of plans for a quadrant, in nJ per tick (R331). -/
def quadCharge (l : List Plan) (q : Nat) : Nat :=
  l.foldl (fun n p => (p.costs.filter fun c => c.resource == 8 && c.key == q).foldl (fun n c => n + c.charge) n) 0

/-- 1/16 °C in the units of the forecasts. -/
def tempUnit : Int := 2 ^ 16

/-- 1 − exp(−t / τ) in fixed point, of a time in ns and a time constant in µs (R330). -/
def settleFrac (tau t : Nat) : Nat :=
  if tau = 0 then 2 ^ fixBits else 2 ^ fixBits - expNeg (clampFix (-((t * 2 ^ fixBits / (1000 * tau) : Nat) : Int)))

/-- Where a reading settles: the inlet plus R × P, with R in 1/64 °C/W times a fit in 1/1000, and P in 1/64 W (R330). -/
def settlesAt (inlet : Int) (r fit p : Nat) : Int := inlet * tempUnit + (r * fit * p * 256 / 1000 : Nat)

/-- A forecast goes the fraction `a` of the way from `x` to where it settles; how its last place is rounded is free (R330, R331; log
12). -/
def forecast (x settles : Int) (a : Nat) : Int :=
  x + (settles - x) * a / 2 ^ fixBits + max (-1) (min 1 (Config.forecastRound x settles a))

/-- The look-ahead forecast of a quadrant under the admitted worst case of some plans: L and C at the horizon (R331). -/
def lookAhead (s : State) (l : List Plan) (q : Nat) : Int × Int :=
  let t := s.thermAt q
  let p := 64 * quadCharge l q / s.seqr.period + s.calibOf 4
  let h := max s.seqr.period 10000000
  let go (obs : Int) (r fit tau : Nat) : Int :=
    forecast (obs * tempUnit) (settlesAt s.inletNow (s.calibOf r) fit p) (settleFrac (s.calibOf tau) h) / tempUnit
  (go t.l 0 t.fitL 1, go t.cp 2 t.fitC 3)

/-- The throttle cap over some quadrants, with the fraction of each (R322). -/
def capOver (l : List Nat) (f : Nat → Nat) : Nat := if l.isEmpty then 600 else capOf (l.foldl (fun m q => max m (f q)) 0)

/-- The fraction of a quadrant from its present readings (R321). -/
def State.fracNow (s : State) (q : Nat) : Nat :=
  let t := s.thermAt q
  if t.bothFailed then 896 else fraction t.l t.cp

/-- The forecast cap with some plans admitted (R331). -/
def State.forecastCap (s : State) (l : List Plan) (quads : List Nat) : Nat :=
  capOver quads fun q =>
    if (s.thermAt q).bothFailed then 896 else (let r := lookAhead s l q; fraction r.1 r.2)

/-- A cap newly computed: a lower one applies now, a higher one only waits (R322). -/
def CapIn.next (c : CapIn) (v time : Nat) : CapIn :=
  if v ≤ c.force then ⟨v, none⟩
  else ⟨c.force, some (match c.since with | none => (time, v) | some p => (p.1, min p.2 v))⟩

/-- The admitted power cap of the three caps in force. -/
def Power.cap (p : Power) : Nat := max 180 (min p.thr.force (min p.degradedCapW p.fc.force))

/-- Sets the admitted cap from the caps in force; a change is a capacity change and posts EV_THROTTLE (R322). -/
def setCap (s : State) : State :=
  let v := s.power.cap
  if v = s.power.capW then s
  else post (event .throttle none [])
    { s with power := { s.power with capW := v } }

/-! ## Cooling degraded (R332, R334) -/

/-- Enters cooling degraded: the cap in force less 60 W, one step, admission held. -/
def enterDegraded (s : State) : State :=
  if s.power.degraded then s
  else devInc .degraded 1 (post (event .coolingDegraded none [])
    { s with power := { s.power with degraded := true, dsteps := 1, degradedCapW := max 180 (s.power.capW - 60) } })

/-- A further 500 ms of a trigger: another 60 W and another step, down to the floor. -/
def stepDegraded (s : State) : State :=
  if s.power.degraded ∧ 180 < s.power.degradedCapW then
    { s with power := { s.power with dsteps := s.power.dsteps + 1, degradedCapW := max 180 (s.power.degradedCapW - 60) } }
  else s

/-- The condition has cleared. -/
def restoreCooling (s : State) : State :=
  if s.power.degraded then
    post (event .coolingRestored none []) { s with power := { s.power with degraded := false, dsteps := 0, degradedCapW := 600 } }
  else s

/-- The changes of cooling degraded decided since the last commit. -/
def applyCooling (s : State) : State :=
  s.power.coolPend.foldl
    (fun t n => if n = 0 then enterDegraded t else if n = 1 then stepDegraded t else restoreCooling t)
    { s with power := { s.power with coolPend := [] } }

/-! ## The commit (R321, R322, R324, R328, R331) -/

/-- The refresh band of a crust reading (Table: Refresh bands). -/
def bandOf (c : Int) : Nat := if 1520 < c then 2 else if 1360 < c then 1 else 0

/-- Bands that the look-ahead forecast raises ahead of the crossing (R331). -/
def raiseBands (s : State) : State :=
  let l := s.admitted.map Prod.snd
  (List.range 80).foldl
    (fun t q =>
      let h := t.thermAt q
      let c := (lookAhead s l q).2
      let b := max h.band (bandOf c)
      if b = h.band then t else t.setTherm q { h with band := b }) s


/-- What every commit computes of heat: fractions, caps, bands raised ahead and the end of cold hold. -/
def commitHeat (s : State) : State :=
  let quads := s.partQuads
  let t := (List.range 80).foldl
    (fun t q => t.setTherm q { t.thermAt q with f := s.fracNow q, takesPart := quads.contains q, govern := 1000 }) s
  let thr := capOver quads s.fracNow
  let fc := s.forecastCap (s.admitted.map Prod.snd) quads
  let t : State := { t with power := { t.power with
    throttleCapW := thr, forecastCapW := fc, thr := t.power.thr.next thr s.seqr.time, fc := t.power.fc.next fc s.seqr.time } }
  let t := setCap (raiseBands t)
  let warm := (List.range 80).all fun q => (s.thermAt q).working.all fun r => decide (240 ≤ r)
  if t.power.coldHold && warm then
    post (event .warmupDone none []) { t with power := { t.power with coldHold := false, warmup := false } }
  else t

/-- Counts a tick committed with the cap below 600 W (R346). -/
def countThrottle (s : State) : State := if s.power.capW < 600 then devInc .throttleTicks 1 s else s

/-! ## The boundary (R330, R342) -/

/-- The tracking forecast of one quadrant over the period just ended, with its measured energy in µJ, and the fractions that it goes of
the way (R330). -/
def track (s : State) (aL aC q energy period : Nat) : Therm :=
  let t := s.thermAt q
  let p := if period = 0 then 0 else 64000 * energy / period
  let x := forecast t.x (settlesAt s.inletNow (s.calibOf 0) t.fitL p) aL
  let y := forecast t.y (settlesAt s.inletNow (s.calibOf 2) t.fitC p) aC
  let el := if t.logic.isEmpty then none else some (highest t.logic 0 * tempUnit - x)
  let ec := if t.cFailed then none else some (deg t.c * tempUnit - y)
  let e := match el, ec with
    | some a, some b => max a b
    | some a, none => a
    | none, some b => b
    | none, none => 0
  { t with x := x, y := y, e := e }

/-- Background sensor calibration: it fits R_L and R_C of each quadrant to a value within ±10 % of those commissioned, which is free, and
pauses while any excess exceeds 2 °C (R330; log 12). -/
def fitSensors (s : State) : State :=
  if (List.range 80).any fun q => decide (32 * tempUnit < (s.thermAt q).e) then s
  else
    let (k, s) := draw s
    let fit (i : Nat) : Nat := 900 + (Config.freeByte k i).toNat * 200 / 255
    (List.range 80).foldl (fun t q => t.setTherm q { t.thermAt q with fitL := fit (2 * q), fitC := fit (2 * q + 1) }) s

/-- The tracking forecast of every quadrant. -/
def trackAll (e : BoundaryEnv) (period : Nat) (s : State) : State :=
  let aL := settleFrac (s.calibOf 1) period
  let aC := settleFrac (s.calibOf 3) period
  fitSensors ((List.range 80).foldl
    (fun t q => t.setTherm q (track s aL aC q (e.quadEnergy.getD q 0 + e.crumbEnergy.getD q 0) period)) s)

/-- The energy counters of the quadrant, crumb and transit domains after a period. -/
def addEnergies (l : List Nat) (e : BoundaryEnv) : List Nat :=
  (List.range 120).map fun d => l.getD d 0 +
    (if d < 80 then e.quadEnergy.getD d 0
     else if d < 100 then (List.range 4).foldl (fun m q => m + e.crumbEnergy.getD (4 * (d - 80) + q) 0) 0
     else e.transitEnergy.getD (d - 100) 0)

/-- min k of a stack's quadrants, in 1/8960 (R342). -/
def State.kMin (s : State) (n : Nat) : Nat := (List.range 4).foldl (fun m q => min m (8960 - 7 * (s.thermAt (4 * n + q)).f)) 8960

/-- Bits of a test over a stack's quadrants. -/
def quadBits (f : Nat → Bool) : Nat := (List.range 4).foldl (fun n q => n + if f q then 2 ^ q else 0) 0

/-- A stack's telemetry record (R342); `budget` is its effective crumb budget. -/
def teleRecord (s : State) (e : BoundaryEnv) (n budget : Nat) : StackTele :=
  let t (q : Nat) := s.thermAt (4 * n + q)
  { tick := s.seqr.count
    logic := (List.range 4).map fun q => BitVec.ofInt 16 (t q).l
    crust := (List.range 4).map fun q => BitVec.ofInt 16 (t q).cp
    energy := (List.range 4).map fun q => e.quadEnergy.getD (4 * n + q) 0
    crumbEnergy := (List.range 4).foldl (fun m q => m + e.crumbEnergy.getD (4 * n + q) 0) 0
    transitEnergy := e.transitEnergy.getD n 0
    sensor := BitVec.ofNat 16 (quadBits (fun q => (t q).split) + 16 * quadBits (fun q => (t q).aFailed != (t q).bFailed)
      + 256 * quadBits (fun q => (t q).bothFailed) + 4096 * quadBits (fun q => (t q).cFailed))
    bands := BitVec.ofNat 8 ((List.range 4).foldl (fun m q => m + (t q).band * 4 ^ q) 0)
    budget := budget
    kMin := 100 * s.kMin n / 8960
    flags := BitVec.ofNat 8 ((if (List.range 4).any (fun q => (t q).governed) then 1 else 0)
      + (if s.power.coolantStop then 2 else 0) + (if s.power.state = .rack then 4 else 0)) }

/-- The codes of the power states (R346). -/
def Pwr.code : Pwr → Nat
  | .active => 0 | .trim => 1 | .rest => 2 | .dormant => 3 | .rack => 4

/-- Energy of the device over the period, in µJ. -/
def totalEnergy (e : BoundaryEnv) : Nat :=
  e.quadEnergy.foldl (· + ·) 0 + e.crumbEnergy.foldl (· + ·) 0 + e.transitEnergy.foldl (· + ·) 0 + e.ioEnergy

/-- The device telemetry record (R342). -/
def devRecord (s : State) (e : BoundaryEnv) : DevTele :=
  { tick := s.seqr.count, time := s.seqr.time, inlet := s.power.inlet, flow := s.power.flow
    caps := [s.power.capW, s.power.throttleCapW, s.power.degradedCapW, s.power.forecastCapW]
    eMax := highest ((List.range 80).map fun q => (s.thermAt q).e / tempUnit) 0
    state := s.power.state.code
    flags := BitVec.ofNat 8 ((if s.power.degraded then 1 else 0) + (if s.power.coolantStop then 2 else 0)
      + (if s.power.coldHold then 4 else 0) + (if s.power.warmup then 8 else 0) + (if s.power.reportLost then 16 else 0))
    deviceEnergy := (totalEnergy e), ioEnergy := e.ioEnergy }

/-- Appends to a ring of 1,048,576 records, which overwrites its oldest. -/
def ringAdd {α : Type} (l : List α) (x : α) : List α := (l ++ [x]).drop (l.length + 1 - 1048576)

/-- The telemetry records of a boundary, and the device's energy counter. -/
def writeTelemetry (e : BoundaryEnv) (budget : Nat → Nat) (s : State) : State :=
  let t := (List.range 20).foldl
    (fun (t : State) n =>
      if (s.stackAt n).status = 2 then t
      else { t with teleStack := Tab.set t.teleStack n (ringAdd (Tab.getD t.teleStack n []) (teleRecord s e n (budget n))) }) s
  let t := (List.range 80).foldl (fun t q => t.setTherm q { t.thermAt q with governed := decide ((t.thermAt q).govern < 1000) }) t
  devIncP .energy (totalEnergy e) { t with teleDev := ringAdd t.teleDev (devRecord s e), power := { t.power with energies := addEnergies t.power.energies e } }

end Sys2Proof.Machine
end

