-- ==== Sys2Proof/Machine/KvCommit.lean ====
section
/-! DEFINITION. What a commit publishes of the KV cache: appends, edits, reference counts, free lists, generations and moves
(R176, R182-R189, R199, R205). -/

namespace Sys2Proof.Machine

open Sys2Proof

/-! ## References and frames -/

/-- Writes a descriptor. -/
def State.setDesc (s : State) (pfn : Nat) (d : Desc) : State := { s with descs := Tab.set s.descs pfn d }

/-- Adds a reference; the count sticks at 0xFFFF (R6, R175). -/
def addRef (pfn : Nat) (s : State) : State :=
  let d := s.descOf pfn
  if d.refs = 0xFFFF then s else s.setDesc pfn { d with refs := d.refs + 1 }

/-- Takes a reference away; a count pinned at 0xFFFF stays (R185). -/
def dropRef (pfn : Nat) (s : State) : State :=
  let d := s.descOf pfn
  if d.refs = 0xFFFF ∨ d.refs = 0 then s else s.setDesc pfn { d with refs := d.refs - 1 }

/-- The pool of a frame. -/
def poolKey (d : Desc) : Nat := 16 * lcOrd d.lcid + d.pool

/-- A frame of a pool is allocated (R175). -/
def allocFrame (pfn : Nat) (s : State) : State :=
  let d := s.descOf pfn
  let key := poolKey d
  let t := s.setDesc pfn { d with st := .allocated, refs := 0 }
  match Tab.get t.pools key with
  | none => t
  | some p => { t with pools := Tab.set t.pools key { p with free := p.free.filter (fun f => f != pfn), count := p.count - 1 } }

/-- A frame returns to the head of its pool's free list (R185). -/
def freeOne (pfn : Nat) (s : State) : State :=
  let d := s.descOf pfn
  let key := poolKey d
  let t := s.setDesc pfn { d with st := .free, refs := 0 }
  match Tab.get t.pools key with
  | none => t
  | some p => { t with pools := Tab.set t.pools key { p with free := pfn :: p.free, count := p.count + 1 } }

/-- Frames that a commit leaves without a reference return to their pools, pushed in decreasing PFN order (R176, R185). -/
def freeUnreferenced (s : State) : State :=
  let l := (s.descs.filter fun e => decide (e.2.st = .allocated) && decide (e.2.refs = 0)).map Prod.fst
  (l.reverse).foldl (fun t f => freeOne f t) s

/-! ## Page tables -/

/-- Writes one page entry: the old page loses a reference and the new one takes one. The change is not made where the store has no
table for the copies (R186). -/
def setEntry (slot g page : Nat) (e : Option Pte) (s : State) : State :=
  match s.groupAt slot g, editLeaf slot g (page / 64) s with
  | some x, some t =>
    let t := match s.entry x page with | some o => if o.valid then dropRef o.pfn t else t | none => t
    let t := match e with | some n => if n.valid then addRef n.pfn t else t | none => t
    putEntry slot g page (match e with | some n => n.word | none => 0) t
  | _, _ => s

/-- An edit that leaves a SHARED page as the last page of a group, ending beyond its LENGTH, sets COW in the entry (R183). -/
def coverLast (slot : Nat) (s : State) : State :=
  (List.range (s.groupsOf slot).length).foldl
    (fun t i =>
      match t.groupAt slot i with
      | none => t
      | some g =>
        let n := (g.len - 1) / 2 ^ g.pageLog2
        match t.entry g n with
        | some e =>
          if e.valid && e.shared && !e.cow && decide (0 < g.len) && decide (g.len % 2 ^ g.pageLog2 ≠ 0) then
            putEntry slot i n ({ e with cow := true } : Pte).word t
          else t
        | none => t) s

/-- Clears every entry of a group from logical page `lo` on. -/
def releaseFrom (slot g lo : Nat) (s : State) : State :=
  match s.groupAt slot g with
  | none => s
  | some x => ((s.pages x).filter fun e => decide (lo ≤ e.1)).foldl (fun t e => setEntry slot g e.1 none t) s

/-- A group leaves all its tables and pages: each page loses a reference (R185). -/
def leaveTables (slot g : Nat) (s : State) : State :=
  match s.groupAt slot g with
  | none => s
  | some x =>
    let t := (s.pages x).foldl (fun t e => if e.2.valid then dropRef e.2.pfn t else t) s
    modGroup slot g (fun y => { y with dir := none, gaps := [] })
      { t with shadows := t.shadows.filter fun h => !(h.slot == slot && h.group == g) }

/-- Counts a publication of each sequence once (R186). -/
def bumpGens (slots : List Nat) (s : State) : State :=
  slots.eraseDups.foldl (fun t i => match Tab.get t.seqs i with | some r => t.setSeq i { r with gen := r.gen + 1 } | none => t) s

/-! ## Appends (R182, R184, R199) -/

/-- Publishes the page a tick's append took, split or cleared (R182, R184). A page that was RETIRED stays so: what its positions hold is
never scored (R179, log 107). -/
def publishPage (p : NewPage) (s : State) : State :=
  match s.groupAt p.seq p.group with
  | none => s
  | some g =>
    let old := s.entry g p.page
    if p.inPlace then
      (match old with | some e => putEntry p.seq p.group p.page ({ e with cow := false } : Pte).word s | none => s)
    else
      let keep := match old with | some e => e.retired | none => false
      setEntry p.seq p.group p.page (some { Pte.own p.pfn with retired := keep && p.split.isNone }) (allocFrame p.pfn s)

/-- Tokens each head of a group appended in the tick, in head order. -/
def headCounts (s : State) (slot g : Nat) : List Nat :=
  match s.groupAt slot g with
  | none => []
  | some x =>
    match Tab.get s.layouts x.layout with
    | none => []
    | some l => (List.range l.heads).map fun h => s.appended slot g h

/-- A group's LENGTH advances by the smallest count of its heads (R199). -/
def advance (p : Nat × Nat) (s : State) : State :=
  let l := headCounts s p.1 p.2
  match l with
  | [] => s
  | a :: rest =>
    let n := rest.foldl min a
    let t := modGroup p.1 p.2 (fun g => { g with len := g.len + n }) s
    if rest.all fun x => x == a then t
    else devInc .appendMismatch 1 (post (event .kvAppendMismatch (objWord 2 p.1) []) t)

/-- The tick's appends: its copies opened, pages published, lengths advanced (R186, R189). -/
def commitAppends (s : State) : State :=
  let groups := (s.work.appends.map fun a => (a.seq, a.group)).eraseDups
  let t := s.work.newPages.foldl (fun t p => publishPage p t) (openShadows s)
  groups.foldl (fun t p => advance p t) t

/-! ## Edits (R183, R185, R207) -/

/-- Gaps of a group that lie below a position. -/
def gapsBelow (l : List (Nat × Nat)) (len : Nat) : List (Nat × Nat) :=
  (l.filter fun x => decide (x.1 < len)).map fun x => (x.1, min x.2 (len - x.1))

/-- KV_FORK at its commit (R183, R189). -/
def applyFork (src dst len : Nat) (s : State) : State :=
  let gs := s.groupsOf src
  let t := (List.range gs.length).foldl
    (fun t i =>
      let g := gs.getD i Group.init
      let t := releaseFrom dst i 0 t
      let pages := (s.pages g).filter fun e => decide (e.1 * 2 ^ g.pageLog2 < len)
      let t := pages.foldl
        (fun t e =>
          if e.2.valid then
            putEntry src i e.1 ({ e.2 with shared := true } : Pte).word
              (setEntry dst i e.1 (some { e.2 with shared := true, cow := false }) t)
          else setEntry dst i e.1 (some e.2) t) t
      modGroup dst i (fun y => { y with len := len, gaps := gapsBelow g.gaps len }) t) s
  coverLast src (coverLast dst t)

/-- KV_TRUNCATE at its commit (R185, R207). -/
def applyTruncate (slot len : Nat) (s : State) : State :=
  let gs := s.groupsOf slot
  coverLast slot ((List.range gs.length).foldl
    (fun t i =>
      let g := gs.getD i Group.init
      if g.len ≤ len then t
      else modGroup slot i (fun y => { y with len := len, gaps := gapsBelow y.gaps len }) (releaseFrom slot i (ceilDiv len (2 ^ g.pageLog2)) t)) s)

/-- KV_RETIRE_PAGES at its commit: the pages take RETIRED with PFN and VALID clear (R185). -/
def applyRetire (slot g lo n : Nat) (s : State) : State :=
  (List.range n).foldl (fun t i => setEntry slot g (lo + i) (some Pte.gone) t) s

/-- What an edit by a command makes of the tables at its commit. -/
def applyEdit (c : Change) (s : State) : State :=
  match c with
  | .fork src dst len => applyFork src dst len s
  | .truncate slot len => applyTruncate slot len s
  | .retirePages slot g lo n => applyRetire slot g lo n s
  | .kvMap slot g page e => setEntry slot g page (some e) s
  | .kvUnmap slot g page => setEntry slot g page none s
  | _ => s

/-- The state whose tables are the shadows of the present tick as they stand: its appends, then its edits in acceptance order (R186,
R189). -/
def State.shadowView (s : State) : State := s.changes.foldl (fun t c => applyEdit c t) (commitAppends s)

/-- Page sizes other than 256 tokens, or a move in progress, give RECOVERY (R205). -/
def needsRecovery (r : SeqRec) : Bool := r.groups.any fun g => decide (g.pageLog2 ≠ 8) || g.move.isSome

/-- Sets or clears RECOVERY of a sequence (R205). -/
def SeqRec.recovery (r : SeqRec) : SeqRec :=
  { r with hold := if needsRecovery r then r.hold ||| 8 else r.hold &&& 7 }

/-- KV_RETIRE_FRAME after the write-back of its commit: the spare frame takes the contents, with the lines that the tick appended, the two
descriptors exchange OFFSET, and the one naming the bad location is retired; a free frame is itself retired (R189, log 76). -/
def applyRetireFrame (pfn : Nat) (spare : Option Nat) (s : State) : State :=
  let d := s.descOf pfn
  let key := poolKey d
  let take (f : Nat) (t : State) : State :=
    match Tab.get t.pools key with
    | some p => { t with pools := Tab.set t.pools key { p with free := p.free.filter (fun x => x != f), count := p.count - 1 } }
    | none => t
  match spare, Tab.get s.layouts d.layout with
  | some f, some l =>
    let e := s.descOf f
    take f (((copyPage l d.pageLog2 pfn f (2 ^ d.pageLog2) s).setDesc pfn { d with off := e.off }).setDesc f { e with off := d.off, st := .retired })
  | _, _ => take pfn (s.setDesc pfn { d with st := .retired })

/-! ## Pools (R173, R174, R176) -/

/-- Frames a pool's page size takes, in bytes, rounded up to granules (R173). -/
def frameStride (l : Layout) (pageLog2 : Nat) : Nat := roundUp (pageBytes l pageLog2) 2048

/-- Descriptors of a stack (R174). -/
def descCount (stack : Nat) : Nat := if stack < 16 then 838861 else 838860

/-- The runs of descriptor indices the pools of a stack use: first and end. -/
def State.descRuns (s : State) (stack : Nat) : List (Nat × Nat) :=
  (s.pools.filter fun e => lcStack e.2.lcid == stack).map fun e => (e.2.firstPfn / 20, e.2.firstPfn / 20 + e.2.frames)

/-- The lowest run of `n` unused descriptor indices of a stack (R174). -/
def State.descRun (s : State) (stack n : Nat) : Option Nat :=
  let runs := s.descRuns stack
  let fits (i : Nat) : Bool :=
    decide (i + n ≤ descCount stack) && runs.all (fun r => decide (i + n ≤ r.1) || decide (r.2 ≤ i))
  ((0 :: runs.map Prod.snd).filter fits).foldl (fun m i => match m with | none => some i | some j => some (min i j)) none

/-- KV_POOL_CREATE at its commit: every frame free, the list from frame 0 upwards (R173, R174, R176). -/
def applyPoolCreate (key : Nat) (p : Pool) (s : State) : State :=
  let stack := lcStack p.lcid
  match s.descRun stack p.frames, Tab.get s.layouts p.layout with
  | some i, some l =>
    let pfns := (List.range p.frames).map fun j => 20 * (i + j) + stack
    let t := (List.range p.frames).foldl
      (fun t j => t.setDesc (20 * (i + j) + stack)
        { lcid := p.lcid, st := .free, pageLog2 := p.pageLog2, off := p.base + j * frameStride l p.pageLog2, refs := 0,
          layout := p.layout, pool := key % 16 }) s
    let q : Pool := { p with firstPfn := 20 * i + stack, free := pfns, count := p.frames, low := decide (p.frames < s.cfg.poolLowWater.toNat) }
    { t with pools := Tab.set t.pools key q }
  | _, _ => s

/-- KV_POOL_DESTROY at its commit: the pool and its descriptors are unused. -/
def applyPoolDestroy (key : Nat) (s : State) : State :=
  match Tab.get s.pools key with
  | none => s
  | some p =>
    { s with
      pools := Tab.del s.pools key
      descs := s.descs.filter fun e => !(decide (p.firstPfn ≤ e.1) && decide (e.1 < p.firstPfn + 20 * p.frames)
        && e.1 % 20 == p.firstPfn % 20) }

/-! ## Moves (R205) -/

/-- The frames a moved group takes in the slice of its serving core, if there are enough. -/
def State.framesFor (s : State) (c : Lcid) (layout pageLog2 n : Nat) : Option (List Nat) :=
  let l := (List.range 16).flatMap fun j =>
    match Tab.get s.pools (16 * lcOrd c + j) with
    | none => []
    | some p => if p.layout = layout ∧ p.pageLog2 = pageLog2 then p.free.filter fun f => !s.frameTaken f else []
  if n ≤ l.length then some (l.take n) else none

/-- Writes the rows of one committed position into a page, head by head: bytes with their poison, in the order a digest takes them (R206).
A line that is written in part keeps its own poison. -/
def putPosition (l : Layout) (pfn k t : Nat) (bytes : Nat → Byte × Bool) (s : State) : State :=
  let d := s.descOf pfn
  let site := lcSite d.lcid
  let places := (List.range l.heads).flatMap fun h => (l.rows (2 ^ k) h (t % 2 ^ k)).flatMap fun r => (List.range r.2).map fun b => d.off + r.1 + b
  (List.range places.length).foldl
    (fun u i =>
      let loc := privLoc s.cfg.globalSteps (places.getD i 0)
      let line := u.bytesAt site (loc / 64 * 64) 64
      u.putLine site loc (line.set (loc % 64) (bytes i).1) ((bytes i).2 || u.linePoison site loc)) s

/-- The rows of one committed position, as `putPosition` takes them. -/
def State.position (s : State) (l : Layout) (pfn k t i : Nat) : Byte × Bool :=
  let d := s.descOf pfn
  let site := lcSite d.lcid
  let places := (List.range l.heads).flatMap fun h => (l.rows (2 ^ k) h (t % 2 ^ k)).flatMap fun r => (List.range r.2).map fun b => d.off + r.1 + b
  let loc := privLoc s.cfg.globalSteps (places.getD i 0)
  (s.byteAt site loc, s.linePoison site loc)

/-- Tables that `n` logical pages take: their leaves and a directory. -/
def tablesFor (n : Nat) : Nat := if n = 0 then 0 else 1 + ceilDiv n 64

/-- Ends a KV_REPAGE or KV_REHOME of a group: new frames take the committed contents, and the old pages and tables are left. A page that
takes no kept position is RETIRED, and positions of the others that were not kept become gaps (R179, R205, log 107). It waits while frames
or tables are wanting. -/
def finishMove (slot g : Nat) (x : Group) (m : Move) (s : State) : State :=
  match Tab.get s.layouts x.layout with
  | none => s
  | some l =>
    let n := ceilDiv x.len (2 ^ m.pageLog2)
    let old (t : Nat) : Option Nat := if x.inGap t then none else s.keptAt x t
    let inPage (i : Nat) : List Nat := (List.range (min (2 ^ m.pageLog2) (x.len - i * 2 ^ m.pageLog2))).map fun o => i * 2 ^ m.pageLog2 + o
    let has (i : Nat) : Bool := (inPage i).any fun t => (old t).isSome
    match s.framesFor m.lcid x.layout m.pageLog2 n with
    | none => s
    | some fs =>
      if s.freeTables (lcStack m.lcid) < tablesFor n then s
      else
        let s1 := (List.range n).foldl (fun t i => if has i then allocFrame (fs.getD i 0) t else t) s
        let s2 := (List.range x.len).foldl
          (fun t p =>
            match old p with
            | some pfn => putPosition l (fs.getD (p / 2 ^ m.pageLog2) 0) m.pageLog2 p (s.position l pfn x.pageLog2 p) t
            | none => t) s1
        let gaps := ((List.range n).filter has).flatMap fun i => ((inPage i).filter fun t => (old t).isNone).map fun t => (t, 1)
        let s3 := modGroup slot g (fun y => { y with lcid := m.lcid, pageLog2 := m.pageLog2, gaps := gaps, move := none }) (leaveTables slot g s2)
        (List.range n).foldl (fun t i => setEntry slot g i (some (if has i then Pte.own (fs.getD i 0) else Pte.gone)) t) s3

/-- One position of a KV_RESTORE: a frame for its page if it has none, its rows, and LENGTH; none where a frame or a table is wanting. -/
def restoreToken (slot gi : Nat) (l : Layout) (m : Move) (t : Nat) (s : State) : Option State :=
  match s.groupAt slot gi with
  | none => none
  | some g =>
    let put (pfn : Nat) (u : State) : State :=
      modGroup slot gi (fun y => { y with len := t + 1 })
        (putPosition l pfn g.pageLog2 t (fun i => (m.data.getD (t * l.width + i) 0, false)) u)
    match s.entry g (t / 2 ^ g.pageLog2) with
    | some e => some (put e.pfn s)
    | none =>
      match s.framesFor g.lcid g.layout g.pageLog2 1 with
      | some (f :: _) =>
        (editLeaf slot gi (t / 2 ^ g.pageLog2 / 64) s).map fun u =>
          put f (setEntry slot gi (t / 2 ^ g.pageLog2) (some (Pte.own f)) (allocFrame f u))
      | _ => none

/-- One group's move advances by what the background share allows, which the spec does not give: a free number of positions (log 7). A
KV_REPAGE or KV_REHOME ends when every position is copied; a KV_RESTORE lays its positions down as it goes (R205). -/
def stepMove (slot gi : Nat) (s : State) : State :=
  match s.groupAt slot gi with
  | none => s
  | some x =>
    match x.move, Tab.get s.layouts x.layout with
    | some m, some l =>
      let (i, s) := draw s
      let n := min (m.total - m.done) (Config.freeNat i)
      if m.kind = 2 then
        let r := (List.range n).foldl
          (fun (a : State × Nat) _ =>
            if a.2 < m.done then a
            else match restoreToken slot gi l m a.2 a.1 with | some u => (u, a.2 + 1) | none => a) (s, m.done)
        modGroup slot gi (fun y => { y with move := if r.2 = m.total then none else some { m with done := r.2 } }) r.1
      else
        let t := modGroup slot gi (fun y => { y with move := some { m with done := m.done + n } }) s
        if m.done + n = m.total then finishMove slot gi x m t else t
    | _, _ => s

/-- The home of a sequence whose moves have ended: that of its groups' serving cores (R178). -/
def SeqRec.settled (r : SeqRec) : SeqRec :=
  if r.groups.all fun g => g.move.isNone then { r with home := match r.groups with | g :: _ => g.home | [] => r.home } else r

/-- Every move advances at a commit; a sequence whose groups have all moved has its new home. RECOVERY clears at the first commit at which
every group is at 256 tokens and no move is in progress (R205). -/
def stepMoves (s : State) : State :=
  s.seqs.foldl
    (fun t e =>
      let moving := e.2.isOpen && e.2.groups.any fun g => g.move.isSome
      let t := if moving then (List.range e.2.groups.length).foldl (fun t g => stepMove e.1 g t) t else t
      match Tab.get t.seqs e.1 with
      | some r =>
        let r := if moving then r.settled else r
        t.setSeq e.1 (if r.hold.getLsbD 3 then r.recovery else r)
      | none => t) s

/-- Starts a move of one group, or of every group, of a sequence (R205). -/
def applyMove (slot : Nat) (g : Option Nat) (m : Move) (s : State) : State :=
  match Tab.get s.seqs slot with
  | none => s
  | some r =>
    let r' := r.mapGroups fun i x =>
      let size := if m.kind = 1 then x.pageLog2 else m.pageLog2
      let c : Lcid := if m.kind = 1 then BitVec.ofNat 16 (256 * m.home + x.lcid.toNat % 256) else x.lcid
      if g = none ∨ g = some i then { x with move := some { m with pageLog2 := size, lcid := c, total := x.len } } else x
    s.setSeq slot { r' with hold := r.hold ||| 8 }

/-- KV_RESTORE at its commit: RECOVERY is set and HOLD bit STACK clears (R205, R271); each group leaves its contents, and takes those of the
structure, LENGTH of its record first, position by position (log 34, DESIGN CHOICE). -/
def applyRestore (slot : Nat) (data : List Byte) (s : State) : State :=
  let n := (s.groupsOf slot).length
  let r := (List.range n).foldl
    (fun (a : State × Nat) i =>
      match a.1.groupAt slot i with
      | none => a
      | some g =>
        let len := field data (0x44 + 16 * i) 4
        let size := field data (0x43 + 16 * i) 1
        let bytes := len * match Tab.get s.layouts g.layout with | some l => l.width | none => 0
        let mv : Move := { kind := 2, pageLog2 := size, home := g.home, lcid := g.lcid, done := 0, total := len, data := slice data a.2 bytes }
        (modGroup slot i (fun y => { y with pageLog2 := size, len := 0, move := some mv }) (leaveTables slot i a.1), a.2 + bytes)) (s, 512)
  match Tab.get r.1.seqs slot with
  | some q => r.1.setSeq slot { q with hold := (q.hold ||| 8) &&& 11 }
  | none => r.1

/-- Ends a publication of tables: copies are committed, and GENERATION of every sequence that was opened or closed, or whose tables or
lengths changed since `pre`, is one more, as is that of each that a write through BAR2 changed (R178, R186, R188). -/
def publishTables (pre : State) (written : List Nat) (s : State) : State :=
  let mark (r : SeqRec) : Bool × List (Nat × Option Nat) := (r.isOpen, r.groups.map fun g => (g.len, g.dir))
  let t := closeShadows s
  let moved := (t.seqs.filter fun e => match Tab.get pre.seqs e.1 with
    | some r => decide (mark r ≠ mark e.2)
    | none => true).map Prod.fst
  bumpGens (moved ++ (s.shadows.map fun h => h.slot) ++ written) t

/-! ## Water marks (R208) -/

/-- EV_KV_STORE_LOW and EV_KV_POOL_LOW, once per crossing, and STORE_FREE_MIN (R208). -/
def waterMarks (s : State) : State :=
  let free := (List.range 20).map fun n => s.freeTables n
  let low := (List.range 20).filter fun n => decide (free.getD n 0 < s.cfg.storeLowWater.toNat)
  let t := (low.filter fun n => !s.cfg.storeLow.contains n).foldl (fun t n => post (event .kvStoreLow (objWord 3 n) []) t) s
  let t : State := { t with cfg := { t.cfg with storeLow := low, storeFreeMin := free.foldl min 2813952 } }
  t.pools.foldl
    (fun u e =>
      let now := decide (e.2.count < s.cfg.poolLowWater.toNat)
      let u := if now && !e.2.low then post (event .kvPoolLow (objWord 7 e.1) []) u else u
      { u with pools := Tab.set u.pools e.1 { e.2 with low := now } }) t

end Sys2Proof.Machine
end

