-- ==== Sys2Proof/Machine/Admit.lean ====
section
/-! DEFINITION. Admission: capacities and charges, the order of refusals, and the suspension of plans (R52-R55, R169, R224,
R261, R460, R461). -/

namespace Sys2Proof.Machine

open Sys2Proof

/-! ## Capacities (R52) -/

/-- The execution window *W* of a period, in ns (R35). -/
def window (period : Nat) : Nat := period - 3000

/-- Slice time taken by refresh in a band, in thousandths (R125). -/
def refreshShare (band : Nat) : Nat := match band with | 0 => 35 | 1 => 70 | _ => 140

/-- Slice time of a slice in thousandths of a ns: *W* × (1 − refresh share − 0.04). -/
def State.sliceTime (s : State) (period site : Nat) : Nat :=
  window period * (1000 - refreshShare (s.thermAt (siteQuad site)).band - 40)

/-- The half of a serving column runs at 470 MHz. -/
def State.halfSlow (s : State) (site : Nat) : Bool :=
  if site % 16 < 8 then (s.stackAt (site / 256)).westSlow else (s.stackAt (site / 256)).eastSlow

/-- Distinct keys of a list of charges. -/
def keysOf (l : List CostEntry) : List Nat := (l.map fun c => c.key).eraseDups

/-- The sum charged on a key. -/
def chargeOn (l : List CostEntry) (k : Nat) : Nat := (l.filter fun c => c.key == k).foldl (fun n c => n + c.charge) 0

/-- The charges of some plans on one resource of R52. -/
def chargesOf (l : List Plan) (r : Nat) : List CostEntry := l.flatMap fun p => p.costs.filter fun c => c.resource == r

/-- Core time: every core section's CYCLE_BUDGET within *W* at its half's clock; a core that the floor plan marks absent has
none (R16, R52, R68, R461). -/
def fitsCores (s : State) (period : Nat) (l : List Plan) : Bool :=
  l.all fun p => p.cores.all fun c =>
    match s.serving c.lcid with
    | none => false
    | some site => decide (c.budget * 100 ≤ window period * (if s.halfSlow site then 47 else 94))

/-- A regulator bucket's size: rate × period / 64 (R131). -/
def bucket (rate period : Nat) : Nat := rate * period / 64

/-- Slice traffic of each quadrant within its bucket. -/
def fitsTraffic (s : State) (period : Nat) (l : List Plan) : Bool :=
  let cs := chargesOf l 2
  (keysOf cs).all fun q => decide (chargeOn cs q ≤ bucket (s.quadAt q).sliceRate period)

/-- Slice time of each slice, in ns. -/
def fitsSliceTime (s : State) (period : Nat) (l : List Plan) : Bool :=
  let cs := chargesOf l 3
  (keysOf cs).all fun n => decide (chargeOn cs n * 1000 ≤ s.sliceTime period n)

/-- Frames one slot carries in one direction in a tick (R261). -/
def framesPerSlot (period : Nat) : Nat := 98 * window period * 97222222 / 100000000000

/-- Slots the streams of some plans hold at a port, GLOBAL_WAVES included on GE's (R261). -/
def wavesAt (s : State) (l : List Plan) (stack port : Nat) : Nat :=
  (l.foldl (fun n p => p.streams.foldl
    (fun n x => n + (if x.nearStack = stack ∧ s.enginePort stack x.nearEngine = port then x.waves else 0)
      + (if x.farStack = stack ∧ s.enginePort stack x.farEngine = port then x.waves else 0)) n) 0)
    + (if s.enginePort stack 8 = port then s.cfg.globalWaves else 0)

/-- Stream slots, in the three parts of R261, and the global frames of R263; an engine that has failed gives none (R297). -/
def fitsStreams (s : State) (period : Nat) (l : List Plan) : Bool :=
  let cs := chargesOf l 4
  let ss := l.flatMap fun p => p.streams
  (keysOf cs).all (fun q => decide (chargeOn cs q ≤ bucket (s.quadAt q).streamRate period))
    && (ss.flatMap fun x => [(x.nearStack, s.enginePort x.nearStack x.nearEngine), (x.farStack, s.enginePort x.farStack x.farEngine)]).all
        (fun p => decide (wavesAt s l p.1 p.2 ≤ s.portWidth p.1 p.2))
    && (List.range 20).all (fun n => let g := globalFrames l n
        decide (g.1 ≤ s.cfg.globalWaves * framesPerSlot period) && decide (g.2 ≤ s.cfg.globalWaves * framesPerSlot period))
    && ss.all (fun x => decide (x.framesOut ≤ x.waves * framesPerSlot period) && decide (x.framesIn ≤ x.waves * framesPerSlot period)
        && !(s.stackAt x.nearStack).failedEngines.contains x.nearEngine && !(s.stackAt x.farStack).failedEngines.contains x.farEngine)

/-- Mesh: each directed link within 0.98 × *W* × its flit rate, no router with more than 64 branch entries or 8 fold instances, and
no absent core among those charged (R16, R234, R242, R245). -/
def fitsMesh (s : State) (period : Nat) (l : List Plan) : Bool :=
  let cs := (l.flatMap s.meshCharges).map fun e => (⟨5, e.1, e.2⟩ : CostEntry)
  (l.all fun p => p.meshCores.all fun c => (s.serving c).isSome)
    && (keysOf cs).all (fun k =>
      decide (chargeOn cs k * 10000 ≤ 98 * window period * (if (s.stackAt (k / 65536)).meshSlow then 47 else 94)))
    && atMost 64 (l.flatMap s.branchUses) && atMost 8 (l.flatMap s.nodeUses)

/-- The effective crumb budget of a stack, 0 while its crumb domain is gated (R157, R324). -/
def State.crumbBudget (s : State) (n : Nat) : Nat :=
  if s.power.off.contains (80 + n) then 0
  else
    let k := (List.range 4).foldl (fun m q => if (s.thermAt (4 * n + q)).takesPart then min m (8960 - 7 * (s.thermAt (4 * n + q)).f) else m)
      8960
    max 1 (max 1 (s.cfg.budget * k / 8960) - s.power.dsteps)

/-- Crumb activity of each slice, and what R169 and R297 name with it. -/
def fitsCrumbs (s : State) (period : Nat) (l : List Plan) : Bool :=
  let cs := l.flatMap fun p => p.crumbs
  let globals := globalBanks s.cfg.globalSteps
  cs.all fun c =>
    let n := lcSite c.lcid
    let here := cs.filter fun x => decide (x.lcid = c.lcid)
    let time := s.sliceTime period n
    (s.serving c.lcid).isSome && (s.serving c.issuer).isSome && !s.power.off.contains (80 + n / 256)
      && (List.range 48).all (fun b => !c.mask.getLsbD b || (!globals.contains b && !s.faultMap.crumbs.contains (n, b)))
      && decide (here.foldl (fun m x => m + x.cycles) 0 * 100000 ≤ s.crumbBudget (n / 256) * time * 47)
      && decide (here.foldl (fun m x => m + x.layerCycles) 0 * 100000 ≤ time * 47)

/-- Commit write-back of each bank: 11,280 bytes, charged in whole lines (R128). -/
def fitsBanks (l : List Plan) : Bool :=
  let cs := (chargesOf l 7).map fun c => { c with charge := roundUp c.charge 64 }
  (keysOf cs).all fun b => decide (chargeOn cs b ≤ 11280)

/-- Energy, in nJ: the admitted power cap × *T*. -/
def fitsEnergy (cap period : Nat) (l : List Plan) : Bool :=
  decide ((chargesOf l 8).foldl (fun n c => n + c.charge) 0 ≤ cap * period)

/-- The first resource of Table: Admission resources that does not hold a set of plans. -/
def firstFail (s : State) (cap period : Nat) (l : List Plan) : Option Nat :=
  if !fitsCores s period l then some 1
  else if !fitsTraffic s period l then some 2
  else if !fitsSliceTime s period l then some 3
  else if !fitsStreams s period l then some 4
  else if !fitsMesh s period l then some 5
  else if !fitsCrumbs s period l then some 6
  else if !fitsBanks l then some 7
  else if !fitsEnergy cap period l then some 8
  else none

/-! ## Evidence areas (R224) -/

/-- Bytes of a stack's attribution area. -/
def evdAreaSize : Nat := 603979776

/-- Free bytes of the attribution area of a stack: CS7 and CS12 hold the links and seals too. -/
def State.evdFree (s : State) (n : Nat) : Nat :=
  evdAreaSize - (192 * (Tab.getD s.records n []).length
    + (if n = 7 ∨ n = 12 then 128 * s.links.length + 10048 * s.seals.length else 0))

/-- Most links of one tick: its own, a marker of each mailbox's command, and one of the debug level (R217). -/
def mostLinks : Nat := 258

/-- Worst case of one tick of writes of some plans into the area of a stack. -/
def evdWorst (l : List Plan) (n : Nat) : Nat :=
  (l.foldl (fun m p => p.evds.foldl (fun m e => if lcStack e.lcid = n then m + 192 * e.maxReq else m) m) 0)
    + (if n = 7 ∨ n = 12 then 128 * mostLinks + 10048 else 0)

/-- A plan writes evidence to the area of a stack; every plan does to those of CS7 and CS12. -/
def Plan.writesEvd (p : Plan) (n : Nat) : Bool := n == 7 || n == 12 || p.evds.any fun e => lcStack e.lcid == n

/-- Areas whose free space is below some number of ticks of worst case. -/
def State.evdShort (s : State) (l : List Plan) (ticks : Nat) : List Nat :=
  (List.range 20).filter fun n => decide (s.evdFree n < ticks * evdWorst l n)

/-- Bytes that the present commit is about to write into the area of a stack: the tick's records, its links and its seal. -/
def State.evdWriting (s : State) (n : Nat) : Nat :=
  let replaying := match s.replay with | some r => r.running.isSome | none => false
  let links := if replaying then 0 else 1 + s.markers.length
  let due := decide (s.sealNext ≤ s.seqr.tick) || s.sealAsked
  192 * (s.work.records.filter fun r => lcStack r.lcid == n && !s.seqr.leftOut.contains r.plan).length
    + if n = 7 ∨ n = 12 then 128 * links + (if due && decide ((s.seals.filter fun x => x.sig.isNone).length < 4) then 10048 else 0) else 0

/-! ## Admission (R461) -/

/-- Admission is held: cooling degraded, a coolant stop, or cold hold (R55). -/
def State.admitHold (s : State) : Bool := s.power.degraded || s.power.coolantStop || s.power.coldHold

/-- Two plans share a unit: a core, a slice's crumb units, or a stream engine (R51); or number a ring alike (R276). -/
def Plan.overlaps (p q : Plan) : Bool :=
  (p.cores.any fun c => q.cores.any fun d => decide (c.lcid = d.lcid))
    || (p.crumbs.any fun c => q.crumbs.any fun d => decide (c.lcid = d.lcid) && decide (c.mask &&& d.mask ≠ 0))
    || (p.streams.any fun x => q.usesEngine x.nearStack x.nearEngine || q.usesEngine x.farStack x.farEngine)
    || (p.rings.any fun x => q.rings.any fun y => x.ring == y.ring)

/-- The slots admitted after some changes, made in order. -/
def slotsAfter (l : List Nat) (cs : List Change) : List Nat :=
  cs.foldl (fun l c => match c with | .planSuspend i _ => l.filter (fun x => x != i) | .planAdmit i => i :: l.filter (fun x => x != i) | _ => l) l

/-- Plans admitted once the changes that wait for the commit are made in order (R39, R54, R461). -/
def State.willAdmit (s : State) : List (Nat × Plan) :=
  let l := slotsAfter (s.admitted.map Prod.fst) s.changes
  s.plans.filter fun e => l.contains e.1

/-- The period that the next commit applies: the last one that waits, or the one in force (R30, R459). -/
def State.nextPeriod (s : State) : Nat :=
  (s.changes ++ s.regWrites).foldl (fun p c => match c with | .period ns => ns | _ => p) s.seqr.period

/-- A set of plans with one more that the bounds of Table: Admission refusals do not hold at a period: the DETAIL (R461). -/
def admitBound (s : State) (others : List Plan) (p : Plan) (period : Nat) : Option Nat :=
  if period < p.periodMin ∨ p.periodMax < period then some 10
  else
    let l := others ++ [p]
    let cap := min s.power.capW (max 180 (s.forecastCap l ((s.partQuads ++ (p.cores.filterMap fun c => s.serving c.lcid).map siteQuad
      ++ p.crumbs.map fun c => siteQuad (lcSite c.lcid)).eraseDups)))
    let full := (s.evdShort l 1).any fun n => p.writesEvd n
    match firstFail s cap period l with
    | some r => some (if full && decide (7 < r) then 7 else r)
    | none => if full then some 7 else none

/-- The outcome of PLAN_ADMIT or PLAN_RESUME of a slot, with DETAIL (R461). The plan must fit the period in force, and one that waits
for the commit, which then suspends no plan (R30). -/
def admitOutcome (s : State) (slot : Nat) : Status × Nat :=
  match if slot ≤ 127 then s.planAt slot else none with
  | none => (.nospt, 0)
  | some p =>
    let others := s.willAdmit
    if others.any fun e => e.1 == slot then (.ok, 0)
    else
      let gone := (List.range 20).any fun n => decide ((s.stackAt n).status ≠ 0) && p.onStack n
      let others := others.map Prod.snd
      if gone then (.unavail, 0)
      else if s.admitHold ∨ s.cfg.zeroing ∨ others.any (fun q => p.overlaps q) ∨ s.power.state = .rack then (.busy, 0)
      else if 64 ≤ others.length then (.limit, 9)
      else
        match admitBound s others p s.seqr.period with
        | some d => (.limit, d)
        | none => match admitBound s others p s.nextPeriod with
          | some d => (.limit, d)
          | none => (.ok, 0)

/-! ## Suspension (R53, R460) -/

/-- Sets or clears HOLD bits of the sequences of a plan. -/
def holdPlan (slot : Nat) (on : Bool) (s : State) : State :=
  { s with seqs := s.seqs.map fun e =>
      if e.2.isOpen && e.2.plan == slot then (e.1, { e.2 with hold := if on then e.2.hold ||| 2 else e.2.hold &&& 13 }) else e }

/-- Applies the suspension of an admitted plan at a commit (R460). -/
def applySuspend (p : Nat × Nat) (s : State) : State :=
  match s.planAt p.1 with
  | none => s
  | some x =>
    if x.st = .admitted then
      post (event .planSuspended (objWord 1 p.1) [p.2]) (holdPlan p.1 true (s.setPlan p.1 { x with st := .suspended }))
    else s

/-- The plan that goes first when the set no longer fits: lowest PRIORITY, then most recently admitted (R53). -/
def firstOut (l : List (Nat × Plan)) : Option Nat :=
  (l.foldl
    (fun (m : Option (Nat × Plan)) e =>
      match m with
      | none => some e
      | some b => if e.2.priority < b.2.priority ∨ (e.2.priority = b.2.priority ∧ b.2.order < e.2.order) then some e else some b)
    none).map Prod.fst

/-- Sets the clock of one half of a stack; its mesh runs at the faster half's (R233). -/
def setHalf (half : Nat) (slow : Bool) (k : Stack) : Stack :=
  let w := if half = 0 then slow else k.westSlow
  let e := if half = 0 then k.eastSlow else slow
  { k with westSlow := w, eastSlow := e, meshSlow := w && e }

/-- Sets the clock of one half of a stack, or of every stack. -/
def clockChange (stack : Option Nat) (half : Nat) (slow : Bool) (s : State) : State :=
  (match stack with | some n => [n] | none => List.range 20).foldl (fun t n => t.setStack n (setHalf half slow (t.stackAt n))) s

/-- The state with the clocks that this commit sets after its write-back (R53, R233). -/
def State.clocked (s : State) : State :=
  s.power.actions.foldl (fun t c => match c with | .clockHalf stack half slow => clockChange stack half slow t | _ => t) s

/-- Suspends plans in order until the rest fit, at the clocks this commit sets; `n` bounds the number (R53). -/
def shrink : Nat → State → State
  | 0, s => s
  | n + 1, s =>
    match firstFail s.clocked s.power.capW s.seqr.period (s.admitted.map Prod.snd) with
    | none => s
    | some _ =>
      match firstOut s.admitted with
      | none => s
      | some i => shrink n (applySuspend (i, 1) s)

/-- The commit's check of evidence space, with what it writes itself: events once per crossing, and suspension below one tick (R224). -/
def checkEvidence (s : State) : State :=
  let l := s.admitted.map Prod.snd
  let short (ticks : Nat) : List Nat :=
    (List.range 20).filter fun n => decide (s.evdFree n < s.evdWriting n + ticks * evdWorst l n)
  let low := short 64
  let t := (low.filter fun n => !s.evdLow.contains n).foldl (fun t n => post (event .evdSpaceLow (objWord 3 n) []) t) s
  let t : State := { t with evdLow := low }
  let out := short 1
  (s.admitted.filter fun e => out.any fun n => e.2.writesEvd n).foldl (fun t e => applySuspend (e.1, 7) t) t

/-! ## Ingest backpressure (R45, R224) -/

/-- Bytes of a journal ring. -/
def ringSize : Nat := 805306368

/-- Bytes a record takes in the ring (R43). -/
def recBytes (payload : Nat) : Nat := roundUp (32 + payload) 64

/-- Free bytes of a stack's journal ring, retired granules and journal writes under way taken off. -/
def State.ringFree (s : State) (n : Nat) : Nat :=
  let used := (s.journal.filter fun r => r.home == n).foldl (fun m r => m + recBytes r.payload.length) 0
  let more := (s.jpend.filter fun r => r.record.home == n).foldl (fun m r => m + recBytes r.record.payload.length) 0
  ringSize - s.retiredBytes n 7 10 - (used + more)

/-- A plan's unconsumed records. -/
def State.backlog (s : State) (slot : Nat) (p : Plan) : List JRec :=
  let taken := (Tab.getD s.work.inputs slot []).map fun r => r.index
  s.journal.filter fun r => r.plan == slot && r.consumedBy.isNone && decide (p.consume ≤ r.index) && !taken.contains r.index

/-- The backlog age of a plan at the present boundary. -/
def State.backlogAge (s : State) (slot : Nat) (p : Plan) : Nat :=
  match s.backlog slot p with
  | [] => 0
  | r :: _ => s.seqr.count - r.arrival

/-- The ring of some stack homing the plan's sequences has less space than one tick of its inputs. -/
def State.ringShort (s : State) (slot : Nat) (p : Plan) : Bool :=
  ((s.seqs.filter fun e => e.2.isOpen && e.2.plan == slot).map fun e => e.2.home).eraseDups.any fun n =>
    decide (s.ringFree n < p.maxInputs * recBytes p.maxInputBytes)

/-- Backpressure of every plan at a boundary: begun, kept or released; each episode of a plan posts its event (R45). -/
def backpressure (s : State) : State :=
  let now (e : Nat × Plan) : Bool :=
    let age := s.backlogAge e.1 e.2
    let short := s.ringShort e.1 e.2 || s.evdLow.any fun n => decide (e.2.st = .admitted) && e.2.writesEvd n
    if e.2.backpressured then decide (2 < age) || short else decide (4 < age) || short
  let begun := s.plans.filter fun e => now e && !e.2.backpressured
  let t : State := { s with plans := s.plans.map fun e => (e.1, { e.2 with backpressured := now e }) }
  let any := t.plans.any fun e => e.2.backpressured
  let t := begun.foldl (fun t e => post (event .ingestBackpressure (objWord 1 e.1) []) t) t
  if any then devInc .backpressure 1 t else t

end Sys2Proof.Machine
end

