-- ==== Sys2Proof/Machine/Scalar.lean ====
section
/-! DEFINITION. Scalar and control instructions (R81-R83); HALT is in Halt.lean. -/

namespace Sys2Proof.Machine

open Sys2Proof

/-- Fields of the arithmetic instructions: sd, sa, and sb or IMM. -/
def arithShape : Shape := ⟨.s, .s, .s, 0, 0, true⟩

/-- sd = f(sa, sb): 64-bit two's complement, poisoned by a poisoned operand (R81, R90). -/
def arithBody (f : W64 → W64 → W64) (o : Op) (k : CoreCtx) : Tr CoreCtx :=
    let b := k.opb o
    let bad := k.sbad o.a || b.2
    return (k.sset o.dst (f (k.sreg o.a) b.1) bad).eat bad

/-- An instruction of this effect. -/
def arith (op : BitVec 8) (f : W64 → W64 → W64) (c : Lcid) (o : Op) (s : State) : Out :=
  issueK c op arithShape o s (arithBody f o)

/-- NOP (R81). -/
def bodyNop (k : CoreCtx) : Tr CoreCtx := return k

/-- NOP. -/
def execNop (c : Lcid) (o : Op) (s : State) : Out := issueK c 0x00 ⟨.no, .no, .no, 0, 0, false⟩ o s bodyNop
/-- ADD: sd = sa + sb (R81). -/
def execAdd (c : Lcid) (o : Op) (s : State) : Out := arith 0x01 (fun a b => a + b) c o s
/-- SUB: sd = sa − sb (R81). -/
def execSub (c : Lcid) (o : Op) (s : State) : Out := arith 0x02 (fun a b => a - b) c o s
/-- MUL: the low 64 bits of sa × sb (R81). -/
def execMul (c : Lcid) (o : Op) (s : State) : Out := arith 0x03 (fun a b => a * b) c o s
/-- AND (R81). -/
def execAnd (c : Lcid) (o : Op) (s : State) : Out := arith 0x04 (fun a b => a &&& b) c o s
/-- OR (R81). -/
def execOr (c : Lcid) (o : Op) (s : State) : Out := arith 0x05 (fun a b => a ||| b) c o s
/-- XOR (R81). -/
def execXor (c : Lcid) (o : Op) (s : State) : Out := arith 0x06 (fun a b => a ^^^ b) c o s
/-- SHL: the amount is bits [5:0] (R81). -/
def execShl (c : Lcid) (o : Op) (s : State) : Out := arith 0x07 (fun a b => a <<< (b.toNat % 64)) c o s
/-- SHR, logical (R81). -/
def execShr (c : Lcid) (o : Op) (s : State) : Out := arith 0x08 (fun a b => a >>> (b.toNat % 64)) c o s
/-- SRA, arithmetic (R81). -/
def execSra (c : Lcid) (o : Op) (s : State) : Out := arith 0x09 (fun a b => a.sshiftRight (b.toNat % 64)) c o s

/-- The condition of CMP by MOD[2:0]; codes 6 and 7 are reserved (R81). -/
def cmpCond (code : Nat) (a b : W64) : Option Bool :=
  match code with
  | 0 => some (a == b)
  | 1 => some (a != b)
  | 2 => some (a.slt b)
  | 3 => some (!a.slt b)
  | 4 => some (a.ult b)
  | 5 => some (!a.ult b)
  | _ => none

/-- CMP: sd = 1 if the condition holds, else 0 (R81). -/
def bodyCmp (o : Op) (k : CoreCtx) : Tr CoreCtx :=
    let b := k.opb o
    let bad := k.sbad o.a || b.2
    match cmpCond (o.mod.toNat % 8) (k.sreg o.a) b.1 with
    | none => .error (.trap 2)
    | some r => .ok ((k.sset o.dst (if r then 1 else 0) bad).eat bad)

/-- CMP. -/
def execCmp (c : Lcid) (o : Op) (s : State) : Out :=
  issueK c 0x0A ⟨.s, .s, .s, 7, 0, true⟩ o s (bodyCmp o)

/-- LI: sd = sext(IMM); with MOD[0] only the high half is written (R81). -/
def bodyLi (o : Op) (k : CoreCtx) : Tr CoreCtx :=
    if o.mod.getLsbD 0 then
      let bad := k.sbad o.dst
      return (k.sset o.dst (o.imm ++ (k.sreg o.dst).setWidth 32) bad).eat bad
    else return k.sset o.dst (simm o) false

/-- LI. -/
def execLi (c : Lcid) (o : Op) (s : State) : Out :=
  issueK c 0x0B ⟨.s, .no, .no, 1, 0xFFFFFFFF, false⟩ o s (bodyLi o)

/-- LD: 64 bits at bench sa + sext(IMM), a multiple of 8 (R81); a poisoned line poisons sd (R90). -/
def bodyLd (o : Op) (k : CoreCtx) : Tr CoreCtx := do
    let a := ((← k.addr o.a) + simm o).toNat
    need (decide (a % 8 = 0)) 5
    let l ← k.rd a 8
    let bad := k.dirty a 8
    return (k.sset o.dst (BitVec.ofNat 64 (leNat l)) bad).eat bad

/-- LD. -/
def execLd (c : Lcid) (o : Op) (s : State) : Out :=
  issueK c 0x0C ⟨.s, .s, .no, 0, 0xFFFFFFFF, false⟩ o s (bodyLd o)

/-- ST: 64 bits of sb to bench sa + sext(IMM), a multiple of 8 (R81, R65). -/
def bodySt (o : Op) (k : CoreCtx) : Tr CoreCtx := do
    let a := ((← k.addr o.a) + simm o).toNat
    need (decide (a % 8 = 0)) 5
    let bad := k.sbad o.b
    let k' ← k.wr a (leBytes 8 (k.sreg o.b).toNat) bad
    return k'.eat bad

/-- ST. -/
def execSt (c : Lcid) (o : Op) (s : State) : Out :=
  issueK c 0x0D ⟨.no, .s, .s, 0, 0xFFFFFFFF, false⟩ o s (bodySt o)

/-- Where a branch from the present instruction goes: PC + 8 × sext(IMM) (R81). -/
def CoreCtx.target (k : CoreCtx) (o : Op) : Nat := (BitVec.ofNat 64 k.pc + 8 * simm o).toNat

/-- A taken BR, a CALL or a RET inside a loop body faults with LOOP (R82). -/
def CoreCtx.jump (k : CoreCtx) (a : Nat) : Tr CoreCtx := do
  need k.loops.isEmpty 0xA
  return { k with pc := a }

/-- BR: with condition 0 SRCA is unused; a poisoned condition is poison in control (R81, R92). -/
def bodyBr (o : Op) (s : State) (k : CoreCtx) : Tr (CoreCtx × State) :=
  let always := decide (o.mod.toNat % 4 = 0)
  do
    need (decide (o.mod.toNat % 4 ≠ 3)) 2
    need (always || !k.sbad o.a) 0xC
    let zero := decide (k.sreg o.a = 0)
    let taken := always || (if o.mod.toNat % 4 = 1 then zero else !zero)
    if taken then
      let k' ← k.jump (k.target o)
      return (k', s)
    else return (k.step, s)

/-- BR. -/
def execBr (c : Lcid) (o : Op) (s : State) : Out :=
  let always := decide (o.mod.toNat % 4 = 0)
  issue c 0x10 ⟨.no, if always then .no else .s, .no, 3, 0xFFFFFFFF, false⟩ o s (bodyBr o s)

/-- CALL: s31 = PC + 8 (R81). -/
def bodyCall (o : Op) (s : State) (k : CoreCtx) : Tr (CoreCtx × State) := do
    await (!k.regPending 31)
    let k' ← (k.sset 31 (BitVec.ofNat 64 (k.pc + 8)) false).jump (k.target o)
    return (k', s)

/-- CALL. -/
def execCall (c : Lcid) (o : Op) (s : State) : Out :=
  issue c 0x11 ⟨.no, .no, .no, 0, 0xFFFFFFFF, false⟩ o s (bodyCall o s)

/-- RET: branch to s31, a multiple of 8 (R81); a poisoned s31 is poison in control (R92). -/
def bodyRet (s : State) (k : CoreCtx) : Tr (CoreCtx × State) := do
    await (!k.regPending 31)
    let a := (← k.addr 31).toNat
    need (decide (a % 8 = 0)) 5
    let k' ← k.jump a
    return (k', s)

/-- RET. -/
def execRet (c : Lcid) (o : Op) (s : State) : Out :=
  issue c 0x12 ⟨.no, .no, .no, 0, 0, false⟩ o s (bodyRet s)

/-- LOOP: the next IMM[11:0] instructions, sa times; a zero count skips the body and enters no level; four levels (R82). -/
def bodyLoop (o : Op) (s : State) (k : CoreCtx) : Tr (CoreCtx × State) := do
    let n := (← k.addr o.a).toNat
    let len := o.imm.toNat % 4096
    need (decide (len ≠ 0)) 0xA
    if n = 0 then
      let r := loopBack (k.pc + 8 * len) k.loops
      return ({ k with pc := r.1, loops := r.2 }, s)
    else
      need (decide (k.loops.length < 4)) 0xA
      return ({ k with pc := k.pc + 8, loops := ⟨k.pc + 8, k.pc + 8 * len, n - 1⟩ :: k.loops }, s)

/-- LOOP. -/
def execLoop (c : Lcid) (o : Op) (s : State) : Out :=
  issue c 0x13 ⟨.no, .s, .no, 0, 0xFFF, false⟩ o s (bodyLoop o s)

/-- TICK as a program reads it: the executing tick, or the one a replay sets (R83, R226). -/
def State.tickCsr (s : State) : Nat :=
  match s.replay with
  | some r => (match r.running with | some t => t.1 | none => s.seqr.tick)
  | none => s.seqr.tick

/-- Loads that still have to fold their status into FLAGS (R61, R85). -/
def CoreCtx.loadsOut (k : CoreCtx) : Bool :=
  k.xfers.any fun x => !(decide (x.kind = .tstore) || decide (x.kind = .append))

/-- RDCSR: LCID, TICK, PLAN_SLOT or FLAGS; any other index is ILLEGAL (R83). -/
def bodyRdcsr (c : Lcid) (o : Op) (s : State) (k : CoreCtx) : Tr CoreCtx := do
    let i := o.imm.toNat
    need (decide (i ≤ 3)) 1
    await (!(i == 3 && k.loadsOut))
    let v : W64 :=
      match i with
      | 0 => c.setWidth 64
      | 1 => BitVec.ofNat 64 s.tickCsr
      | 2 => BitVec.ofNat 64 k.slot
      | _ => k.flags
    return k.sset o.dst v false

/-- RDCSR. -/
def execRdcsr (c : Lcid) (o : Op) (s : State) : Out :=
  issueK c 0x15 ⟨.s, .no, .no, 0, 0xFFF, false⟩ o s (bodyRdcsr c o s)

/-- The bits of FLAGS a write changes: reserved bits stay zero (R4, R74). -/
def flagsMask : W64 := 0xFF0F

/-- WRCSR: FLAGS only; any other index is ILLEGAL (R83). FLAGS carries no poison: a poisoned sa is written and counts as consumed (log 83,
DESIGN CHOICE). -/
def bodyWrcsr (o : Op) (k : CoreCtx) : Tr CoreCtx := do
    need (decide (o.imm.toNat = 3)) 1
    await (!k.loadsOut)
    let bad := k.sbad o.a
    return { (k.eat bad) with flags := k.sreg o.a &&& flagsMask }

/-- WRCSR. -/
def execWrcsr (c : Lcid) (o : Op) (s : State) : Out :=
  issueK c 0x16 ⟨.no, .s, .no, 0, 0xFFF, false⟩ o s (bodyWrcsr o)

end Sys2Proof.Machine
end

