-- ==== Sys2Proof/Machine/Halt.lean ====
section
/-! DEFINITION. The end of a core's tick: HALT with its evidence capture (R82, R209-R213), the report to collection, and
what collection does (R35, R426). -/

namespace Sys2Proof.Machine

open Sys2Proof

/-! ## Evidence capture (R210-R212) -/

/-- A request line of the evidence window. -/
structure EvReq where
  slot : Nat
  position : Nat
  grp : Nat
  head : Nat
  qhead : Nat
  layer : Nat
  part : Nat
  row : Nat
  alarmId : Nat
  alarmScore : Nat
  rsv : Bool
deriving DecidableEq, Repr

/-- The request in its 64 bytes. -/
def evReq (l : List Byte) : EvReq :=
  { slot := field l 0 4 % 2 ^ 17, position := field l 4 4, grp := field l 8 1, head := field l 9 1, qhead := field l 10 1,
    layer := field l 11 1, part := field l 12 4, row := field l 16 1, alarmId := field l 20 4, alarmScore := field l 24 4,
    rsv := decide (field l 0 4 / 2 ^ 17 ≠ 0) || decide (field l 17 3 ≠ 0) || (slice l 28 36).any (fun b => decide (b ≠ 0)) }

/-- The record one request makes, or the fault it raises (R211-R213). -/
def captureOne (c : Lcid) (k : CoreCtx) (tick : Nat) (a : Nat) : Tr ARec := do
  let l ← k.rd a 64
  need (!k.dirty a 64) 0xC
  let q := evReq l
  need (!q.rsv) 0x11
  need (decide (q.part % 16 = 0)) 5
  let b ← k.rd q.part 16
  need (!k.dirty q.part 16) 0xC
  let p := partD b
  need (!p.rsv && decide (q.row < p.rows) && decide (p.cand ≠ 0)) 0x11
  let sa := p.stat + 16 * q.row
  let ca := p.cand + 128 * q.row
  let st ← k.rd sa 16
  let cs ← k.rd ca 128
  return { plan := k.slot, lcid := c, row := q.row, poison := k.dirty sa 16 || k.dirty ca 128,
           empty := decide (field st 8 4 % 2 = 1), tick := tick, seqSlot := q.slot, position := BitVec.ofNat 32 q.position,
           group := q.grp, head := q.head, qhead := q.qhead, layer := q.layer, alarmId := BitVec.ofNat 32 q.alarmId,
           alarmScore := BitVec.ofNat 32 q.alarmScore, m := BitVec.ofNat 32 (field st 0 4), l := BitVec.ofNat 32 (field st 4 4),
           mass := BitVec.ofNat 32 (field st 12 4),
           cands := (List.range 16).map fun i => (BitVec.ofNat 32 (field cs (8 * i) 4), BitVec.ofNat 32 (field cs (8 * i + 4) 4)),
           ordinal := 0 }

/-- Every request of a window in order (R211). -/
def captureAll (c : Lcid) (k : CoreCtx) (tick : Nat) (e : EvdSec) : Tr (List ARec) := do
  let h ← k.rd e.window 64
  need (!k.dirty e.window 64) 0xC
  let n := field h 0 4
  need (decide (n ≤ e.maxReq) && (slice h 4 60).all (fun b => decide (b = 0))) 0x11
  (List.range n).mapM fun i => captureOne c k tick (e.window + 64 * (1 + i))

/-- The evidence section of a core. -/
def State.evdOf (s : State) (c : Lcid) : Option EvdSec :=
  match s.planAt (s.core c).slot with
  | some p => p.evds.find? fun e => decide (e.lcid = c)
  | none => none

/-- The records of a HALT: none where the core has no evidence section, and none kept while capture is off (R215). -/
def capture (c : Lcid) (k : CoreCtx) (s : State) : Tr (List ARec) :=
  match s.evdOf c with
  | none => .ok []
  | some e =>
    match captureAll c k s.tickCsr e with
    | .error x => .error x
    | .ok l => .ok (match s.planAt k.slot with | some p => if p.capture then l else [] | none => [])

/-! ## HALT and the reports -/

/-- HALT: a flit discarded stops the core here (R252); else capture runs (R211) and the core's work for the tick is done: its
report waits for its transfers (R82). -/
def bodyHalt (c : Lcid) (s : State) (k : CoreCtx) : Tr (CoreCtx × State) := do
  need (!k.netFault) 0x12
  let l ← capture c k s
  return ({ k with run := .halting }, { s with work := { s.work with records := s.work.records ++ l } })

/-- HALT; a crumb rule broken stops the core here (R166). -/
def execHalt (c : Lcid) (o : Op) (s : State) : Out :=
  match (s.core c).crumbFault with
  | some a => unit (validLcid c) <| when (issues s c 0x14 o) s (progFault c 0xF a (s.core c).slot s)
  | none =>
    issue c 0x14 ⟨.no, .no, .no, 0, 0, false⟩ o s (bodyHalt c s)

/-- Every transfer a core issued has completed: its slice and network transfers, its crumb programs with their returns and
staged results (R82). -/
def CoreCtx.drained (k : CoreCtx) : Bool :=
  k.xfers.isEmpty && !k.crumbOut && k.outbound.all (fun x => x.done) && k.jobs.all (fun j => j.ended)

/-- CORE_COMPLETION_REPORT: a halted core reports once its transfers have completed (R82). A crumb program that broke a rule
after HALT, or a flit discarded after it, faults the core at its HALT (DEDUCED, log 28). -/
def execCoreCompletionReport (c : Lcid) (s : State) : Out :=
  unit (validLcid c) <|
    let k := s.core c
    if decide (s.seqr.phase = .executing) && decide (k.run = .halting) && k.drained then
      match k.crumbFault with
      | some a => .next (progFault c 0xF a k.slot s)
      | none =>
        if k.netFault then .next (progFault c 0x12 k.pc k.slot s)
        else .next (s.setCore c { k with run := .halted, reported := true })
    else skip s

/-- Every core of the tick on a stack has reported. -/
def State.stackDone (s : State) (n : Nat) : Bool :=
  s.cores.all fun e => decide (e.1 / 256 ≠ n) || decide (e.2.run = .idle) || e.2.reported

/-- Stacks that report to collection: those powered and online. -/
def State.toReport (s : State) : List Nat := s.online.filter fun n => !s.work.reported.contains n

/-- The shadows of the cores SHADOW_MASK names, latched at collection (R423, R426). -/
def State.shadowsNow (s : State) : Tab (Nat × CoreCtx) :=
  ((s.dbg.shadowMask.filter fun m => decide (m ≠ 0xFFFF)).map fun m => (m.toNat, (s.seqr.tick, s.core m)))

/-- The tick has completed: every stack has reported (R35). -/
def completeTick (s : State) : State :=
  { s with
    seqr := { s.seqr with phase := .completed }
    dbg := { s.dbg with fresh := s.shadowsNow } }

/-- COLLECTION_REPORT: a stack whose cores have all reported reports completion; with the last one the tick has completed
(R35); an attempt to be abandoned completes no more (R48). -/
def execCollectionReport (n : Nat) (s : State) : Out :=
  unit (validStack n) <|
    if decide (s.seqr.phase = .executing) && decide (s.seqr.boundaries < 4) && s.online.contains n && !s.work.reported.contains n
        && s.stackDone n then
      let t : State := { s with work := { s.work with reported := n :: s.work.reported } }
      .next (if t.toReport.isEmpty then completeTick t else t)
    else skip s

/-- FAULT_REPORT: a check reports a fault at a fault site (R297). -/
def execFaultReport (f : FaultSite) (s : State) : Out :=
  unit (validFault f) <| .next (reportFault f s)

end Sys2Proof.Machine
end

