-- ==== Sys2Proof/Machine/Evidence.lean ====
section
/-! DEFINITION. Evidence at a commit: the tick ledger, attribution records, digests, the hash chain and seals (R40, R213-R222,
R226). -/

namespace Sys2Proof.Machine

open Sys2Proof

/-- 32 zero bytes. -/
def zeros32 : List Byte := List.replicate 32 0

/-! ## Stored forms -/

/-- Bits of a list of flags, the first at bit 0. -/
def bitsOf (l : List Bool) : Nat := l.foldr (fun b n => 2 * n + if b then 1 else 0) 0

/-- A tick ledger record (R40). -/
def Ledger.bytes (l : Ledger) : List Byte :=
  leBytes 8 l.tick ++ leBytes 8 l.commitAt ++ leBytes 8 l.time ++ leBytes 4 l.fpGen.toNat ++ leBytes 1 l.attempt
    ++ leBytes 1 (bitsOf [l.late, l.cooling, l.fpPublished, l.suspended]) ++ leBytes 2 l.plans.length
    ++ l.plans.flatMap fun p => leBytes 2 p.slot ++ [0, 0] ++ leBytes 4 p.count ++ leBytes 8 p.first

/-- An attribution record (R213). -/
def ARec.bytes (r : ARec) : List Byte :=
  leBytes 2 1 ++ leBytes 2 r.plan ++ leBytes 2 r.lcid.toNat ++ leBytes 1 r.row ++ leBytes 1 (bitsOf [r.poison, r.empty])
    ++ leBytes 8 r.tick ++ leBytes 4 r.seqSlot ++ leBytes 4 r.position.toNat
    ++ leBytes 1 r.group ++ leBytes 1 r.head ++ leBytes 1 r.qhead ++ leBytes 1 r.layer
    ++ leBytes 4 r.alarmId.toNat ++ leBytes 4 r.alarmScore.toNat ++ leBytes 4 r.m.toNat ++ leBytes 4 r.l.toNat
    ++ leBytes 4 r.mass.toNat ++ leBytes 4 r.ordinal ++ List.replicate 12 0
    ++ r.cands.flatMap fun c => leBytes 4 c.1.toNat ++ leBytes 4 c.2.toNat

/-- A command record (R216). -/
def CmdRec.record (c : CmdRec) : List Byte :=
  leBytes 8 c.tick ++ leBytes 4 c.bytes.length ++ leBytes 2 c.mb ++ [0, 0] ++ c.bytes

/-- A link record (R219). -/
def Link.bytes (l : Link) : List Byte :=
  leBytes 8 l.tick ++ leBytes 8 l.number ++ l.content ++ l.head ++ l.ledger ++ leBytes 4 l.records ++ leBytes 1 l.kind
    ++ List.replicate 11 0

/-- A seal body (R221). -/
def Seal.body (x : Seal) : List Byte :=
  [0x54, 0x5A, 0x2D, 0x53, 0x45, 0x41, 0x4C, 0x31] ++ leBytes 8 x.number ++ leBytes 8 x.tick ++ leBytes 8 x.link ++ x.head
    ++ x.prevHead ++ leBytes 8 x.boot ++ leBytes 8 x.time ++ List.replicate 16 0

/-- A seal record: body, signature and padding to 10,048 bytes (R221). -/
def Seal.bytes (x : Seal) : List Byte := slice (x.body ++ x.sig.getD []) 0 10048

/-! ## Records of the tick (R213, R214) -/

/-- The tick's records in order of the emitting core's ordinal, with ORDINAL. -/
def orderRecords (l : List ARec) : List ARec :=
  let r := l.insertionSort fun a b => lcOrd a.lcid ≤ lcOrd b.lcid
  (List.range r.length).zipWith (fun i (x : ARec) => { x with ordinal := i }) r

/-- Stores records in the area of each emitting core's stack. -/
def storeRecords (l : List ARec) (s : State) : State :=
  l.foldl
    (fun t r => { t with records := Tab.set t.records (lcStack r.lcid) (Tab.getD t.records (lcStack r.lcid) [] ++ [r]) }) s

/-! ## Digests (R216) -/

/-- The records a plan consumes in the tick: none where it is left out of the attempt. -/
def State.consumed (s : State) (slot : Nat) : List JRec :=
  if s.seqr.leftOut.contains slot then [] else s.inputsOf slot

/-- INPUT_DIGEST of a plan. -/
def inputDigest (p : Plan) (l : List JRec) : List Byte := if p.retain then shake256 (l.flatMap JRec.bytes) else zeros32

/-- FIRST_INDEX of the records consumed: zero where there is none. -/
def firstIndex (l : List JRec) : Nat := match l with | [] => 0 | r :: _ => r.index

/-- The content digest of the tick now committing, with the command records given (R216). No rule says how a plan gives the host an
output, so the bytes of OUTPUT_DIGEST are free (log 36); a tick that runs no plan has none. -/
def contentDigest (s : State) (cmds : List CmdRec) (recs : List ARec) : List Byte :=
  shake256 ([0x54, 0x5A, 0x45, 0x56, 0x2D, 0x43] ++ leBytes 8 s.tickCsr ++ leBytes 2 s.admitted.length
    ++ (s.admitted.flatMap fun e =>
      let l := s.consumed e.1
      leBytes 2 e.1 ++ e.2.hash ++ leBytes 4 l.length ++ leBytes 8 (firstIndex l) ++ inputDigest e.2 l)
    ++ shake256 (cmds.flatMap CmdRec.record) ++ shake256 (recs.flatMap ARec.bytes)
    ++ shake256 (if s.admitted.all fun e => s.seqr.leftOut.contains e.1 then [] else Config.planOutputs s.tickCsr))

/-- The head after a link (R217). -/
def linkHead (head : List Byte) (kind tick : Nat) (content ledger : List Byte) : List Byte :=
  shake256 ([0x54, 0x5A, 0x45, 0x56, 0x2D, 0x4C] ++ head ++ leBytes 1 kind ++ leBytes 8 tick ++ content ++ ledger)

/-- Adds a link to the chain. -/
def addLink (kind tick : Nat) (content ledger : List Byte) (records : Nat) (s : State) : State :=
  let h := linkHead s.chain kind tick content ledger
  { s with
    chain := h
    linkCount := s.linkCount + 1
    chainTick := tick
    links := s.links ++ [{ tick := tick, number := s.linkCount, content := content, head := h, ledger := ledger,
                           records := records, kind := kind }] }

/-- The first link of a boot (R218). -/
def bootLink (s : State) : State :=
  let h := shake256 ([0x54, 0x5A, 0x45, 0x56, 0x2D, 0x42] ++ s.mram.sealHead ++ leBytes 8 s.mram.bootCount
    ++ s.hearth.measurement)
  { s with
    chain := h
    linkCount := 1
    chainTick := s.seqr.count
    sealed := none
    links := s.links ++ [{ tick := s.seqr.count, number := 0, content := zeros32, head := h, ledger := zeros32, records := 0,
                           kind := 1 }] }

/-- Adds the marker links of the commit, after its tick link (R217). -/
def addMarkers (tick : Nat) (s : State) : State :=
  s.markers.foldl (fun t k => addLink k tick zeros32 zeros32 0 t) { s with markers := [] }

/-! ## Seals (R221) -/

/-- Seals being signed. -/
def State.sealsPending (s : State) : Nat := (s.seals.filter fun x => x.sig.isNone).length

/-- HEAD of the seal before the next. -/
def State.prevSeal (s : State) : List Byte := match s.seals.getLast? with | some x => x.head | none => s.mram.sealHead

/-- Begins a seal over the chain's head. -/
def beginSeal (s : State) : State :=
  { s with
    sealAsked := false
    seals := s.seals ++ [{ number := s.mram.sealNumber + s.sealsPending, tick := s.chainTick, link := s.linkCount - 1, head := s.chain,
                           prevHead := s.prevSeal, boot := s.mram.bootCount, time := s.seqr.time, sig := none }] }

/-- Seals at a commit: at or beyond the next seal point, or after EVD_SEAL, one seal, when a place is free; a seal point
that finds none waits. -/
def sealCommit (tick : Nat) (s : State) : State :=
  let due := decide (s.sealNext ≤ tick)
  if (due || s.sealAsked) && decide (s.sealsPending < 4) then
    let t := beginSeal s
    if due then { t with sealNext := (tick + 1) / 4096 * 4096 + 4095 } else t
  else s

/-! ## The ledger (R40) -/

/-- The ledger record of a commit: `gen` is the generation in force as the tick ran, `plans` the entries of the plans
admitted as it ran. -/
def ledgerOf (s : State) (gen : W32) (plans : List LedgerPlan) (fpPublished suspended : Bool) : Ledger :=
  { tick := s.seqr.tick, commitAt := s.seqr.count, time := s.seqr.time, fpGen := gen, attempt := s.seqr.attempt
    late := s.seqr.dueMissed, cooling := s.seqr.cooling, fpPublished := fpPublished, suspended := suspended, plans := plans }

/-- Ledger entries of the plans admitted in the tick now committing. -/
def State.ledgerPlans (s : State) : List LedgerPlan :=
  s.admitted.map fun e => let l := s.consumed e.1; { slot := e.1, count := l.length, first := firstIndex l }

/-! ## Replay (R226) -/

/-- The number of the recorded tick running, if one is. -/
def State.replaying (s : State) : Bool := match s.replay with | some r => r.running.isSome | none => false

/-- The replay head after a recorded tick of content digest `c` and the marker links of its capture changes (R217), and the outcome of its
command. A marker of this device's own waits for a commit that is no replay tick's, since that adds no link (R225, log 70). -/
def endReplay (c : List Byte) (s : State) : State :=
  match s.replay with
  | none => s
  | some r =>
    match r.running with
    | none => s
    | some (n, mb, _, content, ledger) =>
      let h := (s.markers.filter fun k => k == 4).foldl (fun h k => linkHead h k n zeros32 zeros32) (linkHead r.head 0 n c ledger)
      let same := decide (c = content)
      let t : State := { s with
        markers := s.markers.filter fun k => k != 4
        replay := some { r with head := h, running := none, records := [], cmds := [] } }
      let t := if same then t else post (event .evdReplayMismatch none [n]) t
      { t with answers := t.answers.map fun a =>
          if a.mb = mb then
            let words : List W64 := (List.range 8).map fun i => BitVec.ofNat 64 (field (c ++ h) (8 * i) 8)
            { a with resp := { a.resp with status := (if same then .ok else .limit), body := words } }
          else a }

/-- The chain at a commit: the tick link unless the tick replayed a recorded one, then markers, then a seal; the commit's
records are stored (R214, R217, R221, R225). -/
def commitEvidence (recs : List ARec) (content ledger : List Byte) (s : State) : State :=
  let t := storeRecords (recs.map fun r => { r with replay := s.replaying }) s
  sealCommit s.seqr.tick
    (if s.replaying then endReplay content t else addMarkers s.seqr.tick (addLink 0 s.seqr.tick content ledger recs.length t))

end Sys2Proof.Machine
end

