-- ==== Sys2Proof/Machine/Torus.lean ====
section
/-! DEFINITION. The TLink torus: routes, packets as bytes, and what leaves by a port (R272-R277). -/

namespace Sys2Proof.Machine

open Sys2Proof

/-! ## Routes (R274, R275) -/

/-- log2 of the fabric's size in a dimension. -/
def State.dimLog (s : State) (d : Nat) : Nat := s.cfg.dims.toNat / 4 ^ d % 4

/-- The coordinate of a device address in a dimension. -/
def coord (a d : Nat) : Nat := a / 8 ^ d % 8

/-- A device address with one coordinate changed. -/
def setCoord (a d v : Nat) : Nat := a - coord a d * 8 ^ d + v * 8 ^ d

/-- The neighbour of a device over a port: 2d is the positive direction of dimension d, 2d + 1 the negative one (R274). -/
def State.neighbour (s : State) (a p : Nat) : Nat :=
  let d := p / 2
  let n := 2 ^ s.dimLog d
  setCoord a d (if p % 2 = 0 then (coord a d + 1) % n else (coord a d + n - 1) % n)

/-- The link over a port of a device is down: in the fabric link map, or a port of this device. -/
def State.linkDown (s : State) (a p : Nat) : Bool :=
  s.cfg.linkMapDown.contains (a, p) || s.cfg.linkMapDown.contains (s.neighbour a p, p + 1 - 2 * (p % 2))
    || (a == s.cfg.devAddr.toNat && !(s.portAt p).up)

/-- Some link on a way of `n` hops over one port's direction is down. -/
def State.wayDown (s : State) (p : Nat) : Nat → Nat → Bool
  | 0, _ => false
  | n + 1, a => s.linkDown a p || s.wayDown p n (s.neighbour a p)

/-- The direction taken in one dimension: none where nothing need be crossed, or both ways are down. -/
def State.wayIn (s : State) (a b d : Nat) : Option (Option Nat) :=
  let n := 2 ^ s.dimLog d
  let fwd := (coord b d + n - coord a d) % n
  let back := (n - fwd) % n
  if fwd = 0 then some none
  else
    let first := if fwd ≤ back then (2 * d, fwd) else (2 * d + 1, back)
    let other := if fwd ≤ back then (2 * d + 1, back) else (2 * d, fwd)
    if !s.wayDown first.1 first.2 a then some (some first.1)
    else if !s.wayDown other.1 other.2 a then some (some other.1) else none

/-- The first port and ROUTE bits for a destination; none where it is unreachable. Dimensions are crossed x, y, z. -/
def State.route (s : State) (dest : Nat) : Option (Nat × Nat) :=
  let step (acc : Option (Nat × Option Nat × Nat)) (d : Nat) : Option (Nat × Option Nat × Nat) :=
    acc.bind fun r =>
      (s.wayIn r.1 dest d).map fun w =>
        (setCoord r.1 d (coord dest d),
         (match r.2.1 with | some p => some p | none => w),
         r.2.2 + (match w with | some p => if p % 2 = 1 then 2 ^ d else 0 | none => 0))
  let valid := (List.range 3).all fun d => decide (coord dest d < 2 ^ s.dimLog d)
  if valid then
    match (List.range 3).foldl step (some (s.cfg.devAddr.toNat, none, 0)) with
    | some (_, some p, r) => some (p, r)
    | _ => none
  else none

/-! ## Packets (R273) -/

/-- The bytes of a packet of a KIND: its header, its payload padded to 64 bytes, and the trailer with its CRC-32C. -/
def packetBytes (kind : Nat) (p : Packet) : List Byte :=
  let head := leBytes 2 p.destDev.toNat ++ leBytes 2 p.srcDev.toNat ++ leBytes 1 kind ++ leBytes 1 p.route.toNat ++ leBytes 2 p.linkSeq.toNat
    ++ leBytes 2 p.tag.toNat ++ leBytes 1 p.ring.toNat ++ leBytes 1 p.status.toNat ++ leBytes 2 p.plan.toNat ++ [0, 0]
    ++ leBytes 4 p.seq.toNat ++ leBytes 4 p.payload.length ++ leBytes 8 p.srcIndex
  let body := head ++ p.payload ++ List.replicate (roundUp p.payload.length 64 - p.payload.length) 0
  body ++ leBytes 4 (crc32c body).toNat ++ [0, 0, 0, 0]

/-- The first packets, newest first, whose bytes fit a bound. -/
def fitting : Nat → List Packet → List Packet
  | _, [] => []
  | n, p :: l => let k := 40 + roundUp p.payload.length 64; if n < k then [] else p :: fitting (n - k) l

/-- The replay buffer of a port: the last packets sent by it that 1 MiB holds, the oldest first. -/
def State.replayBuf (s : State) (port : Nat) : List Packet :=
  (fitting 0x100000 (((s.tlinkOut.filter fun e => e.1 == port).map fun e => e.2.2).reverse)).reverse

/-- A device's port crosses the wrap link of its dimension (R275). -/
def State.wraps (s : State) (port : Nat) : Bool :=
  let a := s.cfg.devAddr.toNat
  let d := port / 2
  if port % 2 = 0 then coord a d == 2 ^ s.dimLog d - 1 else coord a d == 0

/-- A packet leaves by a port: it takes the port's next LINK_SEQ, and crossing a wrap link moves it to dateline channel 1 (R6, R273,
R275). -/
def sendOn (port kind : Nat) (p : Packet) (s : State) : State :=
  let q := s.portAt port
  let p := { p with linkSeq := q.linkSeq, route := if s.wraps port then p.route ||| 8 else p.route }
  { s.setPort port { q with linkSeq := q.linkSeq + 1 } with tlinkOut := s.tlinkOut ++ [(port, kind, p)] }

/-! ## Entries sent again (R277) -/

/-- The key under which a HOLD is kept: the destination device and plan. -/
def holdKey (dest plan : Nat) : Nat := 65536 * dest + plan

/-- An entry of a ring is held at this device. -/
def State.entryHeld (s : State) (x : RingEntry) : Bool := s.heldAway.contains (holdKey x.dest x.plan)

/-- An unacknowledged entry sent again, with the tag of its first transmission. -/
def resend (n : Nat) (x : RingEntry) (s : State) : State :=
  match s.route x.dest with
  | none => s
  | some (port, way) =>
    sendOn port 0
      { destDev := BitVec.ofNat 16 x.dest, srcDev := s.cfg.devAddr.setWidth 16, route := BitVec.ofNat 8 way, linkSeq := 0,
        tag := x.tag, ring := BitVec.ofNat 8 n, status := 0, plan := BitVec.ofNat 16 x.plan, seq := x.seq,
        srcIndex := x.index, payload := x.payload } s

/-- After a route change a ring sends its unacknowledged entries again, in order. -/
def reroute (before : State) (s : State) : State :=
  s.rings.foldl
    (fun t e =>
      if e.2.unacked.any (fun x => before.route x.dest ≠ s.route x.dest) then
        (e.2.unacked.filter fun x => !s.entryHeld x).foldl (fun t x => resend e.1 x t) t
      else t) s

/-! ## Ports that go up and down (R275) -/

/-- MGMT packets to the neighbours over every port that is up, while the Hearth serves (R275). -/
def sendMgmt (s : State) : State :=
  if !s.serves then s
  else
    ((List.range 6).filter fun n => (s.portAt n).up).foldl
      (fun t n => sendOn n 4
        { destDev := (s.portAt n).peer.setWidth 16, srcDev := s.cfg.devAddr.setWidth 16, route := 0, linkSeq := 0,
          tag := BitVec.ofNat 16 s.seqr.count, ring := 0, status := 0, plan := 0, seq := 0, srcIndex := 0,
          payload := Config.mgmtBytes s.cfg.linkMapDown } t) s

/-- Marks a port's link down or up in the link map. -/
def markLink (n : Nat) (down : Bool) (s : State) : State :=
  let l := s.cfg.linkMapDown.filter fun x => x != (s.cfg.devAddr.toNat, n)
  { s with cfg := { s.cfg with linkMapDown := if down then (s.cfg.devAddr.toNat, n) :: l else l } }

/-- A port that goes down, its lanes no longer in use. -/
def Port.drop (p : Port) : Port := { p with up := false, width := 0, retraining := false, swaps := [] }

/-- A port that goes down. -/
def portDown (n : Nat) (s : State) : State :=
  if (s.portAt n).up then sendMgmt (reroute s (markLink n true (s.setPort n (s.portAt n).drop))) else s

end Sys2Proof.Machine
end

