-- ==== Sys2Proof/Machine/Changes.lean ====
section
/-! DEFINITION. What each change of committed state does at the commit that applies it (R39, R380), and what acts after its
write-back (R136, R233, R339). -/

namespace Sys2Proof.Machine

open Sys2Proof

/-! ## Sessions (R381-R386, R416) -/

/-- A session's objects become orphaned (R384). -/
def orphan (n : Nat) (s : State) : State :=
  { s with
    plans := s.plans.map fun e => (e.1, if e.2.owner = n then { e.2 with owner := 0 } else e.2)
    seqs := s.seqs.map fun e => (e.1, if e.2.owner = n then { e.2 with owner := 0 } else e.2)
    pools := s.pools.map fun e => (e.1, if e.2.owner = n then { e.2 with owner := 0 } else e.2)
    layoutOwners := s.layoutOwners.map fun e => (e.1, if e.2.1 = n then (0, e.2.2) else e.2) }

/-- Closes a session: its objects are orphaned, its expert access ends, and an image it staged is discarded (R384, R386,
R398). -/
def closeSession (n : Nat) (s : State) : State :=
  if (Tab.get s.sessions n).isNone then s
  else
    let t := post (event .sessionOrphaned (objWord 9 n) [n]) (orphan n s)
    { t with
      sessions := Tab.del t.sessions n
      host := { t.host with regHolders := t.host.regHolders.filter fun x => x != n
                            memHolders := t.host.memHolders.filter fun x => x != n }
      hearth := { t.hearth with staged := match t.hearth.staged with
                                          | some f => if f.session = n then none else some f
                                          | none => none } }

/-- A function-level reset of one function: its sessions close, its unserved commands are abandoned, and the responses of those
served are discarded; changes already accepted commit (R385). -/
def resetOne (fn : Nat) (s : State) : State :=
  let t := (s.sessions.filter fun e => e.2.fn == fn).foldl (fun t e => closeSession e.1 t) s
  let mine (mb : Nat) : Bool := (s.mbAt mb).fn == fn
  { t with
    mailboxes := t.mailboxes.map fun e => (e.1, if e.2.fn = fn then { e.2 with busy := false, served := false } else e.2)
    answers := t.answers.filter fun a => !mine a.mb
    quotes := t.quotes.filter fun q => !mine q.mb
    jpend := t.jpend.map fun j => { j with answer := match j.answer with
                                                     | some (mb, n) => if mine mb then none else some (mb, n)
                                                     | none => none } }

/-- A function-level reset; one of the PF resets every function (R385). -/
def resetFunction (fn : Nat) (s : State) : State :=
  if fn = 0 then (List.range 64).foldl (fun t n => resetOne n t) s else resetOne fn s

/-- The grant an object's commands need, for adoption: plans PLAN, sequences and pools SEQ. -/
def covers (x : Session) (grant : Nat) : Bool := x.grants.getLsbD grant

/-- SEC_SESSION_ADOPT: the orphaned objects of the session's function that its grants cover (R384). -/
def adopt (n : Nat) (s : State) : State :=
  match Tab.get s.sessions n with
  | none => s
  | some x =>
    { s with
      plans := s.plans.map fun e => (e.1, if e.2.owner = 0 ∧ e.2.fn = x.fn ∧ covers x 0 then { e.2 with owner := n } else e.2)
      seqs := s.seqs.map fun e => (e.1, if e.2.owner = 0 ∧ e.2.fn = x.fn ∧ covers x 1 then { e.2 with owner := n } else e.2)
      pools := s.pools.map fun e => (e.1, if e.2.owner = 0 ∧ e.2.fn = x.fn ∧ covers x 1 then { e.2 with owner := n } else e.2)
      layoutOwners := s.layoutOwners.map fun e => (e.1, if e.2.1 = 0 ∧ e.2.2 = x.fn ∧ covers x 1 then (n, e.2.2) else e.2) }

/-- The level that the default and the open sessions holding DEBUG give (R416). -/
def State.levelNow (s : State) : Nat :=
  s.sessions.foldl (fun m e => if e.2.pendingOpen then m else max m (e.2.dbgLevel.getD 0)) s.mram.life.level

/-- A commit sets the debug level in force: each change posts its event and adds a marker link; below Functional the test
access port closes (R416, R422). -/
def commitLevel (s : State) : State :=
  let v := s.levelNow
  if v = s.debugLevel then s
  else post (event .debugLevel none [v])
    { s with debugLevel := v, markers := s.markers ++ [5], tapOpen := s.tapOpen && decide (2 ≤ v) }

/-- A lifecycle transition (R412). -/
def enterLife (l : Life) (s : State) : State :=
  let t := (s.sessions.filter fun e => e.2.dbgLevel.isSome).foldl (fun t e => closeSession e.1 t) s
  post (event .lifecycle none [l.code]) { t with mram := { t.mram with life := l } }

/-! ## Signatures (R406, R408) -/

/-- Whether the device can sign. -/
def State.canSign (s : State) : Bool :=
  s.mram.identity.isSome && !s.signingStopped && (decide (s.mram.life = .provisioned) || decide (s.mram.life = .deployed))

/-- One more index of the identity key is used: near its end an event is posted, and at its end signing stops. -/
def useIndex (s : State) : State :=
  let n := s.mram.nextIndex + 1
  let t : State := { s with mram := { s.mram with nextIndex := n } }
  let t := if n = 2 ^ 40 - 2 ^ 33 + 1 then post (event .sigIndexLow none []) t else t
  if n = 2 ^ 40 then post (event .signingStopped none [1]) { t with signingStopped := true } else t

/-- The signature of a message, all zero where the device cannot sign, and whether it could. -/
def sign (msg : List Byte) (s : State) : List Byte × Bool × State :=
  if s.canSign then (slice (Config.xmssSign s.mram.nextIndex msg) 0 9893, true, useIndex s)
  else (List.replicate 9893 0, false, s)

/-- The oldest seal takes the signature that a signer gives it; MRAM takes its HEAD and the count of seals (R221, R222). -/
def sealWith (signer : List Byte → State → List Byte × Bool × State) (s : State) : State :=
  match s.seals.find? fun x => x.sig.isNone with
  | none => s
  | some x =>
    let r := signer x.body s
    let t := r.2.2
    { t with
      sealed := some (x.tick, x.link)
      seals := t.seals.map fun y => if y.number = x.number then { y with sig := some r.1 } else y
      mram := { t.mram with sealHead := x.head, sealNumber := t.mram.sealNumber + 1 } }

/-- The oldest seal is signed. -/
def signSeal (s : State) : State := sealWith sign s

/-- The identity key signs for the last time, as the device enters Returned (R414). -/
def lastSign (msg : List Byte) (s : State) : List Byte × Bool × State :=
  if s.mram.identity.isSome && !s.signingStopped then (slice (Config.xmssSign s.mram.nextIndex msg) 0 9893, true, useIndex s)
  else (List.replicate 9893 0, false, s)

/-! ## Memory -/

/-- Clears the DRAM of sites that meet a test. -/
def clearSites (f : Nat → Bool) (s : State) : State :=
  { s with
    dram := s.dram.filter fun c => !f (c.1 / 2 ^ 28)
    words := s.words.filter fun w => !f (w.1 / 2 ^ 25) }

/-- Zeroes all user-visible memory (R136). -/
def zeroUser (s : State) : State :=
  { clearSites (fun n => n % 16 != 15) s with lostStacks := [] }

/-- A stack's reserve is rebuilt empty: pools keep their definition with every frame free (R271). -/
def emptyReserve (n : Nat) (s : State) : State :=
  let t := (s.pools.filter fun e => lcStack e.2.lcid == n).foldl
    (fun t e =>
      let pfns := (List.range e.2.frames).map fun j => e.2.firstPfn + 20 * j
      let t := pfns.foldl (fun t f => t.setDesc f { t.descOf f with st := .free, refs := 0 }) t
      { t with pools := Tab.set t.pools e.1 { e.2 with free := pfns, count := pfns.length } }) s
  { t with
    records := Tab.del t.records n
    journal := t.journal.filter fun r => r.home != n
    teleStack := Tab.del t.teleStack n
    tables := t.tables.filter fun e => e.1 / 2 ^ 24 != n
    shadows := t.shadows.filter fun h => h.stack != n
    layoutCopies := t.layoutCopies.filter fun e => e.1 / 256 != n
    seqs := t.seqs.map fun e =>
      (e.1, if e.2.home = n then e.2.mapGroups fun _ g => { g with dir := none, gaps := [], move := none } else e.2) }

/-- SEC_RETURN zeroes all user-visible memory and the reserve: what the reserve holds is gone, but for records on their way to the
field-fault log in MRAM (R26, R309, R414; log 109). -/
def zeroAll (s : State) : State :=
  let t := (List.range 20).foldl (fun t n => emptyReserve n t) (clearSites (fun _ => true) s)
  { t with
    lostStacks := [], plans := [], rings := [], jpend := [], links := [], seals := [], ledgers := [], cmdLog := [], eventLog := [], teleDev := []
    hearth := { t.hearth with staged := none }
    dbg := { t.dbg with latch := none } }

/-- A stack's contents are lost; every line of its slices is then zero with poison (R271). -/
def loseContents (n : Nat) (poison : Bool) (s : State) : State :=
  let t := emptyReserve n (clearSites (fun x => x / 256 == n) s)
  { t with lostStacks := if poison then n :: t.lostStacks.filter (fun x => x != n) else t.lostStacks.filter fun x => x != n }

/-! ## Plans -/

/-- A plan is admitted: its place in the order of admission, its sequences' HOLD bit PLAN and its output rings (R54, R276,
R461). -/
def applyAdmit (slot : Nat) (s : State) : State :=
  match s.planAt slot with
  | none => s
  | some p =>
    if p.st = .admitted then s
    else
      let t : State := { s.setPlan slot { p with st := .admitted, order := s.admissions } with admissions := s.admissions + 1 }
      let t := p.rings.foldl
        (fun (t : State) r =>
          if t.rings.any fun e => e.1 == r.ring && e.2.plan == slot then t
          else
            let cons := leNat (t.privBytes (lcSite r.lcid) r.cons 8)
            { t with rings := Tab.set t.rings r.ring ⟨slot, cons, cons, [], false⟩ }) t
      assignSlots (holdPlan slot false t)

/-- PLAN_UNLOAD at its commit: the slot is emptied and its unconsumed journal records are freed (R54). -/
def applyUnload (slot : Nat) (s : State) : State :=
  { s with
    plans := Tab.del s.plans slot
    rings := s.rings.filter fun e => e.2.plan != slot
    journal := s.journal.filter fun r => r.plan != slot || r.consumedBy.isSome
    jpend := s.jpend.filter fun r => r.record.plan != slot }

/-! ## Ports (R339, R440) -/

/-- Conditions of the host port: its rails, its clock and its domain. -/
def State.hostPower (s : State) : Bool :=
  s.boot.released && !s.boot.off && s.pins.serial && !s.boot.lostClocks.contains .pcie && !s.power.off.contains 122

/-- The host port trains where it can, from P1 on. -/
def hostTrain (s : State) : State := { s with pins := { s.pins with hostUp := s.hostPower && decide (1 ≤ s.boot.stage) } }

/-! ## Capacity changes: every commit evaluates fit again (R53) -/

/-- A regulator's rate (R132). -/
def applyRate (q : Nat) (stream : Bool) (v : Nat) (s : State) : State :=
  let k := s.quadAt q
  s.setQuad q (if stream then { k with streamRate := v, streamPend := none } else { k with sliceRate := v, slicePend := none })

/-- EV_POWER_STATE: the new state code, or the domain (R344). -/
def powerEvent (object : Option Nat) (detail : List Nat) (s : State) : State := post (event .powerState object detail) s

/-- Active becomes Trim while a domain is gated or a half is slow, and Trim Active when none is (R337). -/
def settleTrim (s : State) : State :=
  let trimmed := s.power.off.any (fun d => decide (d < 100)) || (List.range 20).any fun n => (s.stackAt n).westSlow || (s.stackAt n).eastSlow
  match s.power.state, trimmed with
  | .active, true => powerEvent none [1] { s with power := { s.power with state := .trim } }
  | .trim, false => powerEvent none [0] { s with power := { s.power with state := .active } }
  | _, _ => s

/-! ## After write-back -/

/-- What acts between the write-back and the start of the next tick. -/
def doAction (c : Change) (s : State) : State :=
  match c with
  | .gate d =>
    let s := if d = 122 then resetFunction 0 { s with pins := { s.pins with hostUp := false } }
      else if d = 120 then [0, 1, 2].foldl (fun t n => portDown n t) s
      else if d = 121 then [3, 4, 5].foldl (fun t n => portDown n t) s
      else s
    settleTrim (powerEvent (objWord 5 d) [d]
      { s with power := { s.power with off := if s.power.off.contains d then s.power.off else d :: s.power.off } })
  | .clockHalf stack half slow => settleTrim (clockChange stack half slow s)
  | .globalSteps v =>
    zeroUser { s with cfg := { s.cfg with globalSteps := v, stepsPend := none, zeroing := true } }
  | .stackOff n => loseContents n false s
  | .retireFrame pfn spare => applyRetireFrame pfn spare s
  | .toReturned _ =>
    let t := zeroAll ((List.range 4).foldl (fun t _ => sealWith lastSign t) s)
    { t with
      cfg := { t.cfg with zeroing := true }
      fuses := { t.fuses with erased := true } }
  | _ => s

/-- Runs the actions of a commit after its write-back. -/
def runActions (s : State) : State := s.power.actions.foldl (fun t c => doAction c t) { s with power := { s.power with actions := [] } }

/-- Keeps a change for after the write-back. -/
def later (c : Change) (s : State) : State := { s with power := { s.power with actions := s.power.actions ++ [c] } }

/-! ## Evidence -/

/-- EVD_ACK at its commit: kind 0 attribution records, 1 links with their command records and the seals over them (log 71), 2 retained journal records, up to a
tick (R46, R223). -/
def applyAck (kind tick : Nat) (s : State) : State :=
  match kind with
  | 0 => { s with records := s.records.map fun e => (e.1, e.2.filter fun r => decide (tick < r.tick)) }
  | 1 => { s with links := s.links.filter (fun l => decide (tick < l.tick)), cmdLog := s.cmdLog.filter (fun c => decide (tick < c.tick)),
                  seals := s.seals.filter fun x => x.sig.isNone || decide (tick < x.tick) }
  | _ => { s with journal := s.journal.filter fun r =>
             !(match r.consumedBy with | some t => decide (t ≤ tick) | none => false) }

/-- Capture of a plan is turned on or off; a change adds a marker link (R215). -/
def applyCapture (slot : Nat) (on : Bool) (s : State) : State :=
  match s.planAt slot with
  | none => s
  | some p => if p.capture = on then s else { s.setPlan slot { p with capture := on } with markers := s.markers ++ [4] }

/-! ## Debug control block (R425) -/

/-- A write of the debug control block. -/
def applyDbg (b : List Byte) (s : State) : State :=
  { s with dbg := { s.dbg with
      shadowMask := (List.range 16).map fun i => BitVec.ofNat 16 (field b (2 * i) 2)
      benchLcid := BitVec.ofNat 16 (field b 0x20 2)
      benchLatch := s.dbg.benchLatch || decide (field b 0x22 1 = 1) } }

/-! ## Granules (R293) -/

/-- FAULT_RETIRE at its commit: the fault map takes the granule, and the log a record of it (R309, DEDUCED). -/
def applyGranule (a : Nat) (s : State) : State :=
  if s.faultMap.granules.contains a || decide (4096 ≤ s.faultMap.granules.length) then s else
  let t := match s.devLoc a with
    | some (_, site, loc) => logFault { dramRec s 0xC 2 site loc with flags := 2 } s
    | none => s
  { t with faultMap := { t.faultMap with granules := t.faultMap.granules ++ [a] }, mapDirty := true }

/-- FAULT_DRAM_FUSE at its commit (R291): the layer serves the row from cells of its own from now on. What they hold is not given, a
free value, and what waited to judge the old cells is dropped (log 38). -/
def applyFuse (site bank row : Nat) (s : State) : State :=
  let (k, s) := draw s
  let a := site * 2 ^ 28 + bank * 0x400000 + row * 2048
  let t : State := { s with
    dram := Mem.write s.dram a ((List.range 2048).map fun i => Config.freeByte k i)
    rereads := s.rereads.filter fun e => e.1 / 256 != a / 2048
    lastingWords := s.lastingWords.filter fun w => w / 256 != a / 2048
    mram := { s.mram with fused := s.mram.fused ++ [(site, bank, row)] } }
  (List.range 32).foldl (fun t i => t.setLine (a / 8 + 8 * i) .clean) t

/-! ## Identity (R404, R405) -/

/-- The body of a die certificate: 0 the I/O die, 1 + s the logic die of stack `s`. -/
def dieCert (s : State) (i : Nat) : List Byte :=
  [0x54, 0x5A, 0x2D, 0x43, 0x45, 0x52, 0x54, 0x31] ++ leBytes 1 (if i = 0 then 1 else 2) ++ leBytes 1 (if i = 0 then 0x1F else i - 1)
    ++ [0, 0, 1, 0, 0, 0] ++ leBytes 8 s.fuses.serial.toNat ++ leBytes 8 (Tab.getD s.fuses.dieSerials i 0).toNat
    ++ shake256 (slice Config.identityKey 0 68) ++ slice (Config.dieDigest i) 0 32 ++ List.replicate 48 0

/-- SEC_PROVISION at its commit: the identity key, and the 21 die certificates signed with indices 0 to 20. -/
def applyProvision (s : State) : State :=
  { s with mram := { s.mram with
      identity := some (slice Config.identityKey 0 68)
      nextIndex := 21
      certs := (List.range 21).foldl (fun t i => Tab.set t (i + 1) (dieCert s i ++ slice (Config.xmssSign i (dieCert s i)) 0 9893)) s.mram.certs } }

/-! ## Every change -/

/-- A sequence opened by SEQ_OPEN: GENERATION goes on from the slot's last, and HOLD bit PLAN is set while its plan is
suspended (R54, R178). -/
def applyOpen (slot : Nat) (r : SeqRec) (s : State) : State :=
  let gen := match Tab.get s.seqs slot with | some o => o.gen | none => 0
  let hold := match s.planAt r.plan with | some p => if p.st = .suspended then r.hold ||| 2 else r.hold | none => r.hold
  s.setSeq slot ({ r with gen := gen, hold := hold } : SeqRec).recovery

/-- SEQ_CLOSE at its commit: its pages are released and the record is closed (R185, R207). -/
def applyClose (slot : Nat) (s : State) : State :=
  let t := (List.range (s.groupsOf slot).length).foldl (fun t g => leaveTables slot g t) s
  match Tab.get t.seqs slot with
  | some r => t.setSeq slot { r with isOpen := false, groups := [], hold := 0 }
  | none => t

/-- Changes the HOLD bits of a sequence. -/
def setHold (slot : Nat) (f : BitVec 4 → BitVec 4) (s : State) : State :=
  match Tab.get s.seqs slot with
  | some r => s.setSeq slot { r with hold := f r.hold }
  | none => s

/-- Changes one session. -/
def modSession (n : Nat) (f : Session → Session) (s : State) : State :=
  match Tab.get s.sessions n with
  | some x => { s with sessions := Tab.set s.sessions n (f x) }
  | none => s

/-- What a change does at its commit. Those that act after the write-back are kept for it; a stack's start stages and the
retrains are marked in `boot.stk` for the rows that run them (log 33). -/
def applyChange (c : Change) (s : State) : State :=
  match c with
  | .seqOpen slot r => applyOpen slot r s
  | .seqClose slot => applyClose slot s
  | .seqHold slot => setHold slot (fun h => h ||| 1) s
  | .seqRelease slot => setHold slot (fun h => h &&& 14) s
  | .planLoad slot p => s.setPlan slot p
  | .planUnload slot => applyUnload slot s
  | .planAdmit slot => applyAdmit slot s
  | .planSuspend slot cause => applySuspend (slot, cause) s
  | .period ns => { s with seqr := { s.seqr with period := ns, periodPend := none } }
  | .wrapEn v => { s with seqr := { s.seqr with wrapEn := v, wrapPend := none } }
  | .rate q stream v => applyRate q stream v s
  | .budget v => { s with cfg := { s.cfg with budget := v, budgetPend := none } }
  | .globalSteps v => later (.globalSteps v) s
  | .globalWaves v => assignSlots { s with cfg := { s.cfg with globalWaves := v, wavesPend := none } }
  | .flowMin v => { s with power := { s.power with flowMin := v, flowMinPend := none } }
  | .warmupEn v => { s with power := { s.power with warmupEn := v, warmupPend := none, warmup := v && s.power.coldHold } }
  | .calibrate w =>
    let l := w.map fun x => x.toNat
    { s with power := { s.power with calib := l }, mram := { s.mram with calib := l } }
  | .layout slot l n fn =>
    { s with layouts := Tab.set s.layouts slot l, layoutOwners := Tab.set s.layoutOwners slot (n, fn),
             layoutCopies := s.layoutCopies.filter fun e => e.1 % 256 != slot }
  | .poolCreate key p => applyPoolCreate key p s
  | .poolDestroy key => applyPoolDestroy key s
  | .fork src dst len => applyEdit (.fork src dst len) s
  | .truncate slot len => applyEdit (.truncate slot len) s
  | .retirePages slot g lo n => applyEdit (.retirePages slot g lo n) s
  | .kvMap slot g page e => applyEdit (.kvMap slot g page e) s
  | .kvUnmap slot g page => applyEdit (.kvUnmap slot g page) s
  | .retireFrame pfn spare => later (.retireFrame pfn spare) s
  | .kvMove slot g mv => applyMove slot g mv s
  | .kvRestore slot data => applyRestore slot data s
  | .genBump _ => s
  | .memWrite _ _ _ => s
  | .capture slot on => applyCapture slot on s
  | .seal => { s with sealAsked := true }
  | .ack kind tick => applyAck kind tick s
  | .replayBegin base head =>
    { s with markers := s.markers ++ [2], replay := some { base := base, head := head, running := none, next := none, records := [], cmds := [] },
             seqr := { s.seqr with external := false, awaitEdge := false, flywheelRun := 0, flywheel := false } }
  | .replayEnd => { s with markers := s.markers ++ [3], replay := none }
  | .setAddr a d => { s with cfg := { s.cfg with devAddr := a, dims := d } }
  | .retrain n => { s with boot := { s.boot with stk := Tab.set s.boot.stk n 13 } }
  | .rejoin n => { s with boot := { s.boot with stk := Tab.set s.boot.stk n 3 } }
  | .pwrState v =>
    let x : Pwr := match v with | 0 => .active | 2 => .rest | _ => .dormant
    { s with power := { s.power with
        entering := if s.power.state = .rack ∨ s.power.state = x ∨ (x = .active ∧ s.power.state = .trim) then s.power.entering else some x
        rackLatch := s.power.rackLatch && decide (x ≠ .active) } }
  | .gate d => later (.gate d) s
  | .ungate d => if d < 80 then { s with power := { s.power with ungating := d :: s.power.ungating } }
    else
      let t := settleTrim (powerEvent (objWord 5 d) [d] { s with power := { s.power with off := s.power.off.filter fun x => x != d } })
      if d = 122 then hostTrain t else t
  | .clockHalf stack half slow => later (.clockHalf stack half slow) s
  | .stackOff n =>
    let t := loseStore (s.setStack n { s.stackAt n with status := 2, isolated := none, refreshOk := false })
    later (.stackOff n) (powerEvent (objWord 5 (100 + n)) [100 + n] { t with
      power := { t.power with off := (100 + n) :: t.power.off.filter (fun x => x != 100 + n) }
      seqr := { t.seqr with fpChanged := true } })
  | .stackOn n => powerEvent (objWord 5 (100 + n)) [100 + n]
      { s with boot := { s.boot with stk := Tab.set s.boot.stk n 23 },
               power := { s.power with off := s.power.off.filter fun x => x != 100 + n } }
  | .retireGranule a => applyGranule a s
  | .scrubPause v => { s with scrubPaused := v, scrubPausedAt := s.seqr.time }
  | .inject kind u d n => { s with inject := some { kind := kind, unit := u, detail := d, attempts := n, tick := s.seqr.tick } }
  | .dramFuse site bank row => applyFuse site bank row s
  | .sessionOpen n => modSession n (fun x => { x with pendingOpen := false, since := s.seqr.time }) s
  | .sessionClose n => closeSession n s
  | .adopt n => adopt n s
  | .ceiling fn v => { s with host := { s.host with ceilings := Tab.set s.host.ceilings fn v } }
  | .assign mb fn =>
    ({ s with counters := s.counters.filter (fun e => decide (e.1 ≠ .evLost mb)), devIncs := s.devIncs.filter fun e => decide (e.1 ≠ .evLost mb) } : State).setMb mb
      { Mailbox.init with fn := fn }
  | .expertOpen n mem =>
    if mem then { s with host := { s.host with memHolders := n :: s.host.memHolders.filter fun x => x != n } }
    else { s with host := { s.host with regHolders := n :: s.host.regHolders.filter fun x => x != n } }
  | .expertClose n mem =>
    if mem then { s with host := { s.host with memHolders := s.host.memHolders.filter fun x => x != n } }
    else { s with host := { s.host with regHolders := s.host.regHolders.filter fun x => x != n } }
  | .bar2Base v => { s with host := { s.host with bar2Base := v } }
  | .provision => applyProvision s
  | .certInstall b => enterLife .provisioned { s with mram := { s.mram with certs := Tab.set s.mram.certs 0 b } }
  | .deploy b => enterLife .deployed { s with mram := { s.mram with deploy := some b } }
  | .toReturned n =>
    let t := s.sessions.foldl (fun t e => if e.1 = n then t else closeSession e.1 t) s
    enterLife .returned (later (.toReturned n) { t with sealAsked := true })
  | .svnCommit => { s with mram := { s.mram with svnFloor := max s.mram.svnFloor s.hearth.svn } }
  | .dbgWrite _ b => applyDbg b s
  | .tapOpen _ => { s with tapOpen := true }
  | .dbgClose n => modSession n (fun x => { x with dbgLevel := none, tap := false }) s
  | .fwActivate mb => { s with hearth := { s.hearth with handover := some mb } }
  | .bandFall q =>
    if 2000 ≤ (s.thermAt q).cool then s.setTherm q { s.thermAt q with band := (s.thermAt q).band - 1, cool := 0 } else s

end Sys2Proof.Machine
end

