-- ==== Sys2Proof/Machine/Writeback.lean ====
section
/-! DEFINITION. Write-back: remaps, staged stores, scrub rewrites and ring indices (R128, R129, R160, R161, R276,
R285-R292). -/

namespace Sys2Proof.Machine

open Sys2Proof

/-! ## Row remap (R288-R292) -/

/-- What waits to judge the errors of a row whose data has left it is dropped: they say nothing of the row that serves now (R286,
R289). `row` is its place over 2,048. -/
def forgetRow (row : Nat) (s : State) : State :=
  { s with rereads := s.rereads.filter fun e => e.1 / 256 != row
           lastingWords := s.lastingWords.filter fun w => w / 256 != row }

/-- Copies a DRAM row to a spare: corrected words corrected, lines that cannot be corrected written poisoned. -/
def copyRow (src dst : Nat) (s : State) : State :=
  forgetRow (src / 2048) <| (List.range 32).foldl
    (fun t i =>
      let a := src + 64 * i
      let d := dst + 64 * i
      let bad := (List.range 8).any fun k => match s.wordSt (a / 8 + k) with | .poison => true | .uncorrectable => true | _ => false
      let ws := (List.range 8).foldl
        (fun w k => if bad then Tab.set w (d / 8 + k) WordSt.poison else Tab.set w (d / 8 + k) WordSt.clean) t.words
      { t with dram := Mem.write t.dram d (Mem.read s.dram a 64), words := ws }) s

/-- The lowest unused spare row of a bank. -/
def RemapBlock.spare (b : RemapBlock) (bank : Nat) : Option Nat :=
  (List.range 8).find? fun i => !(Tab.getD b.used bank 0).getLsbD i

/-- Marks a spare row used. -/
def RemapBlock.use (b : RemapBlock) (bank i : Nat) : RemapBlock :=
  { b with used := Tab.set b.used bank (Tab.getD b.used bank 0 ||| (1 <<< i)) }

/-- The lowest free entry of the 16. -/
def RemapBlock.freeEntry (b : RemapBlock) : Option Nat := (List.range 16).find? fun i => (Tab.get b.entries i).isNone

/-- The space a granule lies in: 0 global, 1 private, 2 reserve. -/
def granuleSpace (a : Nat) : Nat := if a < devPrivate then 0 else if a < devReserve then 1 else 2

/-- The image on CS7 or CS12 leaves an area of row 2 that holds a granule to be retired: it is written from the other mirror, where
there is one, to an area clear of it (R294). -/
def moveImage (stack loc : Nat) (s : State) : State :=
  let from_ := s.imageOff stack
  let len := s.imageLen stack
  let other := if stack = 7 then 12 else 7
  if !(s.hearth.mirrors.contains stack && decide (from_ / 2048 * 2048 ≤ loc) && decide (loc < from_ + len)) then s
  else
    let at_ := imageArea (loc / 2048 * 2048 :: s.badImage stack) len
    let src := if s.hearth.mirrors.contains other then other else stack
    let bytes := (List.range len).map fun i => s.byteAt (256 * src + 47) (s.imageOff src + i)
    let t := s.putBytes (256 * stack + 47) at_ bytes
    { t with hearth := { t.hearth with imageAt := Tab.set t.hearth.imageAt stack at_ } }

/-- A granule of the reserve whose retirement was asked for: Zororlon retires it from the next commit, and part of the running image
is moved at once (R294). -/
def retireReserve (site loc : Nat) (s : State) : State :=
  let a := devAddr s.cfg.globalSteps site (loc / 2048 * 2048)
  if site % 16 ≠ 15 ∨ s.granuleRetired site loc then s
  else
    let t : State := { s with changes := s.changes ++ [.retireGranule a] }
    if site % 256 = 47 ∧ (site / 256 = 7 ∨ site / 256 = 12) then moveImage (site / 256) loc t else t

/-- EV_RETIRE_REQUEST for a row, with its record and what R292 names; the further errors of a retired granule are not posted
(R293). -/
def retireRequest (kind site loc : Nat) (s : State) : State :=
  let r := dramRec s kind 1 site loc
  let e := event .retireRequest (objWord 3 (site / 256))
    [s.logNext, r.addr, granuleSpace r.addr, match r.pfn with | some p => p | none => 0xFFFFFFFF]
  if s.granuleRetired site loc then s
  else retireReserve site loc (logFault r (devInc .retireReq 1 (post { e with log := some s.logNext } s)))

/-- Writes a slice's remap block and logs a remap made, moved or locked. -/
def putRemap (kind site loc spare : Nat) (b : RemapBlock) (s : State) : State :=
  let r := dramRec s kind 2 site loc
  let t := logFault { r with flags := 2, detail := r.detail + spare * 4096 } s
  { t with faultMap := { t.faultMap with remaps := Tab.set t.faultMap.remaps site b }, mapDirty := true }

/-- A remap entry made or moved: posted and counted. -/
def noteRemap (site : Nat) (s : State) : State :=
  devInc (.remap (site / 256)) 1 (post { event .rowRemapped (objWord 3 (site / 256)) [] with log := some s.logNext } s)

/-- Carries out one remap: a fresh entry, a move to a fresh spare with REPEAT, a lock, or a retire request where there is no
room (R288, R289). -/
def remapOne (p : Nat × Nat × Nat) (s : State) : State :=
  let (site, bank, row) := p
  let loc := bank * 0x400000 + row * 2048
  let b := Tab.getD s.faultMap.remaps site ⟨[], []⟩
  let spareAt (i : Nat) : Nat := site * 2 ^ 28 + 0x0C000000 + (bank * 8 + i) * 2048
  match b.entries.find? fun e => e.2.bank == bank && e.2.row == row with
  | some (i, e) =>
    if e.lock then s
    else if e.repeated then
      retireRequest 0xB site loc (putRemap 0xA site loc e.spare { b with entries := Tab.set b.entries i { e with lock := true } } s)
    else
      match b.spare bank with
      | none => retireRequest 0xB site loc s
      | some k =>
        putRemap 9 site loc k { b.use bank k with entries := Tab.set b.entries i { e with spare := k, repeated := true } }
          (noteRemap site (copyRow (s.phys site loc) (spareAt k) s))
  | none =>
    match b.freeEntry, b.spare bank with
    | some i, some k =>
      putRemap 8 site loc k
        { b.use bank k with entries := Tab.set b.entries i { repeated := false, lock := false, spare := k, bank := bank, row := row } }
        (noteRemap site (copyRow (s.phys site loc) (spareAt k) s))
    | _, _ => retireRequest 0xB site loc s

/-! ## Staged stores -/

/-- The order of R129 and R160: lists of numbers, the first that differs decides. -/
def orderLe : List Nat → List Nat → Bool
  | [], _ => true
  | _ :: _, [] => false
  | a :: l, b :: m => decide (a < b) || (a == b && orderLe l m)

/-- Staged stores in the order write-back applies them. -/
def stagedOrder (l : List Staged) : List Staged := l.insertionSort fun a b => orderLe a.order b.order = true

/-- Writes one staged line: the bytes it gives, and the codes of the words it reaches (R161). -/
def putStaged (w : Staged) (s : State) : State :=
  let a := s.phys w.site w.line
  let touched := (List.range 8).filter fun i => w.poison || w.data.any fun e => e.1 / 8 == i
  touched.foldl (fun t i => t.setWord (a / 8 + i) (if w.poison then .poison else .clean))
    { s with dram := w.data.foldl (fun m e => Mem.set m (a + e.1) e.2) s.dram }

/-- A staged line found wrong at write-back is written poisoned and logged STAGE_POISON (R280). -/
def stagePoison (p : Nat × Nat) (s : State) : State :=
  logFault { dramRec s 0x12 3 p.1 p.2 with unit := 6 } (s.setLine (s.phys p.1 p.2 / 8) .poison)

/-- Lines whose last store carries poison, by site and line. -/
def poisonedLines (l : List Staged) : List (Nat × Nat) :=
  let last := l.foldl (fun (m : List (Nat × Nat × Bool)) w =>
    (w.site, w.line, w.poison) :: m.filter (fun x => !(x.1 == w.site && x.2.1 == w.line))) []
  (last.filter fun x => x.2.2).map fun x => (x.1, x.2.1)

/-! ## Scrub rewrites (R285, R286) -/

/-- The words of a line that a read finds wrong. -/
def State.wrongWords (s : State) (site line : Nat) : List Nat :=
  (List.range 8).filter fun i => match s.metAt site (line + 8 * i) with | .corrupt => true | .uncorrectable => true | _ => false

/-- The words found wrong in a line that is about to be rewritten, by a scrub rewrite or by the store that replaces it, await their
reread. -/
def awaitReread (site line : Nat) (s : State) : State :=
  let a := s.phys site line / 8
  (s.wrongWords site line).foldl
    (fun (t : State) i => { t with rereads := Tab.set t.rereads (a + i) (decide (s.metAt site (line + 8 * i) = .uncorrectable)) }) s

/-- A rewrite of a line: corrected words become clean, a line that cannot be corrected is written poisoned. -/
def rewriteLine (p : Nat × Nat × Bool) (s : State) : State :=
  let a := s.phys p.1 p.2.1 / 8
  if p.2.2 then s.setLine a .poison else (s.wrongWords p.1 p.2.1).foldl (fun t i => t.setWord (a + i) .clean) s

/-! ## The portions of MEM_WRITE (R391) -/

/-- The staged lines of a run of bytes written through a mailbox. -/
def mailStaged (s : State) (order addr : Nat) (bytes : List Byte) : List Staged :=
  (List.range (bytes.length / 64)).filterMap fun i =>
    (s.devLoc (addr + 64 * i)).map fun x =>
      { site := x.2.1, line := x.2.2, data := (List.range 64).map fun k => (k, bytes.getD (64 * i + k) 0), poison := false,
        order := [0, order], append := false }

/-- Some line of a run of bytes lies in a slice that cannot be reached. -/
def runGone (s : State) (addr n : Nat) : Bool :=
  (List.range (n / 64)).any fun i => match s.devLoc (addr + 64 * i) with | some x => s.sliceGone x.2.1 | none => true

/-- The portions of a commit: staged lines, what is left of each MEM_WRITE for the next tick, the bytes each mailbox's portion
gives, and the mailboxes whose target has become unreachable. -/
structure Portions where
  staged : List Staged
  left : List Change
  bytes : List (Nat × Nat)
  gone : List Nat
deriving DecidableEq, Repr

/-- MEM_WRITE changes of the tick, in their order among the changes of the tick (R129, R391). -/
def memPortions (s : State) (l : List Change) : Portions :=
  (s.portions l).foldl
    (fun a p =>
      let n := p.size
      if runGone s p.addr (max n 64) then { a with gone := p.mb :: a.gone }
      else { staged := a.staged ++ mailStaged s p.order p.addr (p.bytes.take n), bytes := a.bytes ++ [(p.mb, n)], gone := a.gone,
             left := if n < p.bytes.length then a.left ++ [.memWrite p.mb (p.addr + n) (p.bytes.drop n)] else a.left })
    ⟨[], [], [], []⟩

/-! ## Ring indices (R276) -/

/-- The consumer index of a ring: its first entry neither acknowledged nor dropped. -/
def Ring.consumer (r : Ring) : Nat := match r.unacked with | [] => r.next | e :: _ => e.index

/-- Writes the consumer index of each ring at its CONS_ADDR, of a suspended plan too. -/
def writeCons (s : State) : State :=
  s.plans.foldl
    (fun t e => e.2.rings.foldl
      (fun t sec =>
        match Tab.get t.rings sec.ring with
        | none => t
        | some r =>
          let loc := privLoc t.cfg.globalSteps sec.cons
          let a := t.phys (lcSite sec.lcid) loc
          if r.plan ≠ e.1 ∨ r.consumer = r.cons then t
          else
            { t with dram := Mem.write t.dram a (leBytes 8 r.consumer)
                     rings := Tab.set t.rings sec.ring { r with cons := r.consumer } }.setWord (a / 8) .clean) t) s

/-! ## Write-back -/

/-- The write-back of a committed tick: remaps take effect first, then the staged stores in order, then scrub rewrites of lines no
store reached, and the ring indices. Lines of a slice whose controller failed in this commit read as poisoned until they are written
again (R298), and staged lines that the bank stage gives wrong are written poisoned (R280). -/
def writeBack (mail : List Staged) (s : State) : State :=
  let l := stagedOrder (mail ++ s.work.staged)
  let (lost, l) := l.partition fun w => s.work.unwritten.contains w.site
  let wrong := s.work.stageErrs.eraseDups.filter fun p => l.any fun w => w.site == p.1 && w.line == p.2
  let (lostRw, rw) := s.work.rewrites.partition fun r => s.work.unwritten.contains r.1
  let t := s.work.remaps.foldl (fun t p => remapOne p t) s
  let t := rw.foldl (fun t r => awaitReread r.1 r.2.1 t) t
  let t := l.foldl (fun t w => putStaged w t) t
  let t := wrong.foldl (fun t p => stagePoison p t) t
  let rw := rw.filter fun r => !l.any fun w => w.site == r.1 && w.line == r.2.1
  let t := rw.foldl (fun t r => rewriteLine r t) t
  let bad := ((poisonedLines l).filter fun p => !wrong.contains p) ++ wrong ++ (rw.filter fun r => r.2.2).map fun r => (r.1, r.2.1)
  let t := bad.foldl (fun t p => devInc (.poisonWrite (p.1 / 256)) 1 t) t
  writeCons ((lost.map (fun w => (w.site, w.line)) ++ lostRw.map fun r => (r.1, r.2.1)).foldl
    (fun t p => t.setLine (t.phys p.1 p.2 / 8) .poison) t)

end Sys2Proof.Machine
end

