-- ==== Sys2Proof/Machine/Answer.lean ====
section
/-! DEFINITION. Responses: when they are written, LATE, and the quote that a commit forms (R39, R375, R378, R391, R407,
R415). -/

namespace Sys2Proof.Machine

open Sys2Proof

/-! ## Responses -/

/-- The response message as bytes (R378). -/
def Resp.bytes (r : Resp) : List Byte :=
  let body := r.body.flatMap fun w => leBytes 8 w.toNat
  leBytes 2 r.op ++ leBytes 2 body.length ++ leBytes 1 r.status.code
    ++ leBytes 1 ((if r.stateful then 1 else 0) + (if r.host then 2 else 0)) ++ leBytes 2 r.detail ++ leBytes 4 r.seq.toNat
    ++ [0, 0, 0, 0] ++ leBytes 8 r.tick ++ leBytes 4 r.progress ++ [0, 0, 0, 0] ++ body

/-- A response is written: DONE is set, LAST_STATUS takes STATUS, BUSY clears and the done vector is sent (R375). -/
def respond (mb : Nat) (r : Resp) (s : State) : State :=
  let m := s.mbAt mb
  let t := s.setMb mb { m with
    done := true, lastStatus := BitVec.ofNat 8 r.status.code, busy := false, served := false, resp := some r }
  if m.doneIrq && !s.boot.fetchWait then sendVector m.fn m.doneVector.toNat t else t

/-- A MEM_WRITE of a mailbox has more than its next portion left. -/
def State.moreToWrite (s : State) (mb : Nat) : Bool :=
  (s.portions s.changes).any fun p => p.mb == mb && decide (p.size < p.bytes.length)

/-- The mailbox waits for a recorded tick that has not started (R226). -/
def State.replayWaits (s : State) (mb : Nat) : Bool :=
  match s.replay with
  | some r => (match r.next with | some x => x.2.1 == mb | none => false)
  | none => false

/-- The boundary where a commit was due passes: the responses due with it are returned with LATE (R39). -/
def lateAnswers (s : State) : State :=
  let due (a : Answer) : Bool := !a.sent && !s.moreToWrite a.mb && !s.replayWaits a.mb
  let t := (s.answers.filter due).foldl
    (fun t a => respond a.mb { a.resp with status := a.resp.status.first .late, tick := s.seqr.tick } t) s
  { t with answers := t.answers.map fun a => if due a then { a with sent := true } else a }

/-- The responses of a commit: those not returned before, with the tick, and with LATE where the tick is late (R47); those of a
MEM_WRITE with portions left wait. -/
def commitAnswers (tick : Nat) (p : Portions) (s : State) : State :=
  let l := s.answers.map fun a =>
    match p.bytes.find? fun x => x.1 == a.mb with
    | some x => { a with resp := { a.resp with progress := a.resp.progress + x.2 } }
    | none => if p.gone.contains a.mb then { a with resp := { a.resp with status := .unavail } } else a
  let waits (a : Answer) : Bool := s.replayWaits a.mb || p.left.any fun c => match c with | .memWrite m _ _ => m == a.mb | _ => false
  let status (a : Answer) : Status := if s.seqr.late then a.resp.status.first .late else a.resp.status
  (l.filter fun a => !waits a && !a.sent).foldl (fun t a => respond a.mb { a.resp with status := status a, tick := tick } t)
    { s with answers := l.filter waits }

/-! ## Quotes (R415) -/

/-- The configuration record. -/
def configRecord (s : State) : List Byte :=
  leBytes 4 s.seqr.period ++ leBytes 1 (if s.seqr.external then 1 else 0) ++ leBytes 1 s.cfg.globalSteps
    ++ leBytes 1 s.cfg.budget ++ leBytes 1 s.cfg.globalWaves ++ leBytes 2 s.cfg.devAddr.toNat ++ leBytes 1 s.cfg.dims.toNat
    ++ [0] ++ leBytes 4 s.mram.svnFloor ++ s.mram.authorityDigest
    ++ ((List.range 80).flatMap fun q => leBytes 2 (s.quadAt q).sliceRate ++ leBytes 2 (s.quadAt q).streamRate)
    ++ ((List.range 63).flatMap fun i => leBytes 4 (s.ceiling (i + 1)).toNat) ++ List.replicate 20 0

/-- PLANS of a quote: the loaded plans in slot order. -/
def quotePlans (s : State) : List Byte :=
  s.plans.flatMap fun e => leBytes 2 e.1 ++ leBytes 1 (match e.2.st with | .loaded => 0 | .admitted => 1 | .suspended => 2)
    ++ [0, 0, 0, 0, 0] ++ e.2.hash

/-- The quote message as of this commit. -/
def quoteMessage (s : State) (nonce : List Byte) : List Byte :=
  [0x54, 0x5A, 0x2D, 0x51, 0x55, 0x4F, 0x54, 0x31] ++ leBytes 8 s.fuses.serial.toNat ++ slice nonce 0 32
    ++ leBytes 8 s.seqr.lastCommitted ++ leBytes 8 s.seqr.time ++ leBytes 8 s.mram.bootCount ++ leBytes 1 s.mram.life.code
    ++ leBytes 1 s.debugLevel ++ leBytes 1 s.power.state.code
    ++ leBytes 1 (bitsOf [decide (s.drain ≠ 0), s.belowGrade, s.replay.isSome, !s.canSign, s.tapOpen])
    ++ leBytes 2 s.plans.length ++ [0, 0] ++ s.hearth.measurement
    ++ shake256 ([0x54, 0x5A, 0x2D, 0x43, 0x46, 0x47] ++ configRecord s) ++ fpDigest s ++ leBytes 4 s.fpGen.toNat ++ [0, 0, 0, 0]
    ++ leBytes 8 (s.linkCount - 1) ++ s.chain
    ++ leBytes 8 s.mram.sealNumber ++ List.replicate 24 0 ++ configRecord s ++ quotePlans s

/-- A quote's answer: the message and its signature in the host buffer, or LIMIT where the buffer is too short or the device
cannot sign (R408, R415). -/
def quoteResp (q : QuoteReq) (signed : Bool) (index : Nat) (data : List Byte) (s : State) : Resp :=
  let short := decide (q.bufLen < data.length)
  { op := 0x0C11, status := if short || !signed then .limit else .ok, stateful := false, host := true, detail := 0, seq := q.seq,
    tick := s.seqr.lastCommitted, progress := 0,
    body := if short then [] else [BitVec.ofNat 64 data.length, BitVec.ofNat 64 index], data := if short then [] else data }

/-- The commit forms the messages of the quotes that wait for it. -/
def commitQuotes (s : State) : State :=
  { s with quotes := s.quotes.map fun q => if q.msg.isNone then { q with msg := some (quoteMessage s q.nonce) } else q }

end Sys2Proof.Machine
end

