-- ==== Sys2Proof/Machine/RingSend.lean ====
section
/-! DEFINITION. Output rings of TLink: what a commit sends (R276, R277). -/

namespace Sys2Proof.Machine

open Sys2Proof

/-! ## Sending (R276) -/

/-- The committed entry of a ring at an index. -/
def ringEntry (s : State) (sec : RingSec) (i : Nat) : List Byte :=
  (List.range (sec.entryBytes / 64)).flatMap fun k =>
    let loc := privLoc s.cfg.globalSteps (sec.base + i % sec.entries * sec.entryBytes + 64 * k)
    s.bytesAt (lcSite sec.lcid) loc 64

/-- An entry that is not sent: LENGTH, reserved bits or reserved bytes are wrong. -/
def entryBad (sec : RingSec) (e : List Byte) : Bool :=
  let n := field e 8 4
  n == 0 || decide (min (sec.entryBytes - 32) 16384 < n) || decide (512 ≤ field e 0 2) || decide (2 ^ 17 ≤ field e 4 4)
    || (slice e 12 20).any fun b => b != 0

/-- Sends the entries of a ring from its next one on, at most 64 unacknowledged; `fuel` bounds the entries looked at. -/
def sendEntries (sec : RingSec) (prod : Nat) : Nat → State → State
  | 0, s => s
  | fuel + 1, s =>
    match Tab.get s.rings sec.ring with
    | none => s
    | some r =>
      if prod ≤ r.next ∨ 64 ≤ r.unacked.length then s
      else
        let e := ringEntry s sec r.next
        if entryBad sec e then
          sendEntries sec prod fuel
            (devInc .tlLost 1 (post (event .tlinkReject (objWord 1 r.plan) [Status.nospt.code])
              { s with rings := Tab.set s.rings sec.ring { r with next := r.next + 1 } }))
        else
          let dest := field e 0 2
          let plan := field e 2 2
          if s.heldAway.contains (holdKey dest plan) then s
          else
            match s.route dest with
            | none => post (event .tlinkUnreachable none [dest]) s
            | some (port, way) =>
              let tag := BitVec.ofNat 16 s.seqr.count
              let n := field e 8 4
              let x : RingEntry :=
                { index := r.next, dest := dest, plan := plan, seq := BitVec.ofNat 32 (field e 4 4), payload := slice e 32 n, tag := tag }
              let pkt : Packet :=
                { destDev := BitVec.ofNat 16 dest, srcDev := s.cfg.devAddr.setWidth 16, route := BitVec.ofNat 8 way, linkSeq := 0,
                  tag := tag, ring := BitVec.ofNat 8 sec.ring, status := 0, plan := BitVec.ofNat 16 plan, seq := x.seq,
                  srcIndex := r.next, payload := x.payload }
              sendEntries sec prod fuel
                (sendOn port 0 pkt { s with rings := Tab.set s.rings sec.ring { r with next := r.next + 1, unacked := r.unacked ++ [x] } })

/-- One ring after a commit: an overrun drops the older unsent entries, is posted, and suspends the plan at the following
commit; then entries are sent. -/
def sendRing (sec : RingSec) (s : State) : State :=
  match Tab.get s.rings sec.ring with
  | none => s
  | some r =>
    let prod := leNat (s.privBytes (lcSite sec.lcid) sec.prod 8)
    let full := decide (r.cons + sec.entries < prod)
    let low := prod - sec.entries
    let t : State :=
      if full then
        let lost := low - r.next
        let t : State := { s with rings := Tab.set s.rings sec.ring { r with next := max r.next low, overrun := true } }
        suspendPlan r.plan 8 (post (event .tlinkRingOverrun (objWord 1 r.plan) []) (if lost = 0 then t else devInc .tlLost lost t))
      else s
    sendEntries sec prod (sec.entries + 1) t

/-- What the I/O die sends after a commit. -/
def ringSend (s : State) : State := s.admitted.foldl (fun t e => e.2.rings.foldl (fun t sec => sendRing sec t) t) s

/-! ## Replies (R277) -/

/-- A reply of this device to a packet: KIND, the packet answered and STATUS. It goes out by the route to its source, or
where it came in when there is none. -/
def replyTo (kind port : Nat) (p : Packet) (st : Status) (s : State) : State :=
  let out := match s.route (p.srcDev.toNat % 512) with | some r => r | none => (port, 0)
  sendOn out.1 kind
    { p with destDev := p.srcDev, srcDev := s.cfg.devAddr.setWidth 16, route := BitVec.ofNat 8 out.2, linkSeq := 0,
             tag := BitVec.ofNat 16 s.seqr.count, status := BitVec.ofNat 8 st.code, payload := [] } s

/-- The home stack of some open sequence of a plan is isolated. -/
def State.homeGone (s : State) (slot : Nat) : Bool :=
  s.seqs.any fun e => e.2.isOpen && e.2.plan == slot && s.stackGone e.2.home

/-- The condition under which a plan's TLink inputs are held has cleared: no home stack of its sequences is isolated, and the plan is
not backpressured (R270, R277). -/
def State.releasable (s : State) (slot : Nat) : Bool :=
  !s.homeGone slot && match s.planAt slot with
    | some p => !(decide (p.st = .admitted) && p.backpressured)
    | none => true

/-- RELEASE to every source told to hold, once the condition has cleared (R45, R277). -/
def sendReleases (s : State) : State :=
  let go := s.tlinkHeld.filter fun h => s.releasable h.2.2
  let t : State := { s with tlinkHeld := s.tlinkHeld.filter fun h => !s.releasable h.2.2 }
  go.foldl
    (fun t h => replyTo 3 0
      { destDev := s.cfg.devAddr.setWidth 16, srcDev := BitVec.ofNat 16 h.1, route := 0, linkSeq := 0, tag := 0,
        ring := BitVec.ofNat 8 h.2.1, status := 0, plan := BitVec.ofNat 16 h.2.2, seq := 0, srcIndex := 0, payload := [] } .ok t) t

end Sys2Proof.Machine
end

