-- ==== Sys2Proof/Machine/Commit.lean ====
section
/-! DEFINITION. The commit of a tick: publish, then write-back, then what follows them (R36-R41, R53, R128, R224, R269-R271,
R306, R380). -/

namespace Sys2Proof.Machine

open Sys2Proof

/-! ## Stacks that go and come back (R269-R271) -/

/-- Marks that the floor plan is to be published at this commit. -/
def floorChange (s : State) : State := { s with seqr := { s.seqr with fpChanged := true } }

/-- HOLD bit STACK of the sequences homed on a stack. -/
def holdHomed (n : Nat) (on : Bool) (s : State) : State :=
  { s with seqs := s.seqs.map fun e =>
      if e.2.isOpen && e.2.home == n then (e.1, { e.2 with hold := if on then e.2.hold ||| 4 else e.2.hold &&& 11 }) else e }

/-- Plans admitted with a unit on a stack are suspended with UNIT_LOST. -/
def suspendOn (n : Nat) (s : State) : State :=
  (s.slotsOf fun _ p => p.onStack n).foldl (fun t i => applySuspend (i, 4) t) s

/-- STATUS 0x01 of a stack isolated since the last commit, its plans suspended and its sequences held. -/
def publishIsolated (s : State) : State :=
  ((List.range 20).filter fun n => decide ((s.stackAt n).status = 0) && (s.stackAt n).isolated.isSome).foldl
    (fun t n => floorChange (holdHomed n true (suspendOn n (t.setStack n { t.stackAt n with status := 1 })))) s

/-- Plans on a stack switched off are suspended, and the sequences homed there held (R339). -/
def publishOff (s : State) : State :=
  ((List.range 20).filter fun n => decide ((s.stackAt n).status = 2) && s.power.actions.any fun c => decide (c = .stackOff n)).foldl
    (fun t n => holdHomed n true (suspendOn n t)) s

/-- A stack whose stages have ended rejoins: STATUS 0x00, and its sequences are released, or its contents are lost (R271). A
stack powered on again, code 29, holds what P4 left (R339, R354). -/
def rejoinStack (n code : Nat) (s : State) : State :=
  let k := s.stackAt n
  let t := floorChange (post (event .stackRejoined (objWord 3 n) [])
    (s.setStack n { k with status := 0, isolated := none, deaf := false, cut := false }))
  let t : State := { t with boot := { t.boot with stk := Tab.del t.boot.stk n } }
  if k.refreshOk || code == 29 then holdHomed n false t
  else loseContents n true (post (event .stackContentsLost (objWord 3 n) []) t)

/-- Stacks whose single-stack start has passed P6 rejoin at this commit. -/
def rejoinStacks (s : State) : State :=
  (s.boot.stk.filter fun e => e.2 % 10 == 9).foldl (fun t e => rejoinStack e.1 e.2 t) s

/-- Quadrants powered up and patrolled join at this commit (R339). -/
def joinQuads (s : State) : State :=
  s.power.joining.foldl
    (fun t q => settleTrim (powerEvent (objWord 5 q) [q]
      { t with power := { t.power with off := t.power.off.filter fun d => d != q } }))
    { s with power := { s.power with joining := [] } }

/-! ## Drains (R306) -/

/-- One drain cause of the tick. -/
def applyDrain (p : Nat × Nat × Bool) (s : State) : State :=
  let r := { faultRec 0x0D 2 (if p.1 = 5 ∨ p.1 = 6 ∨ p.1 = 9 then 0x1F else if p.1 ≤ 2 then p.2.1 / 256 else p.2.1) 0 0x0E 0 with
             flags := if p.2.2 && !s.faultMap.drain.getLsbD p.1 then 6 else 4, detail := p.1, gen := s.fpGen + 1 }
  let e := { event .drain none [p.1, p.2.1] with log := some s.logNext }
  floorChange (logFault r (post e { s with
    drain := s.drain ||| (1 <<< p.1)
    faultMap := if p.2.2 then { s.faultMap with drain := s.faultMap.drain ||| (1 <<< p.1) } else s.faultMap
    mapDirty := s.mapDirty || p.2.2 }))

/-- The drain causes raised since the last commit. -/
def applyDrains (s : State) : State := s.drainPend.foldl (fun t p => applyDrain p t) { s with drainPend := [] }

/-! ## Lane widths (R266) -/

/-- A link's map in a stack. -/
def Stack.link (k : Stack) (i : Nat) : LaneMap := match i with | 0 => k.op0 | 1 => k.op1 | _ => k.bundle

/-- Writes a link's map. -/
def Stack.setLink (k : Stack) (i : Nat) (m : LaneMap) : Stack :=
  match i with | 0 => { k with op0 := m } | 1 => { k with op1 := m } | _ => { k with bundle := m }

/-- One link's width drops at this commit: EV_LINK_NARROWED, or EV_LINK_DOWN at width 0 (R266). -/
def narrowLink (n : Nat) (t : State) (p : Nat × Nat) : State :=
  let k := t.stackAt n
  let m := k.link p.1
  if p.2 < m.width then
    assignSlots (post (event (if p.2 = 0 then .linkDown else .linkNarrowed) (objWord 3 n) [p.1, p.2])
      (t.setStack n (k.setLink p.1 { m with width := p.2 })))
  else t

/-- Good lanes of nine, of one direction of a TLink port. -/
def goodOf (bad : BitVec 9) : Nat := ((List.range 9).filter fun i => !bad.getLsbD i).length

/-- Lanes bad in a direction of a port, with those that fail and wait for the spare to be trained. -/
def Port.failing (p : Port) (rx : Bool) : BitVec 9 :=
  p.swaps.foldl (fun m w => if w.1 = rx then m ||| (1 <<< w.2.1) else m) (if rx then p.badRx else p.badTx)

/-- The width that the good lanes of both directions allow a TLink port (R272). -/
def Port.fit (p : Port) : Nat :=
  let good := min (goodOf (p.failing false)) (goodOf (p.failing true))
  if 8 ≤ good then 8 else if 4 ≤ good then 4 else 0

/-- A TLink port whose good lanes no longer carry its width narrows, or goes down. -/
def narrowPort (t : State) (n : Nat) : State :=
  let p := t.portAt n
  let w := p.fit
  if p.up ∧ w < p.width then
    let u := post (event (if w = 0 then .linkDown else .linkNarrowed) (objWord 6 n) [w]) t
    if w = 0 then portDown n u else u.setPort n { p with width := w }
  else t

/-- The widths that drop at a commit (R266, R272). -/
def applyNarrow (s : State) : State :=
  let t := (List.range 20).foldl
    (fun t n => (s.stackAt n).narrow.foldl (narrowLink n) (t.setStack n { t.stackAt n with narrow := [] })) s
  (List.range 6).foldl narrowPort t

/-! ## The parts of a commit -/

/-- Mailbox changes in acceptance order, then register writes in theirs (R380). -/
def publishChanges (s : State) : State :=
  let l := s.tickChanges ++ s.regWrites
  l.foldl (fun t c => applyChange c t) { s with changes := [], regWrites := [], replayChanges := [] }

/-- Sequences that a write through BAR2 changed: GENERATION follows at this commit (R188). -/
def writtenSlots (s : State) : List Nat := s.regWrites.filterMap fun c => match c with | .genBump i => some i | _ => none

/-- The suspensions decided before the commit (R460). -/
def publishSuspends (s : State) : State :=
  s.seqr.suspend.foldl (fun t p => applySuspend p t) { s with seqr := { s.seqr with suspend := [] } }

/-- Admission re-evaluated (R53), with the clocks that this commit sets after its write-back. -/
def reevaluate (s : State) : State := shrink 64 s

/-- A plan has been suspended by this commit: EV_PLAN_SUSPENDED waits to be posted (R40, R460). -/
def State.suspendedSome (s : State) : Bool := s.devEvents.any fun e => decide (e.ev = .planSuspended)

/-- The journal records consumed by the tick: freed, or kept for the host where the plan retains them (R46); a replay
tick consumes what it was supplied (R226). -/
def consumeJournal (tick : Nat) (s : State) : State :=
  let used := s.work.inputs.flatMap fun e => if s.seqr.leftOut.contains e.1 then [] else e.2.map fun r => (e.1, r.index)
  let has (r : JRec) : Bool := !s.replaying && used.any fun u => u.2 == r.index
  let keep (r : JRec) : Bool := match s.planAt r.plan with | some p => p.retain | none => false
  { s with
    journal := s.journal.filterMap fun r => if has r then (if keep r then some { r with consumedBy := some tick } else none) else some r
    plans := s.plans.map fun e =>
      (e.1, { e.2 with consume := (used.filter fun u => u.1 == e.1 && !s.replaying).foldl (fun m u => max m (u.2 + 1)) e.2.consume }) }

/-- EV_POISON_CONSUMED, once per core (R90). -/
def poisonEvents (s : State) : State :=
  s.cores.foldl
    (fun t e => if e.2.ate = 0 ∨ s.seqr.leftOut.contains e.2.slot then t
      else post (event .poisonConsumed (objWord 1 e.2.slot) [e.2.ate]) t) s

/-- Events of the tick and of the device's own logic, in order, as this commit posts them. -/
def postEvents (tick : Nat) (s : State) : State :=
  postAll (s.work.events ++ s.devEvents) tick { s with devEvents := [] }

/-- The patrol group run before the tick passed in it; units of the domains that were down wait (R295, R296). -/
def notePatrol (pre : State) (tick : Nat) (s : State) : State :=
  let g := s.seqr.patrol.toNat
  let down := pre.patrolsDown
  let kept := s.lastPass.held.filter fun e => e.1 / 128 != g || down.contains (e.1 % 128)
  let new := (down.filter fun d => (Tab.get kept (128 * g + d)).isNone).map fun d => (128 * g + d, Tab.getD s.lastPass.last g 0)
  { s with lastPass := { s.lastPass with last := Tab.set s.lastPass.last g tick, held := kept ++ new } }

/-- Recovery time of a tick that needed more than one attempt, or whose commit was repeated (R304, R315). -/
def noteRecovery (s : State) : State :=
  if 1 < s.seqr.attempt ∨ s.seqr.phase = .repeatCommit then
    { s with seqr := { s.seqr with maxRecovery := max s.seqr.maxRecovery (s.seqr.time - s.seqr.startedNs) } }
  else s

/-- Publish (R37): everything that becomes visible together; `pre` is the state as the tick ran. -/
def publish (pre : State) (p : Portions) (s : State) : State :=
  let tick := pre.seqr.tick
  let t := publishChanges (commitAppends s)
  let t : State := { t with changes := p.left }
  let t := rejoinStacks (publishOff (publishIsolated (publishSuspends t)))
  let t := checkEvidence (reevaluate (commitHeat (applyCooling (applyNarrow (joinQuads t)))))
  let t := applyDrains t
  let t := if t.seqr.fpChanged && t.fpLive then reevaluate (publishFloor tick t) else t
  { t with seqr := { t.seqr with lastCommitted := tick } }

/-- The chain and the stored records of a commit. -/
def commitChain (pre : State) (s : State) : State :=
  let recs := orderRecords (pre.work.records.filter fun r => !pre.seqr.leftOut.contains r.plan)
  let own := pre.cmds.map fun c => { c with
    tick := pre.seqr.tick, link := if pre.replaying then s.linkCount - 1 else s.linkCount, replay := pre.replaying }
  let cmds := match pre.replay with | some r => if r.running.isSome then r.cmds else own | none => own
  let content := contentDigest pre cmds recs
  let l := ledgerOf pre pre.fpGen pre.ledgerPlans s.seqr.fpChanged s.suspendedSome
  let t : State := { s with ledgers := s.ledgers ++ [l], cmdLog := s.cmdLog ++ own, cmds := [] }
  commitEvidence recs content (shake256 l.bytes) (commitLevel t)

/-- EFFECTIVE: the lowest effective crumb budget of the powered stacks, as this commit leaves them (R170, R324). -/
def noteBudget (s : State) : State :=
  let l := (List.range 20).filter fun n => decide ((s.stackAt n).status ≠ 2)
  { s with cfg := { s.cfg with effective := l.foldl (fun m n => min m (s.crumbBudget n)) s.cfg.budget } }

/-- What follows publish: write-back, actions on gating and clocks, the journal, counters, events and responses. -/
def afterPublish (pre : State) (p : Portions) (s : State) : State :=
  let tick := pre.seqr.tick
  let t := runActions (writeBack p.staged s)
  let t := stepMoves (consumeJournal tick t)
  let t := publishTables pre (writtenSlots pre) (freeUnreferenced t)
  let t := commitCounters (poisonEvents (countThrottle (waterMarks t)))
  let t := commitAnswers tick p (capCommit (commitQuotes (postEvents tick t)))
  ringSend (noteBudget (noteRecovery (notePatrol pre tick t)))

/-- An injection ends at the commit of the tick it took effect in (R312). -/
def endInjection (tick : Nat) (s : State) : State :=
  match s.inject with
  | some j => if j.tick < tick then { s with inject := none } else s
  | none => s

/-- The commit of the completed tick at the present boundary. -/
def commitTick (s : State) : State :=
  let p := memPortions s s.tickChanges
  let t := afterPublish s p (commitChain s (publish s p s))
  let t := endInjection s.seqr.tick t
  { t with
    work := Work.empty
    stagedTo := t.logNext
    dbg := { t.dbg with shadows := s.dbg.fresh }
    seqr := { t.seqr with phase := .idle, attempt := 1, boundaries := 0, abandoned := 0, cooling := false, leftOut := [],
                          prevFault := none, curFault := none, prevProg := none, curProg := none, shiftedTo := none,
                          late := false, dueMissed := false, fpChanged := false } }

end Sys2Proof.Machine
end

