-- ==== Sys2Proof/Machine/Boundary.lean ====
section
/-! DEFINITION. Boundaries: their sources, what each takes with it, the overrun, and the start of a tick (R29-R35, R41-R49,
R56, R66, R131, R295, R342, R426). -/

namespace Sys2Proof.Machine

open Sys2Proof

/-! ## Tick tags (R56) -/

/-- The age of a tick tag at a tick counter; none: stale. -/
def tagAge (now : Nat) (tag : BitVec 16) : Option Nat :=
  let d := (BitVec.ofNat 16 now - tag).toNat
  if d ≤ 32767 then some d else if 65534 ≤ d then some 0 else none

/-- The command message in a mailbox. -/
def Mailbox.message (m : Mailbox) : List Byte := Mem.read m.area 0 4032

/-- Commands waiting in mailboxes whose tag has become stale complete with STALEMSG. -/
def staleMessages (s : State) : State :=
  (s.mailboxes.filter fun e => e.2.busy && !e.2.served && (tagAge s.seqr.count (BitVec.ofNat 16 (field e.2.message 6 2))).isNone).foldl
    (fun t e => respond e.1
      { op := field e.2.message 0 2, status := .stalemsg, stateful := false, host := false, detail := 0,
        seq := BitVec.ofNat 32 (field e.2.message 12 4), tick := t.seqr.lastCommitted, progress := 0, body := [], data := [] } t) s

/-- The transfer of a stale flit or frame completes with STALEMSG: a slice transfer waits for it no more, and the destinations of a
network transfer that have not reported are left out. -/
def staleTransfer (f : NetFlit) (s : State) : State :=
  let c : Lcid := BitVec.ofNat 16 f.node.1
  if f.ofFold ∨ f.sys then s
  else
    match s.netOf c f.node.2 with
    | some x => settle c x.id (((List.range x.dests.length).filter fun d => !x.reported.contains d).foldl
        (fun t d => leaveDest c x.id d .stalemsg t) s)
    | none => modXfer c f.node.2 (fun x => { x with away := 0 }) (s.setCore c ((s.core c).foldStatus .stalemsg))

/-- Entries of the device's queues whose tag has become stale are discarded and complete with STALEMSG. -/
def discardStale (s : State) : State :=
  let fresh (t : BitVec 16) : Bool := (tagAge s.seqr.count t).isSome
  let stale := (s.flits.filter fun f => !fresh f.tag) ++ (s.frames.filter fun f => !fresh f.flit.tag).map fun f => f.flit
  let s := stale.foldl (fun t f => staleTransfer f t) s
  staleMessages { s with
    flits := s.flits.filter fun f => fresh f.tag
    frames := s.frames.filter fun f => fresh f.flit.tag
    tlinkOut := s.tlinkOut.filter fun p => fresh p.2.2.tag }

/-! ## Regulators and telemetry -/

/-- Every bucket is refilled to its full size (R131). -/
def refill (s : State) : State :=
  (List.range 80).foldl
    (fun t q =>
      let k := t.quadAt q
      t.setQuad q { k with sliceLevel := bucket k.sliceRate s.seqr.placed, streamLevel := bucket k.streamRate s.seqr.placed }) s

/-- No bucket has run empty yet in the attempt that starts (R131, R133). -/
def clearEmptied (s : State) : State :=
  { s with quads := s.quads.map fun e => (e.1, { e.2 with sliceEmptied := false, streamEmptied := false }) }

/-- Pieces and frames that waited for tokens go on, core by core (R131). -/
def resumeAll (s : State) : State :=
  if s.seqr.phase = .executing then
    s.cores.foldl (fun t e => let c : Lcid := BitVec.ofNat 16 e.1; resumeStream c (resumeSlice c t)) s
  else s

/-- At the boundary after a collection that finds BENCH_LATCH set, the named core is copied into the latch area (R426). -/
def benchLatch (s : State) : State :=
  if s.dbg.benchLatch ∧ s.seqr.phase = .completed then
    { s with dbg := { s.dbg with latch := some (s.core s.dbg.benchLcid), latchTick := s.seqr.tick, benchLatch := false } }
  else s

/-! ## Overrun (R47) -/

/-- The boundary where the tick's commit was due passes without it: LATE, its count, its event and its responses. At each later one
that passes, commands accepted since are answered with LATE too (R39, R47). -/
def overrun (s : State) : State :=
  if s.seqr.dueMissed then lateAnswers s
  else
    let t := if s.seqr.lateEvtEn then post (event .tickLate none []) s else s
    lateAnswers (devInc .late 1 { t with seqr := { t.seqr with late := true, dueMissed := true } })

/-- A check that fires during publish or write-back: the commit waits for the next boundary (R41). -/
def deferCommit (f : FaultSite) (s : State) : State :=
  let e := { event .faultTransient (objWord 3 f.stack) [] with log := some s.logNext, injected := s.injected f }
  let t := devInc .transient 1 (logFault (siteRec f 0 s.seqr.attempt (s.injected f)) (post e (countCheck f s)))
  { t with seqr := { t.seqr with phase := .repeatCommit, commitFault := some f, dueMissed := true } }

/-- Slices that a unit which failed during the commit writes: a slice controller's own, or a bank stage's (R298). -/
def unwrittenBy (f : FaultSite) : List Nat :=
  match f.unit with
  | .sliceCtl => [256 * f.stack + f.site]
  | .bankStage => [256 * f.stack + f.site]
  | _ => []

/-- The same site again on the repeat is lasting: it is acted on, and the commit completes. -/
def lastingCommit (f : FaultSite) (s : State) : State :=
  let inj := s.injected f
  let t := post { event .faultLasting (objWord 3 f.stack) [] with log := some s.logNext, injected := inj } (countCheck f s)
  let t := devInc .lasting 1 (logFault (siteRec f 1 s.seqr.attempt inj) t)
  if inj then t else actLasting f { t with work := { t.work with unwritten := unwrittenBy f } }

/-- The commit of the completed tick, with the staged lines that the bank stages give wrong at its write-back (R280). -/
def commitNow (e : BoundaryEnv) (s : State) : State :=
  commitTick { s with work := { s.work with stageErrs := e.stageErrs }, seqr := { s.seqr with commitFault := none } }

/-- What the boundary does with the tick before it. -/
def settleTick (e : BoundaryEnv) (s : State) : State :=
  match s.seqr.phase with
  | .completed => match e.commitFault with | some f => deferCommit f s | none => commitNow e s
  | .repeatCommit =>
    match e.commitFault with
    | some f => if s.seqr.commitFault = some f then commitNow e (lastingCommit f s) else deferCommit f s
    | none => commitNow e s
  | .executing => overrun { s with seqr := { s.seqr with boundaries := s.seqr.boundaries + 1 } }
  | .rerun => overrun s
  | .stopped => overrun s
  | .idle => s

/-! ## The start of a tick (R35, R44, R66) -/

/-- A tick may start: the device has reached Ready once (R218, R351), and nothing stops it (R41, R301, R326). -/
def State.mayStart (s : State) : Bool :=
  decide (s.boot.st ≠ .halted) && s.boot.readyIndex.isSome && (decide (s.seqr.phase = .idle) || decide (s.seqr.phase = .rerun) || decide (s.seqr.phase = .stopped))
    && decide (s.power.state ≠ .rack) && !s.power.coolantStop && s.seqr.shift.isNone

/-- Records a plan consumes: its oldest eligible ones, or those a replay supplies (R44, R226). -/
def State.toConsume (s : State) (slot : Nat) (p : Plan) : List JRec :=
  match s.replay with
  | some r => if r.running.isSome then r.records.filter fun x => x.plan == slot else []
  | none =>
    (s.journal.filter fun r => r.plan == slot && r.consumedBy.isNone && decide (p.consume ≤ r.index)
      && decide (r.arrival < s.seqr.count)).take p.maxInputs

/-- The window of an entry at the start of the tick: an FSMERGE result's ranges are those of its partial (R238, R239). -/
def openWindow (p : Plan) (c : Lcid) (bench : List Host.Cell) (w : Window) : WinState :=
  let g := p.groups.find? fun g => !g.multicast && g.op == 2 && decide (g.root = c) && g.xfer == w.xfer
  { xfer := w.xfer, base := w.base, len := w.len,
    ranges := match g with
      | some g => if w.foldResult then (partD (Mem.read bench w.base 16)).ranges g.capture else [(w.base, w.len)]
      | none => [(w.base, w.len)]
    fold := w.foldResult, srcs := w.srcs, miss := w.miss, landed := [], conflict := false, complete := false,
    retired := false, status := .ok, missing := [], flags := 0 }

/-- Writes bytes at the start of a tick, with clean lines. -/
def loadBench (b : List Host.Cell × List Nat) (a : Nat) (bytes : List Byte) : List Host.Cell × List Nat :=
  (Mem.write b.1 a bytes, b.2.filter fun l => !(decide (a < 64 * l + 64) && decide (64 * l < a + bytes.length)))

/-- A core at the start of a tick: registers clear, its resident regions in place, the header of its evidence window zero,
its windows open (R66, R68, R210, R239). -/
def startCore (slot : Nat) (p : Plan) (sec : CoreSec) (s : State) : State :=
  let c := sec.lcid
  let k := s.core c
  let b := sec.regions.foldl (fun b r => loadBench b r.base (slice r.bytes 0 r.len)) (k.bench, k.benchPoison)
  let b := match p.evds.find? fun e => decide (e.lcid = c) with
    | some e => loadBench b e.window (List.replicate 64 0)
    | none => b
  let ws := match p.nets.find? fun n => decide (n.lcid = c) with
    | some n => n.windows.map (openWindow p c b.1)
    | none => []
  s.setCore c { CoreCtx.init with
    pc := sec.entry, run := .running, slot := slot, budget := sec.budget, resident := sec.regions.map fun r => (r.base, r.len),
    bench := b.1, benchPoison := b.2, windows := ws }

/-- The crumb units of a section: cleared, with its program (R144, R168). -/
def startCrumbs (sec : CrumbSec) (s : State) : State :=
  ((List.range 48).filter fun b => sec.mask.getLsbD b).foldl
    (fun t b => t.setCrumb ⟨lcSite sec.lcid, b⟩ { CrumbUnit.init with prog := sec.prog }) s

/-- A core whose first fetch faults stops at once (R65). -/
def checkEntry (c : Lcid) (s : State) : State :=
  match (s.core c).fetchTrap with
  | some cause => if (s.core c).run = .running then coreFault c cause s else s
  | none => s

/-- Starts the units of the plans that run in this attempt. -/
def startUnits (s : State) : State :=
  let l := s.admitted.filter fun e => !s.seqr.leftOut.contains e.1
  let l := match s.replay with | some r => if r.running.isSome then l else [] | none => l
  let t : State := clearEmptied { stopUnits s with seqr := { s.seqr with runs := l.map Prod.fst } }
  let t := l.foldl (fun t e => e.2.crumbs.foldl (fun t c => startCrumbs c t) (e.2.cores.foldl (fun t c => startCore e.1 e.2 c t) t)) t
  l.foldl (fun t e => e.2.cores.foldl (fun t c => checkEntry c.lcid t) t) t

/-- The line of an injection, as its site and place. -/
def Inject.line (j : Inject) (s : State) : Option (Nat × Nat) := (s.devLoc j.unit).map fun x => (x.2.1, x.2.2 / 64 * 64)

/-- A CRC failure injected on a link: its next frame or packet mismatches once and is sent again, which the link counts (R257, R273). -/
def injectCrc (j : Inject) (s : State) : State :=
  devInc (if j.unit < 128 then .frameReplay (j.unit / 4) else .tlReplay (j.unit - 128)) 1 s

/-- An error, a poisoned line or a CRC failure injected takes effect in the tick after its acceptance (R312). -/
def injectLine (s : State) : State :=
  match s.inject with
  | none => s
  | some j =>
    if j.tick + 1 ≤ s.seqr.tick ∧ s.seqr.attempt = 1 ∧ j.kind ≠ 1 then
      if j.kind = 2 then injectCrc j s else
      match j.line s with
      | none => s
      | some p =>
        let a := s.phys p.1 p.2 / 8
        if j.kind = 3 then { s with words := (List.range 8).foldl (fun w i => Tab.set w (a + i) WordSt.poison) s.words }
        else { s with words := Tab.set s.words a (if j.detail = 0 then WordSt.corrupt else WordSt.uncorrectable), injWords := a :: s.injWords }
    else s

/-- An injected residue mismatch: the unit named faults as the attempt begins, and is handled as one that faults by itself (R312). -/
def injectFault (s : State) : State :=
  match s.injecting with
  | some f => reportFault f s
  | none => s

/-- Starts a tick, or its next attempt, where one may start: the inputs are fixed at its first start, patrol groups advance,
and units begin (R44, R49, R295). -/
def startTick (s : State) : State :=
  if !s.mayStart then s
  else if s.seqr.phase = .idle then
    let t : State := { s with
      replay := s.replay.map fun r => { r with running := r.next, next := none }
      seqr := { s.seqr with phase := .executing, tick := s.seqr.count, attempt := 1, boundaries := 0, abandoned := 0,
                            startedNs := s.seqr.time, patrol := s.seqr.patrol + 1 } }
    let t : State := { t with work := { Work.empty with inputs := t.admitted.map fun e => (e.1, t.toConsume e.1 e.2), remaps := t.work.remaps } }
    injectFault (startUnits (injectLine t))
  else injectFault <| startUnits (flushAll { s with seqr := { s.seqr with phase := .executing, boundaries := 0 } })

/-! ## A boundary -/

/-- The source selected takes effect at a boundary (R31). -/
def takeSource (s : State) : State :=
  match s.seqr.sourcePend with
  | none => s
  | some v => { s with seqr := { s.seqr with external := v, sourcePend := none, awaitEdge := false, flywheelRun := 0 } }

/-- Journal records that a read now finds with a wrong CRC-32C: their payload is delivered poisoned (R280). -/
def spoilJournal (e : BoundaryEnv) (l : List JRec) : List JRec :=
  l.map fun r => if e.badRecords.contains (r.home, r.index) then { r with bad := true } else r

/-- A boundary `dt` ns after the last; `fly` tells one placed internally while SOURCE is EXTERNAL. -/
def takeBoundary (dt : Nat) (fly : Bool) (e : BoundaryEnv) (s : State) : State :=
  let p := s.seqr.period
  let t := takeSource { s with seqr := { s.seqr with
    count := s.seqr.count + 1, time := s.seqr.time + dt, tickOut := s.seqr.tickOut + 1, flywheel := fly } }
  let t := settleTick e (benchLatch t)
  let t : State := { t with seqr := { t.seqr with placed := p }, journal := spoilJournal e t.journal }
  let t := writeTelemetry e t.crumbBudget (trackAll e dt (discardStale (resumeAll (refill (sendReleases (backpressure t))))))
  startTick t

/-- The device takes boundaries: stage P1 has passed, it is not Off and SYSCLK runs (R6, R29, R443). -/
def State.ticking (s : State) : Bool := decide (2 ≤ s.boot.stage) && !s.boot.off && !s.boot.lostClocks.contains .sysclk

/-- The sixteenth flywheel boundary of a run has passed and the loss of the source is due (R31). -/
def State.lossDue (s : State) : Bool := decide (16 ≤ s.seqr.flywheelRun)

/-- INTERNAL_BOUNDARY: one period after the last (R31). -/
def execInternalBoundary (e : BoundaryEnv) (s : State) : Out :=
  when (s.ticking && !s.seqr.external && !s.seqr.awaitEdge && !s.lossDue) s (takeBoundary s.seqr.placed false e s)

/-- TICK_IN_EDGE: a rising edge `dt` ns after the last boundary that stays high for `high` ns. It is taken from 0.98 to 1.02
periods after the last boundary, or up to 2.02 periods when EXTERNAL has just been selected; an earlier one is ignored and
counted (R31, R32, R446). -/
def execTickInEdge (dt high : Nat) (e : BoundaryEnv) (s : State) : Out :=
  let p := s.seqr.placed
  let top := if s.seqr.awaitEdge then 101 * p else 51 * p
  if s.ticking && (s.seqr.external || s.seqr.awaitEdge) && !s.lossDue && decide (16 ≤ high) then
    if 50 * dt < 49 * p then .next (devInc .earlyEdge 1 s)
    else if 50 * dt ≤ top then
      .next (takeBoundary dt false e { s with seqr := { s.seqr with flywheelRun := 0 } })
    else skip s
  else skip s

/-- FLYWHEEL_BOUNDARY: no edge has come by 1.02 periods, or 2.02 after a selection, which counts as 16 edges missed (R31,
R32). -/
def execFlywheelBoundary (e : BoundaryEnv) (s : State) : Out :=
  let p := s.seqr.placed
  if s.ticking && (s.seqr.external || s.seqr.awaitEdge) && !s.lossDue then
    let t := devInc .missedEdge 1 s
    if s.seqr.awaitEdge then
      .next (takeBoundary (101 * p / 50) true e { t with seqr := { t.seqr with sourcePend := none, awaitEdge := false, flywheelRun := 16 } })
    else
      let t := if s.seqr.flywheelRun = 0 then post (event .tickEdgeMissed none []) t else t
      .next (takeBoundary (51 * p / 50) true e { t with seqr := { t.seqr with flywheelRun := s.seqr.flywheelRun + 1 } })
  else skip s

/-- TICK_SOURCE_LOST: the source returns to INTERNAL after 16 flywheel boundaries (R31, R32). -/
def execTickSourceLost (s : State) : Out :=
  when s.lossDue s (post (event .tickSourceLost none [])
    { s with seqr := { s.seqr with sourceLost := true, external := false, awaitEdge := false, sourcePend := none, flywheelRun := 0 } })

end Sys2Proof.Machine
end

