-- ==== Sys2Proof/Machine/Links.lean ====
section
/-! DEFINITION. Links of the stacks: lane maps, failing lanes, the laser, resets and clocks (R255, R256, R265-R269). -/

namespace Sys2Proof.Machine

open Sys2Proof

/-! ## Lane maps (R255, R256, R272) -/

/-- Lanes of a mask that are bad, of `n`. -/
def badCount (n : Nat) (m : Nat) : Nat := ((List.range n).filter fun i => m.testBit i).length

/-- The largest legal width for a count of good lanes; 0: down. -/
def legalWidth (widths : List Nat) (good : Nat) : Nat := (widths.filter fun w => decide (w ≤ good)).foldl max 0

/-- Legal widths of a stack's links. -/
def linkWidths (link : Nat) : List Nat := if link < 2 then [32, 24, 16, 8] else [32, 16, 8]

/-- Good lanes of a map: the fewer of its two directions. -/
def LaneMap.good (m : LaneMap) : Nat := min (34 - badCount 34 m.badTx.toNat) (34 - badCount 34 m.badRx.toNat)

/-- The width a map gives a link. -/
def LaneMap.fit (m : LaneMap) (link : Nat) : Nat := legalWidth (linkWidths link) m.good

/-- A lane is bad in a map. -/
def LaneMap.isBad (m : LaneMap) (rx : Bool) (lane : Nat) : Bool := if rx then m.badRx.getLsbD lane else m.badTx.getLsbD lane

/-- Marks a lane bad; the map has changed. -/
def LaneMap.mark (m : LaneMap) (rx : Bool) (lane : Nat) : LaneMap :=
  if rx then { m with badRx := m.badRx ||| (1 <<< lane), gen := m.gen + 1 } else { m with badTx := m.badTx ||| (1 <<< lane), gen := m.gen + 1 }

/-- Good lanes of one direction, in increasing index. -/
def LaneMap.lanes (m : LaneMap) (rx : Bool) : List Nat := (List.range 34).filter fun i => !m.isBad rx i

/-- The stack is powered and the I/O die talks with it: also while it is brought up. -/
def State.stackUp (s : State) (n : Nat) : Bool := decide ((s.stackAt n).status ≠ 2) || (Tab.get s.boot.stk n).isSome

/-! ## The fault map as MRAM takes it (R308, R358) -/

/-- Lane maps with a bad lane, as the fault map keeps them. -/
def State.laneMaps (s : State) : Tab (BitVec 34 × BitVec 34) :=
  (List.range 60).filterMap fun i =>
    let k := s.stackAt (i / 3)
    let m : LaneMap := match i % 3 with | 0 => k.op0 | 1 => k.op1 | _ => k.bundle
    if m.badTx = 0 ∧ m.badRx = 0 then none else some (i, (m.badTx, m.badRx))

/-- The fault map as MRAM takes it: without what failed for this boot only (R358). -/
def State.lastingMap (s : State) : FaultMap :=
  let boot (u : SiteUnit) (stack site ix : Nat) : Bool :=
    s.boot.badUnits.any fun f => decide (f.unit = u) && f.stack == stack && f.site == site && f.index == ix
  { s.faultMap with
    crumbs := s.faultMap.crumbs.filter fun p => !boot .crumb (p.1 / 256) (p.1 % 256) p.2
    slices := s.faultMap.slices.filter fun n => !s.boot.badUnits.any fun f =>
      decide (f.unit = .sliceCtl) && 256 * f.stack + f.site == n
    engines := s.faultMap.engines.filter fun p => !s.boot.badUnits.any fun f =>
      (decide (f.unit = .engine) && f.stack == p.1 && f.index == p.2) || (decide (f.unit = .ge) && f.stack == p.1 && p.2 == 8)
    lanes := s.laneMaps }

/-! ## Failing lanes (R266) -/

/-- A link of a stack that will be down: the bundle isolates the stack, and so does the second optical port (R269). -/
def linkLost (n link : Nat) (s : State) : State :=
  let k := s.stackAt n
  let gone (i : Nat) : Bool := decide ((k.link i).width = 0) || k.narrow.contains (i, 0)
  if link = 2 then isolate n 3 s
  else if gone 0 && gone 1 then isolate n 4 s else s

/-- A swap under way on one direction of a link: link, rx, the failing lane and the idle lane that trains. -/
def onDirection (link : Nat) (rx : Bool) (w : Nat × Bool × Nat × Nat) : Bool := w.1 == link && w.2.1 == rx

/-- The map of a link with the failing lanes of its swaps counted as bad, which they are once the swaps end. -/
def Stack.settled (k : Stack) (link : Nat) : LaneMap :=
  (k.swaps.filter fun w => w.1 == link).foldl (fun m w => m.mark w.2.1 w.2.2.1) (k.link link)

/-- A failing lane that carries traffic: an idle good lane of its direction, not training for another, is trained in its place, which
LANE_SWAP ends; with none, the lane is marked bad and the width drops at the next commit to what the lanes left allow. -/
def spareLane (n link : Nat) (rx : Bool) (lane : Nat) (s : State) : State :=
  let k := s.stackAt n
  let m := k.link link
  let busy := (k.swaps.filter (onDirection link rx)).map fun w => w.2.2.2
  match ((m.lanes rx).drop m.width).filter fun i => !busy.contains i with
  | i :: _ => s.setStack n { k with swaps := k.swaps ++ [(link, rx, lane, i)] }
  | [] =>
    let k := k.setLink link (m.mark rx lane)
    let w := (k.settled link).fit link
    let t := s.setStack n { k with narrow := k.narrow ++ [(link, w)] }
    if w = 0 then linkLost n link t else t

/-- A failing lane of a stack's link (R266). A lane that is idle itself is only marked bad, and one that trains for another leaves
that one to be spared again. -/
def failLane (l : LaneId) (s : State) : State :=
  let k := s.stackAt l.stack
  let m := k.link l.link
  let mine (w : Nat × Bool × Nat × Nat) : Bool := onDirection l.link l.rx w
  if m.width = 0 ∨ m.isBad l.rx l.lane ∨ k.swaps.any (fun w => mine w && w.2.2.1 == l.lane) then s
  else if ((m.lanes l.rx).drop m.width).contains l.lane then
    let left := k.swaps.filter fun w => mine w && w.2.2.2 == l.lane
    let t := s.setStack l.stack { k.setLink l.link (m.mark l.rx l.lane) with swaps := k.swaps.filter fun w => !(mine w && w.2.2.2 == l.lane) }
    left.foldl (fun t w => spareLane l.stack l.link l.rx w.2.2.1 t) t
  else spareLane l.stack l.link l.rx l.lane s

/-- Marks a lane of a port bad in one direction. -/
def Port.mark (p : Port) (rx : Bool) (lane : Nat) : Port :=
  if rx then { p with badRx := p.badRx ||| (1 <<< lane), gen := p.gen + 1 } else { p with badTx := p.badTx ||| (1 <<< lane), gen := p.gen + 1 }

/-- A lane of a port is bad in a direction. -/
def Port.isBad (p : Port) (rx : Bool) (lane : Nat) : Bool := if rx then p.badRx.getLsbD lane else p.badTx.getLsbD lane

/-- A failing lane of TLink port `l.link` − 3: a spare of its direction is trained in its place, or the lane is marked bad; the width
drops at the next commit (R272). -/
def failPortLane (l : LaneId) (s : State) : State :=
  let n := l.link - 3
  let p := s.portAt n
  let idle := ((List.range 9).filter fun i => !p.isBad l.rx i).drop p.width
  let busy := (p.swaps.filter fun w => w.1 == l.rx).map fun w => w.2.2
  if !p.up ∨ p.isBad l.rx l.lane ∨ p.swaps.any (fun w => w.1 == l.rx && w.2.1 == l.lane) then s
  else if idle.contains l.lane then
    s.setPort n { p.mark l.rx l.lane with swaps := p.swaps.filter fun w => !(w.1 == l.rx && w.2.2 == l.lane) }
  else
    match idle.filter fun i => !busy.contains i with
    | i :: _ => s.setPort n { p with swaps := p.swaps ++ [(l.rx, l.lane, i)] }
    | [] => s.setPort n (p.mark l.rx l.lane)

/-- LANE_MARGIN_SAMPLE: the sample of a lane, with its replays in 10 ms and whether its margin is below the trained floor
(R266). -/
def execLaneMarginSample (l : LaneId) (replays : Nat) (failing : Bool) (s : State) : Out :=
  unit (validLane l) <|
    if failing ∨ 16 < replays then
      if 3 ≤ l.link then .next (failPortLane l s) else when (s.stackUp l.stack) s (failLane l s)
    else skip s

/-- LANE_SWAP: a failing lane's traffic has gone to the idle lane trained for it (R266). -/
def execLaneSwap (l : LaneId) (s : State) : Out :=
  unit (validLane l) <|
    if 3 ≤ l.link then
      let n := l.link - 3
      let p := s.portAt n
      let mine (w : Bool × Nat × Nat) : Bool := w.1 == l.rx && w.2.1 == l.lane
      when (p.swaps.any mine) s
        (post (event .laneSpared (objWord 6 n) [l.lane])
          (s.setPort n { p.mark l.rx l.lane with swaps := p.swaps.filter fun w => !mine w }))
    else
      let k := s.stackAt l.stack
      let mine (w : Nat × Bool × Nat × Nat) : Bool := onDirection l.link l.rx w && w.2.2.1 == l.lane
      when (k.swaps.any mine) s
        (devInc (.laneSwap l.stack) 1 (post (event .laneSpared (objWord 3 l.stack) [l.link, l.lane])
          (s.setStack l.stack
            { k.setLink l.link ((k.link l.link).mark l.rx l.lane) with swaps := k.swaps.filter fun w => !mine w })))

/-! ## The laser (R268) -/

/-- Every optical port of a stack is down. -/
def darken (n : Nat) (s : State) : State :=
  let k := s.stackAt n
  let t := s.setStack n { k with op0 := { k.op0 with width := 0 }, op1 := { k.op1 with width := 0 },
                                 narrow := k.narrow.filter fun p => p.1 == 2 }
  isolate n 4 (post (event .linkDown (objWord 3 n) [1, 0]) (post (event .linkDown (objWord 3 n) [0, 0]) t))

/-- LASER_LOSS: the hub switches to the idle laser die; with neither working every optical port is down and the device
drains. -/
def execLaserLoss (s : State) : Out :=
  if s.pins.laserSpareOk then
    let r := { faultRec 0x0F 2 0x1F 0 0x0D s.pins.laserActive with detail := 1 - s.pins.laserActive }
    .next (logFault r (post { event .laserSwitch none [] with log := some s.logNext }
      { s with pins := { s.pins with laserActive := 1 - s.pins.laserActive, laserSpareOk := false } }))
  else if s.drain.getLsbD 6 ∨ s.drainPend.any (fun p => p.1 == 6) then skip s
  else
    .next (raiseDrain 6 s.pins.laserActive
      (((List.range 20).filter fun n => s.stackUp n).foldl (fun t n => darken n t) s))

/-! ## Stack resets and clocks (R267, R269) -/

/-- BUNDLE_FRAME_TIMEOUT: no frame for 2 µs, from a lost clock or a dead logic die; a stack isolated already stays isolated, and
is unclocked too (R271). -/
def execBundleFrameTimeout (n : Nat) (s : State) : Out :=
  unit (validStack n) <| when (s.stackUp n && !(s.stackAt n).inReset) s
    (let t := isolate n 1 s; t.setStack n { t.stackAt n with inReset := true })

/-- IO_DIE_FRAME_TIMEOUT: the stack stops its units and refuses traffic from off the stack until it rejoins. -/
def execIoDieFrameTimeout (n : Nat) (s : State) : Out :=
  unit (validStack n) <| when (s.stackUp n) s
    { s.setStack n { s.stackAt n with deaf := true } with
      cores := s.cores.map fun e => (e.1, if e.1 / 256 = n ∧ e.2.run ≠ .idle then { e.2 with run := .stopped 0 } else e.2)
      crumbUnits := s.crumbUnits.map fun e => (e.1, if e.1 / 12288 = n then { e.2 with running := false, waiting := false } else e.2) }

/-- STACK_RESET: asserting the reset isolates the stack. -/
def execStackReset (n : Nat) (s : State) : Out :=
  unit (validStack n) <| when (s.stackUp n) s
    (let t := isolate n 2 s; t.setStack n { t.stackAt n with inReset := true })

/-- A record of one lane of a map (R267); link, direction and whether the map is the stack's own are the model's DETAIL (DESIGN
CHOICE, log 104). -/
def laneRec (n link : Nat) (own : Bool) (gen : W32) (lane : Nat × Bool) : FaultRec :=
  { faultRec 0x0E 3 n 0 (if link = 2 then 0x0B else 0x0A) lane.1 with
    detail := link + (if lane.2 then 4 else 0) + if own then 8 else 0, gen := gen }

/-- The bad lanes of two masks, and whether of RX. -/
def badLanes (tx rx : BitVec 34) : List (Nat × Bool) :=
  ((List.range 34).filter fun i => tx.getLsbD i).map (fun i => (i, false)) ++ ((List.range 34).filter fun i => rx.getLsbD i).map fun i => (i, true)

/-- Records of a map: one a bad lane, or one that counts none. -/
def logMap (n link : Nat) (own : Bool) (gen : W32) (flags : Nat) (tx rx : BitVec 34) (s : State) : State :=
  match badLanes tx rx with
  | [] => logFault { laneRec n link own gen (0, false) with flags := flags, count := 0 } s
  | l => l.foldl (fun t x => logFault { laneRec n link own gen x with flags := flags } t) s

/-- A page-table or lane-map generation is newer than another, in serial numbers (R57). -/
def newerGen (a b : W32) : Bool := decide (a - b ≠ 0) && decide ((a - b).toNat < 2 ^ 31)

/-- One link after a retest by the stack: the reference mask takes the stack's result, and the width never grows; the stack adopts
the newer map (R57, R267). -/
def retestLink (n : Nat) (r : List LinkResult) (s : State) (link : Nat) : State :=
  let k := s.stackAt n
  let m := k.link link
  let own : LinkResult := (r.find? fun x => x.stack == n && x.link == link).getD ⟨n, link, 0, 0⟩
  let tx := m.badTx ||| own.badTx
  let rx := m.badRx ||| own.badRx
  let changed := decide (tx ≠ m.badTx) || decide (rx ≠ m.badRx)
  let m' : LaneMap := { badTx := tx, badRx := rx, width := m.width, gen := if changed then m.gen + 1 else m.gen }
  let m' := { m' with width := min m.width (m'.fit link) }
  let t := s.setStack n (k.setLink link (if newerGen m'.gen m.gen then m' else m))
  let t := logMap n link true m'.gen (if changed then 2 else 0) own.badTx own.badRx (logMap n link false m.gen 0 m.badTx m.badRx t)
  let t := if m'.width < m.width then post (event (if m'.width = 0 then .linkDown else .linkNarrowed) (objWord 3 n) [link, m'.width]) t else t
  if link = 2 ∧ m'.width = 0 then raiseDrain 7 n t else t

/-- The retest of a stack's three links (R267). -/
def retest (n : Nat) (r : List LinkResult) (s : State) : State :=
  let k := s.stackAt n
  assignSlots (resetFseqs n ([0, 1, 2].foldl (retestLink n r) (s.setStack n { k with swaps := [], narrow := [] })))

/-- STACK_RESET_RELEASE: the stack leaves reset and retests its link ends; refresh ran throughout (R267, R271). -/
def execStackResetRelease (n : Nat) (r : List LinkResult) (s : State) : Out :=
  unit (validStack n) <| when ((s.stackAt n).inReset && s.stackUp n) s
    (let t := retest n r s; t.setStack n { t.stackAt n with inReset := false })

/-- STACK_CLOCK_REGAINED: refresh stopped with the clock, so the contents are not kept (R267, R271). -/
def execStackClockRegained (n : Nat) (r : List LinkResult) (s : State) : Out :=
  unit (validStack n) <| when ((s.stackAt n).inReset && s.stackUp n) s
    (let t := retest n r s; t.setStack n { t.stackAt n with inReset := false, refreshOk := false })

end Sys2Proof.Machine
end

