-- ==== Sys2Proof/Machine/Thermal.lean ====
section
/-! DEFINITION. Heat and power between commits: sensor samples, the trip and Rack, the sudden stop, coolant, cooling
degraded, power states and domains (R125-R127, R317-R340). -/

namespace Sys2Proof.Machine

open Sys2Proof

/-! ## Readings (R317-R319, R333) -/

/-- A reading outside −40…150 °C fails its sensor. -/
def outOfRange (r : BitVec 16) : Bool := decide (deg r < -640) || decide (2400 < deg r)

/-- Consecutive samples of a sensor with a slope over 2 °C/ms: more than 6.4/16 °C over four samples. -/
def slopeCount (failed : Bool) (hist : List Int) (r : BitVec 16) (n : Nat) : Nat :=
  match hist[3]? with
  | some old => if !failed ∧ 64 < 10 * (deg r - old) then n + 1 else 0
  | none => 0

/-- A quadrant's sensors after a sample. -/
def Therm.sample (t : Therm) (x : SensorTriple) : Therm :=
  let fa := t.aFailed || outOfRange x.a
  let fb := t.bFailed || outOfRange x.b
  let fc := t.cFailed || outOfRange x.c
  let d := (deg x.a - deg x.b).natAbs
  let pair := !fa && !fb
  let apart := if pair && decide (96 < d) then t.apart + 1 else 0
  { t with
    a := x.a, b := x.b, c := x.c, aFailed := fa, bFailed := fb, cFailed := fc
    apart := apart
    close := if pair && decide (d ≤ 64) then t.close + 1 else 0
    split := pair && (t.split || decide (8 ≤ apart))
    slopes := [slopeCount fa t.histA x.a (t.slopes.getD 0 0), slopeCount fb t.histB x.b (t.slopes.getD 1 0),
               slopeCount fc t.histC x.c (t.slopes.getD 2 0)]
    histA := (deg x.a :: t.histA).take 4, histB := (deg x.b :: t.histB).take 4, histC := (deg x.c :: t.histC).take 4 }

/-- L from the quadrant's own pair; none when both its sensors have failed. -/
def Therm.ownL (t : Therm) : Option Int :=
  match t.aFailed, t.bFailed with
  | false, false => some (max (deg t.a) (deg t.b) + if t.split then 48 else 0)
  | true, false => some (deg t.b + 80)
  | false, true => some (deg t.a + 80)
  | true, true => none

/-- The highest of the values present. -/
def highestOf (l : List (Option Int)) : Option Int :=
  match l.filterMap id with | [] => none | a :: r => some (r.foldl max a)

/-- A value raised by a guard. -/
def plusO (x : Option Int) (d : Int) : Option Int := x.map fun v => v + d

/-- The first of two that is there. -/
def orElseO (a b : Option Int) : Option Int := match a with | some v => some v | none => b

/-- L and C of the quadrants of a stack from their sensors (Table: Logic pair states, R319); none where every sensor of the
stack has failed. -/
def protect (ts : List Therm) (q : Nat) : Option Int × Option Int :=
  let own (i : Nat) : Option Int := (ts.getD i Therm.init).ownL
  let crust (i : Nat) : Option Int := if (ts.getD i Therm.init).cFailed then none else some (deg (ts.getD i Therm.init).c)
  let crusts := highestOf ((List.range 4).map crust)
  let l (i : Nat) : Option Int :=
    orElseO (own i) (orElseO (plusO (highestOf [own (i ^^^ 1), own (i ^^^ 2)]) 160)
      (orElseO (plusO (own (3 - i)) 160) (plusO crusts 320)))
  let c := orElseO (crust q) (orElseO (plusO crusts 80) (highestOf ((List.range 4).map l)))
  (l q, c)

/-- At least 2 °C below the upper limit of the band below (R125). -/
def bandCool (band : Nat) (c : Int) : Bool :=
  match band with | 0 => false | 1 => decide (c ≤ 1328) | _ => decide (c ≤ 1488)

/-- What a quadrant's new L and C set: its band, its governor and its crossings (R125, R320, R323). -/
def Therm.settle (t : Therm) (l c : Int) : Therm :=
  let b := max t.band (bandOf c)
  let f := if t.bothFailed then 896 else fraction l c
  { t with
    l := l, cp := c, band := b
    cool := if bandCool b c then t.cool + 1 else 0
    high := decide (1680 < l)
    highC := decide (1520 < c)
    low := t.working.any fun r => decide (r < 160)
    govern := if t.f < f then 1000 * (8960 - 7 * f) / (8960 - 7 * t.f) else 1000
    governed := t.governed || decide (t.f < f) }

/-- Events of a quadrant's sample, each once on entry; a sensor that fails has its own (R318, R320). -/
def senseEvents (q : Nat) (old t : Therm) (s : State) : State :=
  let go (b : Bool) (e : Ev) (s : State) : State := if b then post (event e (objWord 4 q) []) s else s
  go (t.low && !old.low) .tempLow (go (t.highC && !old.highC) .tempHigh (go (t.high && !old.high) .tempHigh
    (go (t.cFailed && !old.cFailed) .sensorFailed (go (t.bFailed && !old.bFailed) .sensorFailed
      (go (t.aFailed && !old.aFailed) .sensorFailed (go (t.split && !old.split) .sensorSplit s))))))

/-- The sample of one stack; in Rest, Dormant and Rack its layers refresh in band 2 where its crust sensors have all failed (R338). -/
def sampleStack (r : List SensorTriple) (s : State) (n : Nat) : State :=
  let old := (List.range 4).map fun i => s.thermAt (4 * n + i)
  let ts := (List.range 4).map fun i => (s.thermAt (4 * n + i)).sample (r.getD (4 * n + i) ⟨0, 0, 0⟩)
  let (k, s) := if (List.range 4).any fun i => (protect ts i).1.isNone then draw s else (0, s)
  let free : Int := (Config.freeNat k % 65536 : Nat) - 32768
  (List.range 4).foldl
    (fun t i =>
      let p := protect ts i
      let x := (ts.getD i Therm.init).settle (p.1.getD free) (p.2.getD free)
      let x := if s.asleep && (ts.all fun y => y.cFailed) then { x with band := 2 } else x
      senseEvents (4 * n + i) (old.getD i Therm.init) x (t.setTherm (4 * n + i) x)) s

/-! ## The trip and Rack (R325-R327) -/

/-- The tick in flight is abandoned uncommitted and runs again later with its attempt number; `cooling` tells a coolant
stop. A commit whose publish has begun goes on (R37, R41). -/
def abandonTick (cooling : Bool) (s : State) : State :=
  match s.seqr.phase with
  | .executing => let t := discard s; { t with seqr := { t.seqr with phase := .stopped, cooling := t.seqr.cooling || cooling } }
  | .completed => let t := discard s; { t with seqr := { t.seqr with phase := .stopped, cooling := t.seqr.cooling || cooling } }
  | _ => s

/-- Quadrant and crumb domains. -/
def coreDomains : List Nat := List.range 100

/-- The device enters Rack: engines off, plans suspended, the shift under way stopped with its mark in MRAM (R325, R326,
R335). `cause` is 0 for a temperature, 1 for VCORE (R440). -/
def enterRack (cause : Nat) (s : State) : State :=
  if s.power.state = .rack ∧ s.pins.thermtrip then s
  else
    let slots := s.admitted.map Prod.fst
    let t := abandonTick false s
    let t := slots.foldl (fun u i => suspendPlan i 9 (leaveOut i u)) t
    let day := 86400000000000
    let trips := if cause = 0 then s.seqr.time :: s.power.trips.filter (fun x => decide (s.seqr.time < x + day)) else s.power.trips
    let t : State := { t with
      mram := if s.seqr.shift.isSome then { t.mram with map := t.lastingMap } else t.mram
      seqr := { t.seqr with shift := none }
      cores := [], crumbUnits := []
      pins := { t.pins with thermtrip := true, supply := t.pins.supply || decide (cause = 1) }
      power := { t.power with
        state := .rack, entering := none, ungating := [], joining := [], trips := trips, rackAt := t.power.samples, coolSamples := 0
        off := coreDomains ++ t.power.off.filter fun d => decide (100 ≤ d)
        rackLatch := t.power.rackLatch || decide (3 ≤ trips.length) } }
    let t := if cause = 0 then devInc .trip 1 t else t
    postNow (event .thermalTrip none [cause]) (powerEvent none [4] t)

/-- Some reading trips the device (R325). -/
def State.tooHot (s : State) : Bool :=
  (List.range 80).any fun q => decide (1840 ≤ (s.thermAt q).l) || decide (1648 ≤ (s.thermAt q).cp)

/-- In Rack, from 10 ms after entry, a stack at the crust limit has its DRAM switched off and loses its contents (R326). -/
def cutDram (s : State) : State :=
  if s.power.state = .rack ∧ s.power.rackAt + 200 ≤ s.power.samples then
    ((List.range 20).filter fun n =>
      s.stackUp n && !(s.stackAt n).cut && (List.range 4).any fun i => decide (1648 ≤ (s.thermAt (4 * n + i)).cp)).foldl
      (fun t n => loseContents n false (t.setStack n { t.stackAt n with refreshOk := false, cut := true })) s
  else s

/-- Every reading meets the restart condition (R327). -/
def State.coolEnough (s : State) : Bool :=
  (List.range 80).all fun q => decide ((s.thermAt q).l ≤ 1120) && decide ((s.thermAt q).cp ≤ 1040)

/-- Cold hold begins while a working sensor reads below 5 °C, with the warm-up load where it is allowed (R328). -/
def coldCheck (s : State) : State :=
  if (List.range 80).any fun q => (s.thermAt q).working.any fun r => decide (r < 80) then
    { s with power := { s.power with coldHold := true, warmup := s.power.warmupEn } }
  else s

/-- SENSOR_SAMPLE: one sample of the 240 sensors, by quadrant; cold hold applies from P9 on (R328, R355). -/
def execSensorSample (r : List SensorTriple) (s : State) : Out :=
  if r.length = 80 ∧ !s.boot.off then
    let t := (List.range 20).foldl (sampleStack r) { s with power := { s.power with samples := s.power.samples + 1 } }
    let t := if s.boot.readyIndex.isSome then coldCheck t else t
    let t := if t.tooHot && s.ticking then enterRack 0 t else t
    let t := cutDram t
    .next { t with power := { t.power with coolSamples := if t.power.state = .rack && t.coolEnough then t.power.coolSamples + 1 else 0 } }
  else skip s

/-- SENSOR_SPLIT_CLEAR: the pair has been within 4 °C for 20,000 samples. -/
def execSensorSplitClear (q : Nat) (s : State) : Out :=
  unit (validQuad q) <|
    when ((s.thermAt q).split && decide (20000 ≤ (s.thermAt q).close)) s (s.setTherm q { s.thermAt q with split := false, apart := 0 })

/-- REFRESH_BAND_FALL: after 100 ms, 2,000 samples, the band falls one step at the next commit (R125). -/
def execRefreshBandFall (q : Nat) (s : State) : Out :=
  unit (validQuad q) <|
    when (decide (0 < (s.thermAt q).band) && decide (2000 ≤ (s.thermAt q).cool) && !s.regWrites.contains (.bandFall q)) s
      { s with regWrites := s.regWrites ++ [.bandFall q] }

/-- RACK_RESTART: the restart condition has held for 10 s, 200,000 samples, with no sudden stop, no latch and VCORE there; a
cold start that a trip met goes on at P5, or at P2 where a stack has not passed P4 (R327, R361, R362, R441). -/
def execRackRestart (s : State) : Out :=
  if decide (s.power.state = .rack) && decide (200000 ≤ s.power.coolSamples) && !s.power.coolantStop && !s.power.rackLatch
      && decide (s.boot.st ≠ .halted) then
    if !s.power.vcoreOk then .next { s with pins := { s.pins with restartPending := true } }
    else
      let again := s.boot.readyIndex.isNone && decide (s.boot.stage < 5)
      .next { s with
        pins := { s.pins with thermtrip := false, restartPending := false, supply := false }
        power := { s.power with coolSamples := 0 }
        boot := { s.boot with
          stage := if again then 2 else 5, kind := .rackRestart, st := .running, cause := 0, bad := [], badUnits := []
          stk := (List.range 20).filterMap fun n =>
            if s.stackUp n then some (n, if (s.stackAt n).cut then 4 else 5) else none } }
  else skip s

/-! ## The sudden stop (R333, R334) -/

/-- A sensor has had three samples in succession over the slope limit. -/
def State.steep (s : State) : Bool := (List.range 80).any fun q => (s.thermAt q).slopes.any fun n => decide (3 ≤ n)

/-- SUDDEN_STOP: FLOW_FAULT_N held low, or the slope of a sensor (R333, R335). -/
def execSuddenStop (flow : Bool) (s : State) : Out :=
  if s.boot.off || !(if flow then !s.power.flowFault else s.steep && !s.power.coolantStop) then skip s
  else
    let t : State := { s with power := { s.power with flowFault := s.power.flowFault || flow } }
    if !s.ticking || s.power.coolantStop then .next t
    else
      let t := abandonTick true t
      let t : State := { t with power := { t.power with coolantStop := true } }
      .next (postNow (event .coolantStop none []) (devInc .coolantStop 1 t))

/-- SUDDEN_STOP_CLEAR: 100 ms of good flow with no slope trigger: the gates are released, and the device enters cooling
degraded at once (R334). -/
def execSuddenStopClear (s : State) : Out :=
  if s.power.coolantStop then
    let t : State := { s with power := { s.power with coolantStop := false, flowFault := false } }
    .next (enterDegraded (post (event .coolantRestored none []) t))
  else skip s

/-! ## Coolant (R329, R332) -/

/-- COOLANT_REPORT_LOST: no report for 50 ms. -/
def execCoolantReportLost (s : State) : Out :=
  when (!s.power.reportLost && s.ticking) s
    (post (event .coolantReportLost none []) { s with power := { s.power with reportLost := true } })

/-- Some trigger of cooling degraded holds. -/
def State.degradeTrigger (s : State) : Bool :=
  (List.range 80).any (fun q => decide (64 * tempUnit < (s.thermAt q).e)) || decide (s.flowNow < s.power.flowMin) || decide (720 < s.inletNow)

/-- Every trigger is clear. -/
def State.degradeClear (s : State) : Bool :=
  (List.range 80).all (fun q => decide ((s.thermAt q).e < 32 * tempUnit)) && decide (s.power.flowMin ≤ s.flowNow) && decide (s.inletNow ≤ 720)

/-- Puts a change of cooling degraded before the next commit. -/
def coolChange (n : Nat) (s : State) : State := { s with power := { s.power with coolPend := s.power.coolPend ++ [n] } }

/-- COOLING_DEGRADED: a trigger has held for 50 ms. -/
def execCoolingDegraded (s : State) : Out := when (!s.power.degraded && s.degradeTrigger) s (coolChange 0 s)

/-- COOLING_DEGRADED_STEP: a trigger has held through a further 500 ms. -/
def execCoolingDegradedStep (s : State) : Out := when (s.power.degraded && s.degradeTrigger) s (coolChange 1 s)

/-- COOLING_RESTORED: every trigger has been clear for 1 s. -/
def execCoolingRestored (s : State) : Out := when (s.power.degraded && s.degradeClear) s (coolChange 2 s)

/-- A cap whose higher value has been computed at every commit for 100 ms takes the lowest of them. -/
def CapIn.rise (c : CapIn) (time : Nat) : CapIn :=
  match c.since with
  | some (t, v) => if t + 100000000 ≤ time then ⟨v, none⟩ else c
  | none => c

/-- THROTTLE_CAP_RAISE: the higher cap is in force for the next commit (R322). -/
def execThrottleCapRaise (s : State) : Out :=
  .next { s with power := { s.power with thr := s.power.thr.rise s.seqr.time, fc := s.power.fc.rise s.seqr.time } }

/-! ## Power states and domains (R337-R340) -/

/-- The codes of a state entered. -/
def enterState (x : Pwr) (s : State) : State :=
  let high := s.power.off.filter fun d => decide (100 ≤ d)
  let off := match x with
    | .active => high.filter fun d => decide (d < 122)
    | .rest => (List.range 20).map (fun n => 80 + n) ++ s.power.off.filter fun d => decide (d < 80) || decide (100 ≤ d)
    | _ => coreDomains ++ high
  let cleared := decide (x = .active) && decide (s.power.state = .dormant)
  powerEvent none [x.code] { s with
    power := { s.power with state := x, entering := none, off := off }
    cores := if cleared then [] else s.cores
    crumbUnits := if cleared then [] else s.crumbUnits }

/-- POWER_STATE_ENTRY: the entry or exit under way completes; an exit waits for a sudden stop to clear (R335, R337). -/
def execPowerStateEntry (s : State) : Out :=
  match s.power.entering with
  | none => skip s
  | some x => when (!(decide (x = .active) && s.power.coolantStop)) s (enterState x s)

/-- QUADRANT_READY: an ungated quadrant has been cleared and patrolled, and joins at the next commit (R339). -/
def execQuadrantReady (q : Nat) (s : State) : Out :=
  unit (validQuad q) <|
    when (s.power.ungating.contains q) s
      { s with
        power := { s.power with ungating := s.power.ungating.filter (fun d => d != q), joining := s.power.joining ++ [q] }
        cores := s.cores.filter fun e => match s.serving (BitVec.ofNat 16 e.1) with | some n => siteQuad n != q | none => true }

/-! ## DRAM housekeeping (R126, R127) -/

/-- REFRESH: one row of every bank of a slice is refreshed. It takes time and changes no contents. -/
def execRefresh (slice : Nat) (s : State) : Out := unit (validSite slice) (.next s)

/-- DRAM_RETRAIN: a piece of a slice's timing retrain, in the background share. It changes no contents. -/
def execDramRetrain (slice : Nat) (s : State) : Out := unit (validSite slice) (.next s)

end Sys2Proof.Machine
end

