-- ==== Sys2Proof/Machine/Integrity.lean ====
section
/-! DEFINITION. Integrity between commits: patrol scrub, rereads, the field-fault log and map, and the Hearth's watchdog
(R284-R289, R305, R307-R309, R362). -/

namespace Sys2Proof.Machine

open Sys2Proof

/-! ## Patrol scrub (R284, R285) -/

/-- Rows of a bank a scrub visits: the addressable ones and its eight spares. -/
def bankRows : Nat := 2056

/-- Rows of a slice. -/
def sliceRows : Nat := 48 * bankRows

/-- Where the row a slice scrubs next lies: the rows of its banks in order, and after each bank's rows its spares (log 40,
DESIGN CHOICE). A spare lies beyond the banks. -/
def scrubLoc (p : Nat) : Nat :=
  let bank := p / bankRows
  let row := p % bankRows
  if row < 2048 then bank * 0x400000 + row * 2048 else 0x0C000000 + (bank * 8 + (row - 2048)) * 2048

/-- The spare row is in use: its row was read at its own place. -/
def State.spareUsed (s : State) (site loc : Nat) : Bool :=
  match Tab.get s.faultMap.remaps site with
  | none => false
  | some b => (Tab.getD b.used ((loc - 0x0C000000) / 2048 / 8) 0).getLsbD ((loc - 0x0C000000) / 2048 % 8)

/-- The row is passed over: a retired granule, or a spare in use (R293). -/
def State.scrubSkips (s : State) (site loc : Nat) : Bool :=
  if loc < 0x0C000000 then s.granuleRetired site loc else s.spareUsed site loc

/-- An error arises in a word of DRAM. -/
def State.setError (s : State) (w : Nat) (uncorrectable : Bool) : State :=
  { s with words := Tab.set s.words w (if uncorrectable then WordSt.uncorrectable else WordSt.corrupt)
           injWords := s.injWords.filter fun x => x != w }

/-- Notes and queues what one line of the row needs: corrected words are queued corrected, a line that cannot be corrected
poisoned. -/
def scrubLine (site line : Nat) (s : State) : State :=
  let bad := (List.range 8).filterMap fun i =>
    match s.metAt site (line + 8 * i) with
    | .corrupt => some (i, false)
    | .uncorrectable => some (i, true)
    | _ => none
  if bad.isEmpty then s
  else
    let t := bad.foldl
      (fun t p => if p.2 then noteUncorrectable false site (line + 8 * p.1) t else noteCorrected false site (line + 8 * p.1) t) s
    { t with work := { t.work with rewrites := t.work.rewrites ++ [(site, line, bad.any fun p => p.2)] } }

/-- Slices that scrub: those that can be reached. -/
def State.scrubbers (s : State) : List Nat := (List.range 5120).filter fun n => !s.sliceGone n

/-- The end of a device-wide pass. -/
def endPass (s : State) : State :=
  if !s.scrubbers.isEmpty && s.scrubbers.all (fun n => decide (sliceRows ≤ Tab.getD s.scrubbed n 0)) then
    post (event .scrubPass none []) { s with scrubbed := [], scrubPassTick := s.seqr.count }
  else s

/-- PATROL_SCRUB: a slice reads its next row; `errs` are the words that went wrong in it since they were last written. Scrubbing is
background work, which pauses while a tick overruns (R35). A step that finds no row to read still ends a pass that every reachable
slice has ended. -/
def execPatrolScrub (slice : Nat) (errs : List WordError) (s : State) : Out :=
  unit (validSite slice) <|
    let p := Tab.getD s.scrubbed slice 0
    if s.scrubPaused || s.boot.off || s.seqr.late then skip s
    else if s.sliceGone slice || decide (sliceRows ≤ p) then .next (endPass s)
    else
      let loc := scrubLoc p
      let t : State := { s with scrubbed := Tab.set s.scrubbed slice (p + 1) }
      if s.scrubSkips slice loc then .next (endPass t)
      else
        let t := errs.foldl (fun t e => t.setError (t.phys slice (loc + 8 * (e.word % 256)) / 8) e.uncorrectable) t
        let t := (List.range 32).foldl (fun t i => scrubLine slice (loc + 64 * i) t) t
        .next (endPass (devIncP (.scrubBytes (slice / 256)) 2048 t))

/-- SCRUB_PAUSE_EXPIRY: scrubbing resumes after 3,600 s. -/
def execScrubPauseExpiry (s : State) : Out :=
  when (s.scrubPaused && decide (s.scrubPausedAt + 3600000000000 ≤ s.seqr.time)) s { s with scrubPaused := false }

/-- SCRUB_POSITION_SAVE: the position of every slice goes to MRAM. -/
def execScrubPositionSave (s : State) : Out :=
  when (!s.boot.off) s { s with mram := { s.mram with scrubPos := s.scrubbed } }

/-! ## Lasting errors (R286-R289) -/

/-- The site and place of a 64-bit word of DRAM. -/
def wordPlace (w : Nat) : Nat × Nat := (w / 2 ^ 25, w % 2 ^ 25 * 8)

/-- The slice bank and row that a place serves: for a spare, those of the entry that holds it; none for a row that a spare serves. -/
def State.servedRow (s : State) (site loc : Nat) : Option (Nat × Nat) :=
  if loc < 0x0C000000 then
    if s.phys site loc = site * 2 ^ 28 + loc then some (loc / 0x400000, loc % 0x400000 / 2048) else none
  else
    let k := (loc - 0x0C000000) / 2048
    match Tab.get s.faultMap.remaps site with
    | none => none
    | some b => (b.entries.find? fun e => e.2.bank == k / 8 && e.2.spare == k % 8).map fun e => (e.2.bank, e.2.row)

/-- Decides a remap, which the write-back of the tick carries out (R288). -/
def decideRemap (site bank row : Nat) (s : State) : State :=
  if s.work.remaps.contains (site, bank, row) then s
  else { s with work := { s.work with remaps := s.work.remaps ++ [(site, bank, row)] } }

/-- A word found lasting: it is wrong again, counted and logged; its row is remapped for an uncorrectable error, or for two words
(R287). An injected error is lasting in the log only (R312), and one of a retired granule is only counted (R293). -/
def lastingWord (w : Nat) (uncorrectable : Bool) (s : State) : State :=
  let p := wordPlace w
  let inj := s.injWords.contains w
  let r := dramRec s (if uncorrectable then 2 else 1) 1 p.1 p.2
  let t := s.setError w uncorrectable
  let t := devInc (if uncorrectable then .uncorr (p.1 / 256) else if t.layerCorrects p.1 p.2 then .corrLayer (p.1 / 256) else .corrSlice (p.1 / 256)) 1 t
  if t.granuleRetired p.1 p.2 then t else
  let t := logFault { r with flags := if inj then 1 else 0 } t
  if inj then t
  else
    let t : State := { t with lastingWords := w :: t.lastingWords.filter fun x => x != w }
    let two := t.lastingWords.any fun x => x != w && x / 256 == w / 256
    match t.servedRow p.1 p.2 with
    | some (bank, row) => if uncorrectable || two then decideRemap p.1 bank row t else t
    | none => t

/-- REWRITE_REREAD: a word rewritten because of an error is reread; `again` tells that the same bits are wrong, or that a
poisoned line does not show its encoding. -/
def execRewriteReread (word : Nat) (again : Bool) (s : State) : Out :=
  match Tab.get s.rereads word with
  | none => skip s
  | some u =>
    let t : State := { s with rereads := Tab.del s.rereads word }
    .next (if again then lastingWord word u t else { t with injWords := t.injWords.filter fun x => x != word })

/-! ## The log and the map (R291, R308, R309) -/

/-- FAULT_LOG_COPY: records that a commit has staged go to MRAM in order; the ring holds 262,144. -/
def execFaultLogCopy (s : State) : Out :=
  let l := s.mram.log ++ s.staging.filter fun r => decide (r.index < s.stagedTo)
  when (!s.boot.off) s
    { s with
      staging := s.staging.filter fun r => !decide (r.index < s.stagedTo)
      mram := { s.mram with log := l.drop (l.length - 262144) } }

/-- FAULT_MAP_WRITE: a changed fault map goes to MRAM. -/
def execFaultMapWrite (s : State) : Out :=
  when ((s.mapDirty || decide (s.laneMaps ≠ s.mram.map.lanes)) && !s.boot.off) s
    { s with mapDirty := false, mram := { s.mram with map := s.lastingMap } }

/-! ## The Hearth (R305, R307, R362, R400) -/

/-- The device halts at its stage (R350). -/
def halt (cause : Nat) (s : State) : State :=
  { s with boot := { s.boot with st := .halted, cause := cause, fetchWait := false, coldWait := false },
           pins := { s.pins with supply := s.pins.supply || decide (cause = 3) } }

/-- What a cold start keeps: MRAM, fuses, the log's index, what the board drives, and while the device is powered the keys given and the
next EVENT_INDEX (R381, R394); the proof log only where the Hearth failed in the start (R347, R362, R363, R439). -/
def coldState (s : State) : State :=
  let z : State := { State.reset with pending := s.pending, fresh := s.fresh, mram := s.mram, fuses := s.fuses, logNext := s.logNext }
  { z with
    stagedTo := s.logNext
    nextEvent := if s.boot.off then 0 else s.nextEvent
    host := { z.host with keys := if s.boot.off then [] else s.host.keys }
    debugLevel := s.mram.life.level
    power := { z.power with flowFault := s.power.flowFault, vcoreOk := s.power.vcoreOk, inlet := s.power.inlet, flow := s.power.flow,
                            calib := s.mram.calib }
    boot := { z.boot with released := s.boot.released, lostClocks := s.boot.lostClocks, env := s.boot.env }
    pins := { z.pins with sbInlet := s.pins.sbInlet, sbFlow := s.pins.sbFlow, serial := s.pins.serial, i3c := s.pins.i3c,
                          tapIr := s.pins.tapIr, tapData := s.pins.tapData, hostUp := s.pins.hostUp } }

/-- A Hearth failure in P0 to P7 of a cold start: the start begins again at P0 with the proof log kept; a third halts. -/
def hearthFailsInStart (s : State) : State :=
  let n := s.boot.hearthFails + 1
  let t := coldState s
  let t : State := { t with boot := { t.boot with records := s.boot.records, overflow := s.boot.overflow, hearthFails := n } }
  if 3 ≤ n then halt 8 { t with boot := { t.boot with stage := s.boot.stage, last := s.boot.last } } else t

/-- HEARTH_WATCHDOG_EXPIRY: the watchdog expires, or the Hearth's memories have an error that cannot be corrected. -/
def execHearthWatchdogExpiry (s : State) : Out :=
  if s.boot.off || decide (s.boot.st = .halted) || !s.boot.released || !s.hearth.up then skip s
  else if s.boot.readyIndex.isNone && decide (s.boot.stage ≤ 7) then .next (hearthFailsInStart s)
  else .next (hearthRestart s)

end Sys2Proof.Machine
end

