-- ==== Sys2Proof/Machine/Security.lean ====
section
/-! DEFINITION. What the security engine and the firmware do by themselves: seals, quotes, tokens, nonces, staged images and
the handover (R136, R221, R398-R400, R407, R415-R417). -/

namespace Sys2Proof.Machine

open Sys2Proof

/-! ## Signatures (R221, R407, R415) -/

/-- SEAL_SIGNATURE_DONE: the oldest pending seal is signed. -/
def execSealSignatureDone (s : State) : Out := when (decide (0 < s.sealsPending)) s (signSeal s)

/-- The answer of a quote whose buffer the DMA did not reach (R370). -/
def quoteLost (r : Resp) (dmaWr : Bool) : Resp :=
  if dmaWr ∨ r.data.isEmpty then r else { r with status := .unavail, detail := 1, data := [] }

/-- QUOTE_SIGNED: the oldest quote is signed and answered, with no seal pending. A buffer too short is answered unsigned. -/
def execQuoteSigned (s : State) : Out :=
  match s.quotes with
  | [] => skip s
  | q :: rest =>
    match q.msg with
    | none => skip s
    | some m =>
      if s.sealsPending ≠ 0 then skip s
      else
        let s0 : State := { s with quotes := rest }
        let r := if q.bufLen < m.length + 9893 then (List.replicate 9893 (0 : Byte), s.canSign, s0) else sign m s0
        let resp := quoteResp q r.2.1 s.mram.nextIndex (m ++ r.1) r.2.2
        .next (respond q.mb (quoteLost resp q.dmaWr) (devInc .quote 1 r.2.2))

/-! ## Lapses (R398, R416, R417) -/

/-- DEBUG_LEVEL_LAPSE: LIFETIME has passed; the session stays open without DEBUG, and the level falls at the next commit. -/
def execDebugLevelLapse (n : Nat) (s : State) : Out :=
  match Tab.get s.sessions n with
  | none => skip s
  | some x =>
    when (x.dbgLevel.isSome && !x.pendingOpen && decide (x.since + x.lifetime * 1000000000 ≤ s.seqr.time)) s
      (modSession n (fun y => { y with dbgLevel := none, tap := false }) s)

/-- NONCE_EXPIRY: a nonce is void 300 s after it is issued. -/
def execNonceExpiry (fn : Nat) (s : State) : Out :=
  unit (validFn fn) <|
    match Tab.get s.nonces fn with
    | none => skip s
    | some p => when (decide (p.1 + 300000000000 ≤ s.seqr.time)) s { s with nonces := Tab.del s.nonces fn }

/-- FW_STAGING_EXPIRY: a staged image is discarded 10 minutes after it was staged, unless it is being activated. -/
def execFwStagingExpiry (s : State) : Out :=
  match s.hearth.staged with
  | none => skip s
  | some f =>
    when (s.hearth.handover.isNone && decide (f.since + 600000000000 ≤ s.seqr.time)) s
      { s with hearth := { s.hearth with staged := none } }

/-! ## Firmware (R26, R349, R399, R400) -/

/-- Writes an image to row 2 of the reserve of CS7 and CS12, where they are online, in place of the one there. -/
def storeImage (image : List Byte) (s : State) : State :=
  let l := [7, 12].filter fun n => !s.stackGone n
  let at_ := l.map fun n => (n, imageArea (s.badImage n) image.length)
  let t := at_.foldl (fun t e => (clearSites (fun x => x == 256 * e.1 + 47) t).putBytes (256 * e.1 + 47) e.2 image) s
  { t with hearth := { t.hearth with mirrors := l, imageAt := at_.filter fun e => e.2 != 0 } }

/-- A measurement as the four words of a response body. -/
def digestWords (b : List Byte) : List W64 := (List.range 4).map fun i => BitVec.ofNat 64 (field b (8 * i) 8)

/-- FIRMWARE_HANDOVER: after the commit of FW_ACTIVATE the staged image becomes the running one and answers; one that fails
its self-check leaves the device without Zororlon, waiting for an image at P7. -/
def execFirmwareHandover (ok : Bool) (s : State) : Out :=
  match s.hearth.handover, s.hearth.staged with
  | some mb, some f =>
    if s.changes.any fun c => (match c with | .fwActivate _ => true | _ => false) then skip s
    else if ok then
      let t := storeImage f.image s
      let t : State := { t with hearth := { t.hearth with handover := none, staged := none, measurement := f.measurement, svn := f.svn } }
      let t := respond mb
        { op := 0x0E02, status := .ok, stateful := true, host := false, detail := 0,
          seq := BitVec.ofNat 32 (field (s.mbAt mb).message 12 4), tick := s.seqr.lastCommitted, progress := 0,
          body := digestWords f.measurement, data := [] } t
      .next (post (event .fwReplaced none []) (releaseHeld t))
    else
      let t := freeMailbox mb (hearthReset s)
      .next (postNow (event .fwReplaceFailed none [])
        { t with hearth := { t.hearth with staged := none, up := true }, boot := { t.boot with fetchWait := true, st := .waiting, fetchNs := t.seqr.time } })
  | _, _ => skip s

/-! ## Zeroing (R136) -/

/-- ZEROING_DONE: user-visible memory has been zeroed. -/
def execZeroingDone (s : State) : Out := when s.cfg.zeroing s { s with cfg := { s.cfg with zeroing := false } }

end Sys2Proof.Machine
end

