-- ==== Sys2Proof/Machine/Boot.lean ====
section
/-! DEFINITION. Bring-up: the proof stages P0 to P9, their timeouts, and the proof log (R347-R366). -/

namespace Sys2Proof.Machine

open Sys2Proof

/-! ## The proof log (R363-R365) -/

/-- A record of the proof log, unless it is full. -/
def addProof (r : ProofRec) (s : State) : State :=
  if s.boot.records.length < 16383 then { s with boot := { s.boot with records := s.boot.records ++ [r] } }
  else { s with boot := { s.boot with overflow := true } }

/-- The record of a stage that ends for a scope. Its duration runs from the end of the stage before it; before the timestamps
start, in P0 and P1, it is free (log 43). -/
def stageRec (stage scope : Nat) (kind : StartKind) (result cause tested failed : Nat) (detail : List Nat) (s : State) : State :=
  let p := if stage < 2 then (Config.freeNat (draw s).1, (draw s).2) else ((s.seqr.time - s.boot.stageNs) / 1000, s)
  let e := if stage = 0 then 0 else s.seqr.time
  addProof (.stage stage scope kind result cause e p.1 tested failed detail) p.2

/-- A finding. -/
def finding (stage scope : Nat) (kind : StartKind) (unitC site ix source outcome flags detail : Nat) (log : Option Nat) (s : State) :
    State := addProof (.finding stage scope kind unitC site ix source outcome flags detail log) s

/-- A device stage has ended: its record, and the next to run. -/
def endStage (stage next result cause tested failed : Nat) (s : State) : State :=
  let t := stageRec stage 31 s.boot.kind result cause tested failed [] s
  { t with boot := { t.boot with stage := next, last := stage, st := .running, coldWait := false, stageNs := t.seqr.time } }

/-- A device stage fails and the device halts. -/
def failHalt (stage cause : Nat) (s : State) : State :=
  let t := stageRec stage 31 s.boot.kind 2 cause 0 0 [] s
  halt cause { t with boot := { t.boot with last := stage } }

/-- The stages run: PERST_N is released, nothing has halted, and no trip holds the device in Rack. -/
def State.starting (s : State) : Bool :=
  s.boot.released && !s.boot.off && decide (s.boot.st ≠ .halted) && !s.pins.thermtrip

/-- The device stage `n` is the one to run. -/
def State.atStage (s : State) (n : Nat) : Bool := s.starting && s.boot.stage == n

/-- Codes of `boot.stk`: the stage 3 to 6 a stack is to run, plus 10 for a LINK_RETRAIN or 20 for a power-on; 9 when done. -/
def State.stkCode (s : State) (n : Nat) : Nat := Tab.getD s.boot.stk n 0

/-- Sets a stack's code. -/
def setCode (n c : Nat) (s : State) : State := { s with boot := { s.boot with stk := Tab.set s.boot.stk n c } }

/-- A stack runs no more stages. -/
def dropCode (n : Nat) (s : State) : State := { s with boot := { s.boot with stk := Tab.del s.boot.stk n } }

/-- START_KIND of a stack's stages. -/
def stkKind (s : State) (n : Nat) : StartKind :=
  if s.boot.stage < 10 ∧ s.stkCode n < 10 ∧ s.boot.kind ≠ .hearthRestart then s.boot.kind else if 20 ≤ s.stkCode n then .powerOn else .rejoin

/-- Moves the device to its next stage once no stack is still to run the present one. -/
def nextStage (s : State) : State :=
  let left (l : List Nat) : Bool := s.boot.stk.any fun e => l.contains e.2
  let go (n : Nat) : State := endStage s.boot.stage n 0 0 0 0 s
  match s.boot.stage with
  | 4 => if left [4] then s else go 5
  | 5 => if left [4, 5] then s else go 6
  | _ => s

/-! ## PERST_N (R347, R362, R438) -/

/-- PERST_N_RELEASE: a cold start begins at P0. -/
def execPerstNRelease (e : PowerEnv) (s : State) : Out :=
  if s.boot.released then skip s
  else
    let t := coldState s
    .next { t with
      boot := { t.boot with released := true, env := some e, lostClocks := s.boot.lostClocks }
      pins := { t.pins with serial := true } }

/-- PERST_N_ASSERT: the device goes to reset, whatever its stage. -/
def execPerstNAssert (s : State) : Out :=
  let t := coldState s
  .next { t with boot := { t.boot with released := false, env := none } }

/-! ## P0 to P2 -/

/-- STAGE_P0: the boot counter advances and the proof log is cleared, unless the Hearth failed in this start. -/
def execStageP0 (ok : Bool) (s : State) : Out :=
  if s.atStage 0 then
    let t : State := { s with
      mram := { s.mram with bootCount := s.mram.bootCount + 1 }
      boot := if s.boot.hearthFails = 0 then { s.boot with records := [], overflow := false, readyIndex := none } else s.boot }
    .next (if ok then endStage 0 1 0 0 0 0 t else failHalt 0 2 t)
  else skip s

/-- The supplies broke no rule that P1 checks (R438). -/
def powerGood (e : PowerEnv) : Bool := e.railsValid && e.inOrder && decide (95 ≤ e.releaseMs)

/-- A sudden stop already asked for is in force from P1 on (R448). -/
def armStop (s : State) : State :=
  if s.power.flowFault then
    postNow (event .coolantStop none []) (devInc .coolantStop 1 { s with power := { s.power with coolantStop := true } })
  else s

/-- STAGE_P1: rails and clocks are checked, the tick counter and the timestamps start at zero, and the trip is armed. -/
def execStageP1 (r : P1Result) (s : State) : Out :=
  if s.atStage 1 then
    let good := match s.boot.env with | some e => powerGood e | none => false
    if !good ∨ !s.power.vcoreOk then .next (failHalt 1 3 s)
    else if r = .clock ∨ s.boot.lostClocks ≠ [] then .next (failHalt 1 4 s)
    else
      let t := endStage 1 2 0 0 0 0 { s with seqr := Seqr.init, power := { s.power with samples := 0 } }
      .next (armStop { t with boot := { t.boot with startNs := 0, stageNs := 0 }, pins := { t.pins with hostUp := true } })
  else skip s

/-- A row of the floor plan as the fuses give it. -/
def fuseRow (f : Fuses) (key : Nat) : FpRow :=
  let r := f.holes.foldl (fun r n => if n / 16 = key then r.setSite (n % 16) 1 else r) FpRow.init
  if f.badSpares.any fun n => n / 16 == key then r.setSite 15 1 else r

/-- The rows that differ from a row with every site good. -/
def fuseRows (f : Fuses) : Tab FpRow :=
  (List.range 320).filterMap fun k => if fuseRow f k = FpRow.init then none else some (k, fuseRow f k)

/-- The two copies of NEXT_INDEX at a cold start, `bad` those that fail their CRC-32C: one is rewritten from the other, and with both
lost signing stops for good, told once (R406, R408). -/
def readIndex (bad : List Nat) (s : State) : State :=
  if s.mram.copies = (false, false) then { s with signingStopped := true }
  else if bad.contains 0 && bad.contains 1 then
    post (event .signingStopped none [2]) { s with signingStopped := true, mram := { s.mram with copies := (false, false) } }
  else { s with signingStopped := decide (2 ^ 40 ≤ s.mram.nextIndex) }

/-- The fault map with the parts that lie in lost blocks taken as empty (R349). -/
def FaultMap.without (m : FaultMap) (parts : List Nat) : FaultMap :=
  let keep {α : Type} (n : Nat) (l : List α) : List α := if parts.contains n then [] else l
  { failed := keep 0 m.failed
    shifts := keep 1 m.shifts
    crumbs := keep 2 m.crumbs
    slices := keep 3 m.slices
    engines := keep 4 m.engines
    remaps := if parts.contains 5 then [] else m.remaps.map fun e => (e.1, { e.2 with used := keep 6 e.2.used })
    granules := keep 7 m.granules
    lanes := keep 8 m.lanes
    drain := if parts.contains 9 then 0 else m.drain }

/-- STAGE_P2: fuses, fault map and die authentication. -/
def execStageP2 (r : P2Result) (s : State) : Out :=
  if s.atStage 2 then
    if !r.ioFusesOk then .next (failHalt 2 5 s)
    else
      let auth := if s.mram.life = .returned then [] else r.authFail.filter fun n => !r.unread.contains n
      let gone := r.unread ++ auth
      let t := readIndex r.badCopies { s with
        faultMap := s.mram.map.without r.mapLost
        mram := { s.mram with log := s.mram.log.filter fun x => !r.lostRecords.contains x.index
                              skipped := s.mram.skipped + (s.mram.log.filter fun x => r.lostRecords.contains x.index).length }
        rows := fuseRows s.fuses, newRows := fuseRows s.fuses, scrubbed := s.mram.scrubPos
        boot := { s.boot with mapLost := !r.mapLost.isEmpty, dieAuth := auth
                              stk := ((List.range 20).filter fun n => !gone.contains n).map fun n => (n, 3) } }
      let t := r.unread.foldl (fun t n => stageRec 2 n t.boot.kind 2 5 0 0 [] t) t
      let t := auth.foldl (fun t n => finding 2 n t.boot.kind 0x0E 0 0 2 0 0 0x0B none (stageRec 2 n t.boot.kind 2 0x0B 0 0 [] t)) t
      .next (endStage 2 3 (if r.mapLost.isEmpty && gone.isEmpty then 0 else 1) (if r.mapLost.isEmpty then 0 else 10) 0 gone.length t)
  else skip s

/-! ## P3 (R265, R267) -/

/-- A link after full training: its map is the union of the fused map and both ends' results, with generation 1. -/
def trainLink (n : Nat) (r : List LinkResult) (s : State) (link : Nat) : State :=
  let f := Tab.getD s.fuses.lanes n []
  let found := r.find? fun x => x.stack == n && x.link == link
  let tx := f.getD (2 * link) 0 ||| (match found with | some x => x.badTx | none => 0)
  let rx := f.getD (2 * link + 1) 0 ||| (match found with | some x => x.badRx | none => 0)
  let m : LaneMap := { badTx := tx, badRx := rx, width := 0, gen := 1 }
  s.setStack n ((s.stackAt n).setLink link { m with width := m.fit link })

/-- Full training of a stack's three links. -/
def trainStack (n : Nat) (r : List LinkResult) (s : State) : State :=
  resetFseqs n ([0, 1, 2].foldl (trainLink n r) (s.setStack n { s.stackAt n with swaps := [], narrow := [], deaf := false }))

/-- What P3's record counts: lanes bad, links narrowed, links down. -/
def p3Detail (k : Stack) : List Nat :=
  let l := [k.op0, k.op1, k.bundle]
  [l.foldl (fun n m => n + badCount 34 m.badTx.toNat + badCount 34 m.badRx.toNat) 0,
   (l.filter fun m => decide (0 < m.width) && decide (m.width < 32)).length, (l.filter fun m => decide (m.width = 0)).length]

/-- Findings of P3 about a stack's lanes, one for each that is bad, by fuse or by test (R365). -/
def laneFindings (n : Nat) (kind : StartKind) (s : State) : State :=
  (List.range 3).foldl
    (fun t link =>
      let m := (s.stackAt n).link link
      let fused := Tab.getD s.fuses.lanes n []
      [false, true].foldl
        (fun t rx =>
          ((List.range 34).filter fun i => (if rx then m.badRx else m.badTx).getLsbD i).foldl
            (fun t i => finding 3 n kind (if link = 2 then 0x0B else 0x0A) 0 i
              (if (fused.getD (2 * link + bit rx 0) 0).getLsbD i then 0 else 2) 0 0 (link + bit rx 2) none t) t) t) s

/-- The stack's part of P3: what its bundle and ports allow, and the stage it runs next. -/
def p3Stack (r : List LinkResult) (s : State) (e : Nat × Nat) : State :=
  let n := e.1
  let device := s.boot.stage == 3
  if !(e.2 == 3 || e.2 == 13 || e.2 == 23) then s
  else
    let kind := stkKind s n
    let t := laneFindings n kind (if e.2 = 3 ∧ !device then retest n r s else trainStack n r s)
    let k := t.stackAt n
    let d := p3Detail k
    let t := stageRec 3 n kind (if k.bundle.width = 0 then 2 else if d.all (fun x => x == 0) then 0 else 1) 0 3
      ([k.op0, k.op1, k.bundle].filter fun m => decide (m.width = 0)).length d t
    if k.bundle.width = 0 then
      let t := if e.2 = 3 ∧ !device then t else raiseDrain 7 n t
      dropCode n (if e.2 = 13 then t else t.setStack n { t.stackAt n with status := if device ∨ e.2 = 23 then 2 else (t.stackAt n).status })
    else
      let t := if (k.op0.width = 0 ∧ k.op1.width = 0) ∧ e.2 ≠ 13 then isolate n 4 t else t
      if e.2 = 13 then dropCode n t
      else if e.2 = 3 ∧ !device ∧ k.refreshOk then setCode n 5 t
      else setCode n (e.2 + 1) t

/-- A TLink port after training: the union of its fused map and the results (R265), and no width until the peer comes up. -/
def trainPort (r : List LinkResult) (s : State) (p : Nat) : State :=
  let found := r.find? fun x => x.stack == 31 && x.link == p + 3
  let f := Tab.getD s.fuses.portLanes p (0, 0)
  let mask (b : BitVec 9) (g : LinkResult → BitVec 34) : BitVec 9 := b ||| (match found with | some x => (g x).setWidth 9 | none => 0)
  s.setPort p { Port.init with badTx := mask f.1 LinkResult.badTx, badRx := mask f.2 LinkResult.badRx, gen := 1 }

/-- STAGE_P3: links train, or a rejoining stack retests its own ends, for every stack whose stage it is. -/
def execStageP3 (r : List LinkResult) (s : State) : Out :=
  if !s.starting then skip s
  else
    let device := s.boot.stage == 3
    let t := s.boot.stk.foldl (p3Stack r) s
    if device then .next (endStage 3 4 0 0 6 0 (assignSlots ((List.range 6).foldl (trainPort r) t))) else .next (assignSlots t)

/-! ## P4 (R291, R352-R355) -/

/-- Every working crust sensor of a stack reads at least 0 °C. -/
def State.crustWarm (s : State) (n : Nat) : Bool :=
  (List.range 4).all fun i => let t := s.thermAt (4 * n + i); t.cFailed || decide (0 ≤ deg t.c)

/-- A row with lasting words is remapped at once, or stays in service; one of the reserve is then retired (R353, R294). -/
def p4Row (kind : StartKind) (n : Nat) (f : RowFinding) (p : State × Nat × Nat) : State × Nat × Nat :=
  let s := p.1
  let site := 256 * n + f.site % 256
  let before := Tab.getD s.faultMap.remaps site ⟨[], []⟩
  let loc := f.bank % 48 * 0x400000 + f.row % 2048 * 2048
  let t := remapOne (site, f.bank % 48, f.row % 2048) s
  let after := Tab.getD t.faultMap.remaps site ⟨[], []⟩
  let done := decide (after.used ≠ before.used)
  let log := if t.logNext = s.logNext then none else some (t.logNext - 1)
  let t := finding 4 n kind 4 (f.site % 256) (f.bank % 48) 2 (if done then 2 else 3) 0 (f.row % 2048) log t
  let t : State := if !done ∧ site % 16 = 15 then
      { t with faultMap := { t.faultMap with granules := t.faultMap.granules ++ [devAddr t.cfg.globalSteps site loc] } }
    else t
  (t, if done then (p.2.1 + 1, p.2.2) else (p.2.1, p.2.2 + 1))

/-- The memory test of one stack: what it finds, and memory that then reads zero without poison (R352-R354). -/
def p4Stack (n : Nat) (r : P4Result) (s : State) : State :=
  let kind := stkKind s n
  let t := clearSites (fun x => x / 256 == n) s
  let t : State := { t with lostStacks := t.lostStacks.filter fun x => x != n }
  let q := r.rows.foldl (fun p f => p4Row kind n f p) (t, 0, 0)
  let t := clearSites (fun x => x / 256 == n) q.1
  let t := r.transient.foldl (fun t f =>
    logFault (dramRec t 1 0 (256 * n + f.site % 256) (f.bank % 48 * 0x400000 + f.row % 2048 * 2048)) t) t
  let t := r.timingFail.foldl (fun t site =>
    finding 4 n kind 5 (site % 256) 0 2 1 0 0 none
      (raiseBootDrain 1 (256 * n + site % 256) { t with sliceReset := (256 * n + site % 256) :: t.sliceReset })) t
  let bad := r.rows.length + r.timingFail.length
  let t := stageRec 4 n kind (if bad = 0 then 0 else 1) 0 256 r.timingFail.length [q.2.1, q.2.2] t
  { t with boot := { t.boot with remaps := t.boot.remaps + q.2.1 }, mram := { t.mram with map := t.lastingMap }, mapDirty := false }

/-- The stack waits at P4 for its crust sensors (R355). -/
def coldWaits (n : Nat) (s : State) : State :=
  if s.boot.coldWait then s
  else
    let t := stageRec 4 n (stkKind s n) 4 9 0 0 [] s
    { t with boot := { t.boot with coldWait := true, st := if s.boot.stage = 4 then .waiting else s.boot.st } }

/-- STAGE_P4: a stack's DRAM is powered, its remaps loaded, its timing trained and its memory tested. -/
def execStageP4 (scope : Nat) (r : P4Result) (s : State) : Out :=
  unit (validScope scope) <|
    if s.starting && !s.power.coolantStop && s.stkCode scope % 10 == 4 then
      if !s.crustWarm scope then .next (coldWaits scope s)
      else .next (nextStage (setCode scope (s.stkCode scope + 1) (p4Stack scope r s)))
    else skip s

/-- P4_COLD_WAIT_TIMEOUT: a stack other than CS7 and CS12 is left unpowered. -/
def execP4ColdWaitTimeout (n : Nat) (s : State) : Out :=
  unit (validStack n) <|
    when (s.starting && s.boot.stage == 4 && s.stkCode n == 4 && !s.crustWarm n && n != 7 && n != 12) s
      (nextStage (stageRec 4 n s.boot.kind 2 9 0 0 [] (dropCode n s)))

/-! ## P5 (R349, R355, R358) -/

/-- A quadrant may begin its checked self-test: the lower reading of its pair is at least 10 °C, both its sensors have failed,
or it has been tested cold. -/
def State.quadWarm (s : State) (q : Nat) : Bool :=
  (s.thermAt q).bothFailed || decide (160 ≤ lowest (s.thermAt q).logic 160) || s.boot.coldQuads.contains q

/-- Units P5 tests on one stack: 256 cores, 11,520 crumb units, 256 fold units and 9 engines (R295). -/
def p5Units : Nat := 12041

/-- The unit belongs to a core, whose site is bad when it is (R297, R356). -/
def ofCore (u : SiteUnit) : Bool :=
  match u with | .core => true | .bench => true | .lineCache => true | _ => false

/-- STAGE_P5: the self-tests of one stack. What they find goes to P6. -/
def execStageP5 (scope : Nat) (r : P5Result) (s : State) : Out :=
  unit (validScope scope) <|
    if s.starting && !s.power.coolantStop && s.power.vcoreOk && s.stkCode scope % 10 == 5
        && (List.range 4).all (fun i => s.quadWarm (4 * scope + i)) then
      let mine := r.badUnits.filter fun f => f.stack == scope && validFault f
      let cores := (r.badCores.map (fun n => 256 * scope + n % 256)
        ++ (mine.filter fun f => ofCore f.unit).map fun f => 256 * scope + f.site).eraseDups
      let units := mine.filter fun f => !ofCore f.unit
      let n := cores.length + units.length
      let t := stageRec 5 scope (stkKind s scope) (if n = 0 then 0 else 1) 0 p5Units n [] s
      let t : State := { t with
        boot := { t.boot with
          bad := cores ++ t.boot.bad.filter (fun x => x / 256 != scope)
          badUnits := units ++ t.boot.badUnits.filter (fun f => f.stack != scope) }
        dbg := if t.boot.kind = .rackRestart ∧ t.boot.stage = 5 then { t.dbg with shadows := [] } else t.dbg }
      .next (nextStage (setCode scope (s.stkCode scope + 1) t))
    else skip s

/-- P5_COLD_TIMEOUT: a quadrant still below 10 °C is tested anyway, and its findings carry COLD. -/
def execP5ColdTimeout (q : Nat) (s : State) : Out :=
  unit (validQuad q) <|
    when (s.starting && s.stkCode (q / 4) % 10 == 5 && !s.quadWarm q) s
      { s with boot := { s.boot with coldQuads := q :: s.boot.coldQuads } }

/-! ## P6 (R356-R361) -/

/-- What P6 does with a site that its test finds bad (R356, R359): already bad by fuse or map, promoted, or bad this boot. -/
def bootFlag (s : State) (site : Nat) : Nat := if s.boot.coldQuads.contains (siteQuad site) then 1 else 0

/-- The BOOT_RECONCILE record of a site (R356, R359). -/
def reconcileRec (site cls flags : Nat) : FaultRec :=
  { faultRec 0x10 cls (site / 256) (site % 256) 1 0 with flags := flags }

/-- A row of the floor plan with the shifts and failures of the fault map (R357, step 1). -/
def mapRow (s : State) (key : Nat) : FpRow :=
  let r := fuseRow s.fuses key
  let r := match Tab.get s.faultMap.shifts key with | some k => (r.fail k).1 | none => r
  ((List.range 16).filter fun p => s.faultMap.failed.contains (16 * key + p)).foldl
    (fun r p => if r.site p = 1 then r else r.setSite p 2) r

/-- One site that its test found bad, in increasing column (R356, R357 step 2, R359). -/
def reconcileSite (site : Nat) (s : State) : State :=
  let key := site / 16
  let r := Tab.getD s.newRows key FpRow.init
  let scope := site / 256
  let kind := stkKind s scope
  let found (source outcome : Nat) (log : Option Nat) (t : State) : State :=
    finding 6 scope kind 1 (site % 256) 0 source outcome (bootFlag s site) 0 log t
  if r.site (site % 16) = 1 ∨ r.site (site % 16) = 2 then s
  else
    let f := r.fail (site % 16)
    let t : State := { s with newRows := Tab.set s.newRows key f.1 }
    if s.boot.kind = .cold ∧ s.boot.stage = 6 ∧ s.mram.testFail.contains site then
      let t := found 2 4 (some t.logNext) (logFault (reconcileRec site 1 2) t)
      let t : State := { t with
        mapDirty := true
        boot := { t.boot with bad := t.boot.bad.filter fun x => x != site }
        faultMap := { t.faultMap with failed := site :: t.faultMap.failed
                                      shifts := if f.1.shifted && !r.shifted then Tab.set t.faultMap.shifts key (site % 16) else t.faultMap.shifts } }
      if f.2 then raiseDrain 0 site t else t
    else found 2 1 (some t.logNext) (logFault (reconcileRec site 3 8) t)

/-- Findings for the sites that the fuses or the fault map mark bad (R365): a pass of their test is noted. -/
def knownBad (scopes : List Nat) (s : State) : State :=
  let tested (n : Nat) : Nat := if s.boot.bad.contains n then 0 else 5
  let f (source : Nat) (t : State) (n : Nat) : State :=
    finding 6 (n / 256) (stkKind s (n / 256)) 1 (n % 256) 0 source (tested n) 0 0 none t
  let mine (l : List Nat) : List Nat := l.filter fun n => scopes.contains (n / 256)
  (mine s.faultMap.failed).foldl (f 1) ((mine (s.fuses.holes ++ s.fuses.badSpares)).foldl (f 0) s)

/-- The rows of some scopes, rebuilt from fuses and map, with the sites bad this boot. -/
def reconcileRows (scopes : List Nat) (s : State) : State :=
  let keys := scopes.flatMap fun n => (List.range 16).map fun r => 16 * n + r
  let t : State := { s with newRows := keys.foldl (fun m k => Tab.set m k (mapRow s k)) s.newRows }
  let sites := (List.range 5120).filter fun n => scopes.contains (n / 256) && s.boot.bad.contains n
  sites.foldl (fun t n => reconcileSite n t) (knownBad scopes t)

/-- A unit already marked by the fault map. -/
def State.unitKnown (s : State) (f : FaultSite) : Bool :=
  let n := 256 * f.stack + f.site
  match f.unit with
  | .crumb => s.faultMap.crumbs.contains (n, f.index)
  | .sliceCtl => s.faultMap.slices.contains n
  | .engine => s.faultMap.engines.contains (f.stack, f.index)
  | .ge => s.faultMap.engines.contains (f.stack, 8)
  | _ => false

/-- A unit that failed P5 without a record: the action of its table, for this boot only (R358). -/
def bootUnit (f : FaultSite) (s : State) : State :=
  if s.mram.map.crumbs.contains (256 * f.stack + f.site, f.index) && decide (f.unit = .crumb) then s
  else
    let n := s.drainPend.length
    let t := actLasting f s
    let t : State := { t with drainPend := t.drainPend.take n ++ (t.drainPend.drop n).map fun p => (p.1, p.2.1, false) }
    finding 6 f.stack (stkKind s f.stack) (unitCode f.unit) f.site f.index 2 1
      (bootFlag s (256 * f.stack + f.site)) f.check none t

/-- The units other than cores that the fault map marks bad. -/
def FaultMap.units (m : FaultMap) : List FaultSite :=
  (m.crumbs.map fun p => ⟨p.1 / 256, p.1 % 256, .crumb, p.2, 0⟩) ++ (m.slices.map fun n => ⟨n / 256, n % 256, .sliceCtl, 0, 0⟩)
    ++ m.engines.map fun p => if p.2 = 8 then ⟨p.1, 0, .ge, 0, 0⟩ else ⟨p.1, 0, .engine, p.2, 0⟩

/-- Findings for the units other than cores that the fault map marks bad: a pass of their test is noted (R358, R365). -/
def knownUnits (scopes : List Nat) (s : State) : State :=
  (s.lastingMap.units.filter fun f => scopes.contains f.stack).foldl
    (fun t f =>
      let failed := s.boot.badUnits.any fun g => g.stack == f.stack && g.site == f.site && decide (g.unit = f.unit) && g.index == f.index
      finding 6 f.stack (stkKind s f.stack) (unitCode f.unit) f.site f.index 1 (if failed || f.unit = .sliceCtl then 0 else 5) 0 0 none t) s

/-- What the fault map records of other units is acted on again (R358). -/
def mapUnits (scopes : List Nat) (s : State) : State :=
  let t : State := { s with sliceReset := s.sliceReset ++ s.faultMap.slices.filter fun n => scopes.contains (n / 256) && !s.sliceReset.contains n }
  s.faultMap.engines.foldl
    (fun t p => if !scopes.contains p.1 then t else if p.2 = 8 then isolate p.1 6 t
      else t.setStack p.1 { t.stackAt p.1 with
        failedEngines := if (t.stackAt p.1).failedEngines.contains p.2 then (t.stackAt p.1).failedEngines
          else p.2 :: (t.stackAt p.1).failedEngines }) t

/-- Test-fail bits of a cold start (R359): set by a failure, cleared by a pass; `bad` are the sites that P5 found bad. -/
def testBits (bad : List Nat) (s : State) : State :=
  let tested (n : Nat) : Bool := s.stkCode (n / 256) == 6
  { s with mram := { s.mram with
      testFail := (List.range 5120).filter fun n => if tested n then bad.contains n else s.mram.testFail.contains n } }

/-- Reconciliation of some scopes. -/
def reconcile (scopes : List Nat) (s : State) : State :=
  let units := (s.boot.badUnits.filter fun f => scopes.contains f.stack && !s.unitKnown f)
  let t := knownUnits scopes (reconcileRows scopes s)
  units.foldl (fun t f => bootUnit f t) (mapUnits scopes { t with boot := { t.boot with badUnits := units ++ t.boot.badUnits.filter fun f => !scopes.contains f.stack } })

/-- A stack whose DRAM was cut in Rack comes back without its contents (R326, R361). -/
def backFromCut (n : Nat) (s : State) : State :=
  if (s.stackAt n).cut then
    let t := loseContents n true (post (event .stackContentsLost (objWord 3 n) []) s)
    holdHomed n true (t.setStack n { t.stackAt n with cut := false })
  else s

/-- STATUS of the scopes at the end of P6. -/
def p6Status (s : State) : State :=
  let t := s.boot.stk.foldl
    (fun t e => backFromCut e.1 (t.setStack e.1 { t.stackAt e.1 with status := if (t.stackAt e.1).isolated.isSome then 1 else 0 })) s
  { t with boot := { t.boot with stk := [] } }

/-- Stacks whose copy of the running image survives. -/
def State.mirrorsLeft (s : State) : List Nat := s.hearth.mirrors.filter fun n => !(s.stackAt n).cut && !s.stackGone n

/-- P6 of a device start: reconciliation, DRAIN from the fault map, and publication with GENERATION 1, or only if the floor
plan changed (R349, R360, R361). -/
def p6Device (s : State) : State :=
  let first := !s.fpLive
  let mirrors := s.hearth.mirrors.filter fun n => !(s.stackAt n).cut
  let old := (s.rows, (List.range 20).map fun n => (s.stackAt n).status, s.drain)
  let t := reconcile (List.range 20) s
  let t := if s.boot.kind = .cold then testBits s.boot.bad t else t
  let t : State := if first then { t with drain := t.faultMap.drain } else t
  let t := p6Status (applyDrains t)
  let changed := first || decide ((t.newRows, (List.range 20).map (fun n => (t.stackAt n).status), t.drain) ≠ old)
  let t := if changed then publishFloor t.seqr.count t else t
  let left := mirrors.filter fun n => !t.stackGone n
  let t : State := { t with hearth := { t.hearth with mirrors := left }, seqr := { t.seqr with fpChanged := false } }
  let bad := t.boot.bad.length + t.boot.badUnits.length
  endStage 6 (if left.isEmpty then 7 else 8) (if bad = 0 then 0 else 1) 0 5120 bad t

/-- STAGE_P6: reconciliation of the device, or of one stack, which then joins at the next commit. -/
def execStageP6 (scope : Nat) (s : State) : Out :=
  unit (validScope scope) <|
    if !s.starting then skip s
    else if scope = 31 then when (s.boot.stage == 6) s (p6Device s)
    else if s.stkCode scope % 10 == 6 && s.boot.stage != 6 then
      let kind := stkKind s scope
      let t := reconcile [scope] s
      .next (setCode scope (s.stkCode scope + 3) (stageRec 6 scope kind 0 0 256 (t.boot.bad.filter fun n => n / 256 == scope).length [] t))
    else skip s

/-! ## P7 (R349, R397, R400) -/

/-- CS7 or CS12 is online. -/
def State.storeOnline (s : State) : Bool := decide ((s.stackAt 7).status = 0) || decide ((s.stackAt 12).status = 0)

/-- STAGE_P7: the Starter asks for an image and waits for FW_LOAD; with neither store online a device start halts, and a restart of
the Hearth alone waits for one while loaded plans run on (R28). -/
def execStageP7 (s : State) : Out :=
  if s.atStage 7 && !s.boot.fetchWait then
    if !s.storeOnline then (if s.boot.kind = .hearthRestart then skip s else .next (failHalt 7 7 s))
    else
      .next { s with
        hearth := { s.hearth with up := true, running := false }
        boot := { s.boot with last := 7, st := .waiting, fetchWait := true, fetchNs := s.seqr.time } }
  else skip s

/-- Sessions carry over where what the old Zororlon left can be adopted; otherwise they close (R400). -/
def adoptWork (s : State) : State :=
  if s.hearth.adoptable ∨ s.boot.readyIndex.isNone then s
  else s.sessions.foldl (fun t e => closeSession e.1 t) s

/-- A verified image passes P7: it is stored and measured, and Zororlon starts. After a Hearth restart the device goes on. -/
def passP7 (image measurement : List Byte) (svn : Nat) (s : State) : State :=
  let us := (s.seqr.time - s.boot.fetchNs) / 1000
  let t := storeImage image s
  let t : State := { t with hearth := { t.hearth with running := true, measurement := measurement, svn := svn } }
  let t := stageRec 7 31 t.boot.kind 0 0 0 0 [image.length, us] t
  let restart := decide (t.boot.kind = .hearthRestart)
  let t := adoptWork { t with boot := { t.boot with
    fetchWait := false, last := 7, st := if restart then .ready else .running, stage := if restart then 10 else 8,
    fetchUs := t.boot.fetchUs + us, stageNs := t.seqr.time } }
  if t.serves then releaseHeld t else t

/-- A rejected image leaves the Starter waiting for another. -/
def rejectP7 (s : State) : State :=
  stageRec 7 31 s.boot.kind 2 6 0 0 [] { s with boot := { s.boot with rejected := s.boot.rejected + 1 } }

/-! ## P8 and P9 -/

/-- Registers P8 of a restart from Rack sets to their reset values: those outside what R361 keeps (log 42). -/
def resetRegisters (s : State) : State :=
  let q := Seqr.init
  { s with
    counters := [], perfs := [], clears := [], perfClears := [], devIncs := [], devPerfs := []
    seqr := { s.seqr with period := q.period, periodPend := none, external := false, sourcePend := none, awaitEdge := false,
                          flywheelRun := 0, flywheel := false, sourceLost := false, periodReject := false, lateEvtEn := true,
                          wrapEn := 0, wrapPend := none, maxRecovery := 0 }
    cfg := { s.cfg with storeLowWater := Config1.init.storeLowWater, poolLowWater := Config1.init.poolLowWater,
                        globalWaves := Config1.init.globalWaves, wavesPend := none, memReject := false, budgetReject := false,
                        linkReject := false }
    power := { s.power with flowMin := Power.init.flowMin, flowMinPend := none, warmupEn := true, warmupPend := none } }

/-- STAGE_P8: Zororlon lays out the reserve, sets the registers, empties the router and fold state and assigns slots (R259); a unit that fails configuration is a lasting fault. -/
def execStageP8 (failed : List FaultSite) (s : State) : Out :=
  if s.atStage 8 && s.hearth.running then
    let l := failed.filter validFault
    let t := if s.boot.readyIndex.isNone then { s with devIncs := [], devPerfs := [] } else resetRegisters s
    let t := assignSlots { t with flits := [], frames := [], foldBuf := [], absorbed := [] }
    let t := l.foldl (fun t f => actLasting f (devInc .lasting 1 (post { event .faultLasting (objWord 3 f.stack) [] with log := some t.logNext }
      (logFault (siteRec f 1 0 false) t)))) t
    .next (endStage 8 9 (if l.isEmpty then 0 else 1) 0 0 l.length t)
  else skip s

/-- The Ready record (R366). -/
def readyRec (s : State) (total : Nat) : ProofRec :=
  let scopes := (List.range 20).filter fun n => decide ((s.stackAt n).status ≠ 2)
  let narrow := scopes.foldl (fun k n => k + ([(s.stackAt n).op0, (s.stackAt n).op1, (s.stackAt n).bundle].filter fun m =>
    decide (m.width < 32)).length) ((List.range 6).filter fun p => (s.portAt p).up && decide ((s.portAt p).width < 8)).length
  .ready s.boot.kind s.good s.fuses.factoryGood s.fuses.holes.length s.fieldFailed s.bootOnly.length s.fuses.grade
    (bitsOf [s.belowGrade, decide (s.drain ≠ 0), !s.bootOnly.isEmpty, s.power.coldHold, s.boot.mapLost,
      decide (s.hearth.mirrors.length = 1)])
    ((List.range 20).foldl (fun m n => if (s.stackAt n).status = 0 then m + 2 ^ n else m) 0)
    s.drain.toNat narrow s.boot.remaps s.fpGen s.seqr.time s.boot.fetchUs total

/-- The tracking forecast starts from the readings observed (R330). -/
def startForecast (s : State) : State :=
  (List.range 80).foldl (fun t q => t.setTherm q { t.thermAt q with x := (t.thermAt q).l * tempUnit, y := (t.thermAt q).cp * tempUnit, e := 0 }) s

/-- Leaving Rack at P9 (R327, R361). -/
def leaveRack (s : State) : State :=
  if s.power.state = .rack then
    post (event .rackExit none []) (powerEvent none [0]
      { s with power := { s.power with state := .active, off := s.power.off.filter fun d => decide (100 ≤ d) } })
  else s

/-- STAGE_P9: the Ready record, the boot link of a first start, the mailboxes, EV_READY and the events held since P2. -/
def execStageP9 (s : State) : Out :=
  if s.atStage 9 then
    let first := s.boot.readyIndex.isNone
    let t := leaveRack (startForecast (coldCheck s))
    let (k, t) := draw t
    let total := if s.boot.kind = .cold then Config.freeNat k else (t.seqr.time - t.boot.startNs) / 1000 - t.boot.fetchUs
    let i := t.boot.records.length
    let t := stageRec 9 31 t.boot.kind 0 0 0 0 [] (addProof (readyRec t total) t)
    let t : State := { t with boot := { t.boot with stage := 10, last := 9, st := .ready, readyIndex := some i } }
    let t := if first then capStart (bootLink t) else t
    let t := t.boot.dieAuth.foldl (fun t n => post (event .dieAuthFailed (objWord 3 n) []) t) t
    let l := event .ready none [] :: t.devEvents
    .next (postAll l t.seqr.count { t with devEvents := [], boot := { t.boot with dieAuth := [] }, stagedTo := t.logNext })
  else skip s

/-! ## Timeouts (R349) -/

/-- A stack that did not finish a stage in time. -/
def stackTimeout (n : Nat) (s : State) : State :=
  let kind := stkKind s n
  match s.stkCode n % 10 with
  | 3 => dropCode n (raiseDrain 7 n (stageRec 3 n kind 2 1 0 0 [] s))
  | 4 =>
    let t := stageRec 4 n kind 2 1 256 256 [] (clearSites (fun x => x / 256 == n) s)
    let t : State := { t with sliceReset := t.sliceReset ++ ((List.range 256).map fun i => 256 * n + i).filter fun x => !t.sliceReset.contains x }
    setCode n (s.stkCode n + 1) (raiseBootDrain 1 (256 * n) t)
  | 5 => setCode n (s.stkCode n + 1) (stageRec 5 n kind 2 1 0 0 [] s)
  | _ => s

/-- STAGE_TIMEOUT: the stage under way on a scope fails with cause TIMEOUT and takes the failure action of its row; where the
row gives none, the failure is recorded and the stage goes on. -/
def execStageTimeout (scope : Nat) (s : State) : Out :=
  unit (validScope scope) <|
    if !s.starting then skip s
    else if scope = 31 then
      let n := s.boot.stage
      if n ≤ 2 then .next (failHalt n 1 s)
      else if 3 ≤ n ∧ n ≤ 5 then
        if s.power.coolantStop ∧ n ≠ 3 then skip s
        else
          let l := (s.boot.stk.filter fun e => e.2 == n && (n != 4 || s.crustWarm e.1)).map Prod.fst
          let t := l.foldl (fun t k => stackTimeout k t) s
          .next (if n = 3 then endStage 3 4 1 1 0 l.length t else nextStage t)
      else if n ≤ 9 then .next (stageRec n 31 s.boot.kind 2 1 0 0 [] s)
      else skip s
    else if decide (s.stkCode scope ≠ 0) && !(s.power.coolantStop && s.stkCode scope % 10 != 3) then .next (nextStage (stackTimeout scope s))
    else skip s

end Sys2Proof.Machine
end

