-- ==== Sys2Proof/Machine/TLink.lean ====
section
/-! DEFINITION. TLink: packets that arrive, ports that go up and down, and journal writes (R42, R45, R270-R277). -/

namespace Sys2Proof.Machine

open Sys2Proof

/-! ## Arrival (R273) -/

/-- Ports whose TLink domain is gated (R340). -/
def State.portGated (s : State) (n : Nat) : Bool := s.power.off.contains (if n < 3 then 120 else 121)

/-- A port takes packets: up, not retraining, and the device not in Rack, where traffic is held by credit (R326). -/
def State.portOpen (s : State) (n : Nat) : Bool :=
  (s.portAt n).up && !(s.portAt n).retraining && !s.portGated n && decide (s.power.state ≠ .rack) && s.ticking

/-- A packet arrives after `bad % 16` replays and `bad / 16` codewords that could not be corrected. At eight replays in
succession the port retrains and the packet is held by its sender (R273). -/
def arrivePacket (port : Nat) (bad : Nat) (s : State) (k : State → State) : Out :=
  unit (validPort port) <|
    if s.portOpen port then
      let p := s.portAt port
      let n := p.replays + bad % 16
      let t := if bad % 16 = 0 then s else devInc (.tlReplay port) (bad % 16) s
      let t := if bad / 16 = 0 then t else devInc (.tlUncorr port) (bad / 16) t
      if 8 ≤ n then .next (t.setPort port { p with retraining := true, replays := 0 })
      else .next (k (t.setPort port { p with replays := 0 }))
    else skip s

/-- The next port of a packet on its way through this device (R275). -/
def State.onward (s : State) (p : Packet) : Option Nat :=
  let a := s.cfg.devAddr.toNat
  ((List.range 3).find? fun d => coord a d ≠ coord (p.destDev.toNat % 512) d).map fun d => 2 * d + (if p.route.getLsbD d then 1 else 0)

/-- A packet for another device goes on by its route (R275). -/
def forward (kind : Nat) (p : Packet) (s : State) : State :=
  match s.onward p with
  | none => s
  | some q => sendOn q kind p s

/-- A packet of a kind: taken here when it is addressed to this device and its tag is not stale, else sent on (R56). -/
def takePacket (kind port : Nat) (p : Packet) (bad : Nat) (stale k : State → State) (s : State) : Out :=
  arrivePacket port bad s fun t =>
    if p.destDev.toNat % 512 ≠ s.cfg.devAddr.toNat then forward kind p t
    else if (tagAge s.seqr.count p.tag).isNone then stale t
    else k t

/-! ## Inputs (R42, R277) -/

/-- The key of a source ring. -/
def sourceKey (p : Packet) : Nat := 128 * (p.srcDev.toNat % 512) + p.ring.toNat

/-- SRC_INDEX is exactly one more than the last accepted of its source and ring; the first is 0. -/
def State.nextFrom (s : State) (p : Packet) : Bool :=
  match Tab.get s.accepted (sourceKey p) with
  | some n => p.srcIndex == n + 1
  | none => p.srcIndex == 0

/-- The source is told to hold. -/
def holdSource (port : Nat) (p : Packet) (s : State) : State :=
  let h := (p.srcDev.toNat % 512, p.ring.toNat, p.plan.toNat)
  replyTo 2 port p .ok { s with tlinkHeld := if s.tlinkHeld.contains h then s.tlinkHeld else s.tlinkHeld ++ [h] }

/-- Table: TLink input outcomes, and HOLD for an input that does not fit (R45). An isolated home stack holds an input though its
plan has been suspended with it (R270). -/
def takeInput (port : Nat) (p : Packet) (s : State) : State :=
  if !s.nextFrom p then s
  else
    let slot := p.plan.toNat
    let took (t : State) : State := { t with accepted := Tab.set t.accepted (sourceKey p) p.srcIndex }
    let rec_ (home : Nat) : JRec :=
      { index := 0, seqSlot := p.seq.toNat % 2 ^ 17, arrival := 0, plan := slot, source := port + 1, payload := p.payload,
        home := home, bad := false, consumedBy := none }
    match s.planAt slot, s.seqAt (p.seq.toNat % 2 ^ 17) with
    | some x, some q =>
      if q.plan ≠ slot ∨ s.replay.isSome then replyTo 1 port p .denied (took s)
      else if s.stackGone q.home then holdSource port p s
      else if x.st ≠ .admitted then replyTo 1 port p .denied (took s)
      else if x.backpressured ∨ s.ringFree q.home < recBytes p.payload.length then holdSource port p s
      else took { s with jpend := s.jpend ++ [{ record := rec_ q.home, answer := none, reply := some (port, p) }] }
    | _, _ => replyTo 1 port p .denied (took s)

/-- TLINK_INPUT. -/
def execTlinkInput (port : Nat) (p : Packet) (bad : Nat) (s : State) : Out :=
  takePacket 0 port p bad (replyTo 1 port p .stalemsg) (takeInput port p) s

/-- The answer to a SEQ_INGEST whose last record has been journalled, or that meets an isolated stack (R392). -/
def ingestResp (s : State) (mb : Nat) (st : Status) (first done arrival : Nat) : Resp :=
  let m := (s.mbAt mb).message
  { op := 0x0104, status := st, stateful := false, host := false, detail := 0, seq := BitVec.ofNat 32 (field m 12 4),
    tick := arrival, progress := done, body := if st = .ok then [BitVec.ofNat 64 first] else [], data := [] }

/-- The record completes: it takes INDEX and belongs to the tick under way (R42). -/
def journalRecord (j : JPend) (s : State) : State :=
  let r := { j.record with index := s.nextJournal, arrival := s.seqr.count }
  let t : State := { s with journal := s.journal ++ [r], nextJournal := s.nextJournal + 1 }
  let t := match j.reply with | some (port, p) => replyTo 1 port p .ok t | none => t
  match j.answer with
  | some (mb, n) => respond mb (ingestResp s mb .ok (s.nextJournal + 1 - n) n s.seqr.count) t
  | none => t

/-- The record's home stack is gone: a TLink input is held at its source, with those after it, and a host command ends with
UNAVAIL (R270). -/
def journalLost (j : JPend) (s : State) : State :=
  match j.reply with
  | some (port, p) =>
    let same (x : JPend) : Bool := match x.reply with | some y => sourceKey y.2 == sourceKey p | none => false
    holdSource port p { s with
      jpend := s.jpend.filter fun x => !same x
      accepted := if p.srcIndex = 0 then Tab.del s.accepted (sourceKey p) else Tab.set s.accepted (sourceKey p) (p.srcIndex - 1) }
  | none =>
    let rest := s.jpend.dropWhile fun x => x.answer.isNone
    match (j :: s.jpend).findSome? fun x => x.answer with
    | some (mb, n) =>
      let left := if j.answer.isSome then 1 else s.jpend.length - rest.length + 2
      respond mb (ingestResp s mb .unavail 0 (n - left) s.seqr.count)
        { s with jpend := if j.answer.isSome then s.jpend else rest.drop 1 }
    | none => s

/-- JOURNAL_WRITE: the oldest journal write under way completes. -/
def execJournalWrite (s : State) : Out :=
  match s.jpend with
  | [] => skip s
  | j :: rest =>
    let t : State := { s with jpend := rest }
    .next (if s.stackGone j.record.home then journalLost j t else journalRecord j t)

/-! ## Replies to this device's rings (R276, R277) -/

/-- The output section of a ring and its ring. -/
def State.ringSec (s : State) (n : Nat) : Option RingSec :=
  (s.admitted.flatMap fun e => e.2.rings).find? fun x => x.ring == n

/-- Sends what a ring may now send. -/
def sendMore (n : Nat) (s : State) : State :=
  match s.ringSec n with
  | none => s
  | some sec => sendEntries sec (leNat (s.privBytes (lcSite sec.lcid) sec.prod 8)) (sec.entries + 1) s

/-- TLINK_ACK: the entry is freed; one that was not taken is counted and posted. -/
def takeAck (p : Packet) (s : State) : State :=
  let n := p.ring.toNat
  match Tab.get s.rings n with
  | none => s
  | some r =>
    if r.unacked.any (fun x => x.index == p.srcIndex && x.dest == p.srcDev.toNat % 512) then
      let st := Status.ofCode p.status.toNat
      let t : State := { s with rings := Tab.set s.rings n { r with unacked := r.unacked.filter fun x => x.index != p.srcIndex } }
      let t := match st with
        | .denied => devInc .tlReject 1 (post (event .tlinkReject (objWord 1 r.plan) [st.code]) t)
        | .stalemsg => devInc .tlStale 1 (post (event .tlinkStale (objWord 1 r.plan) []) t)
        | _ => t
      sendMore n t
    else s

/-- TLINK_ACK. -/
def execTlinkAck (port : Nat) (p : Packet) (bad : Nat) (s : State) : Out := takePacket 1 port p bad id (takeAck p) s

/-- TLINK_HOLD: the source keeps its entry and sends nothing more to that plan, of any ring. -/
def takeHold (p : Packet) (s : State) : State :=
  let k := holdKey (p.srcDev.toNat % 512) p.plan.toNat
  { s with heldAway := if s.heldAway.contains k then s.heldAway else k :: s.heldAway }

/-- TLINK_HOLD. -/
def execTlinkHold (port : Nat) (p : Packet) (bad : Nat) (s : State) : Out := takePacket 2 port p bad id (takeHold p) s

/-- TLINK_RELEASE: every ring sends its unacknowledged entries for that device again, in order, but those to plans still held, and
goes on. -/
def takeRelease (p : Packet) (s : State) : State :=
  let dev := p.srcDev.toNat % 512
  let k := holdKey dev p.plan.toNat
  if s.heldAway.contains k then
    let t : State := { s with heldAway := s.heldAway.filter fun x => x != k }
    t.rings.foldl
      (fun u e =>
        if e.2.unacked.any (fun x => x.dest == dev && x.plan == p.plan.toNat) then
          sendMore e.1 ((e.2.unacked.filter fun x => x.dest == dev && !t.entryHeld x).foldl (fun u x => resend e.1 x u) u)
        else sendMore e.1 u) t
  else s

/-- TLINK_RELEASE. -/
def execTlinkRelease (port : Nat) (p : Packet) (bad : Nat) (s : State) : Out :=
  takePacket 3 port p bad id (takeRelease p) s

/-- TLINK_STALE: an entry unacknowledged 32,768 ticks after its tag is abandoned. -/
def execTlinkStale (n : Nat) (s : State) : Out :=
  unit (decide (n < 128)) <|
    match Tab.get s.rings n with
    | none => skip s
    | some r =>
      match r.unacked.find? fun x => (tagAge s.seqr.count x.tag).isNone with
      | none => skip s
      | some x =>
        .next (devInc .tlStale 1 (post (event .tlinkStale (objWord 1 r.plan) [])
          { s with rings := Tab.set s.rings n { r with unacked := r.unacked.filter fun y => y.index != x.index } }))

/-! ## Ports and the link map (R274, R275) -/

/-- TLINK_MGMT: the fabric link map takes the packet. -/
def execTlinkMgmt (port : Nat) (p : Packet) (bad : Nat) (s : State) : Out :=
  takePacket 4 port p bad id
    (fun t => reroute t { t with cfg := { t.cfg with linkMapDown := Config.mgmtMap t.cfg.linkMapDown p.payload } }) s

/-- The peer is the one the torus wiring gives the port. -/
def State.wired (s : State) (n : Nat) (peer : PeerInfo) : Bool :=
  decide (s.dimLog (n / 2) ≠ 0) && peer.addr.toNat == s.neighbour s.cfg.devAddr.toNat n && peer.port == n + 1 - 2 * (n % 2)

/-- The port ends its training with its peer's address and the lanes found bad (R265, R272, R274). -/
def linkUp (n : Nat) (peer : PeerInfo) (s : State) : State :=
  let p := s.portAt n
  let tx := p.badTx ||| peer.badTx
  let rx := p.badRx ||| peer.badRx
  let gen := if p.gen = 0 then 1 else if tx ≠ p.badTx ∨ rx ≠ p.badRx then p.gen + 1 else p.gen
  let q : Port := { p with peer := peer.addr, badTx := tx, badRx := rx, gen := gen, replays := 0, retraining := false, swaps := [], linkSeq := 0 }
  let w := q.fit
  let q := { q with width := w }
  if s.wired n peer then
    let t := s.setPort n { q with up := decide (0 < w), miswire := false }
    if w = 0 then t else sendMgmt (reroute s (markLink n false t))
  else post (event .tlinkMiswire (objWord 6 n) []) (s.setPort n { q with up := false, width := 0, miswire := true })

/-- The rails and clocks of the TLink ports are there (R440, R443). -/
def State.serialOk (s : State) : Bool := s.pins.serial && !s.boot.lostClocks.contains .tlink

/-- TLINK_LINK_UP: a port that is down or retraining completes its training. -/
def execTlinkLinkUp (n : Nat) (peer : PeerInfo) (s : State) : Out :=
  unit (validPort n) <|
    when ((!(s.portAt n).up || (s.portAt n).retraining) && !s.portGated n && s.serialOk && s.ticking && decide (3 ≤ s.boot.stage)) s
      (linkUp n peer s)

/-- TLINK_PORT_DOWN: a port loses its peer or its signal. -/
def execTlinkPortDown (n : Nat) (s : State) : Out := unit (validPort n) <| .next (portDown n s)

end Sys2Proof.Machine
end

