-- ==== Sys2Proof/Machine/Supplies.lean ====
section
/-! DEFINITION. Supplies, reference clocks, the sideband and the test access port (R268, R329, R385, R422, R440-R444,
R450-R453). -/

namespace Sys2Proof.Machine

open Sys2Proof

/-! ## The host port and the TLink ports -/

/-- The host port goes down: every function is reset (R385). -/
def hostDown (s : State) : State := resetFunction 0 { s with pins := { s.pins with hostUp := false } }

/-- Every TLink port goes down. -/
def portsDown (s : State) : State := (List.range 6).foldl (fun t n => portDown n t) s

/-! ## Supplies (R440, R441) -/

/-- The device halts in service: its tick stops and none starts again (R350). -/
def haltNow (cause : Nat) (s : State) : State :=
  if s.boot.st = .halted then s else halt cause (abandonTick false { s with boot := { s.boot with last := if s.boot.stage < 10 then s.boot.stage else s.boot.last } })

/-- Both laser dies lose light (R268). -/
def lasersOff (s : State) : State :=
  if s.drain.getLsbD 6 ∨ s.drainPend.any (fun p => p.1 == 6) then s
  else
    raiseDrain 6 s.pins.laserActive
      (((List.range 20).filter fun n => s.stackUp n).foldl (fun t n => darken n t)
        { s with pins := { s.pins with laserSpareOk := false } })

/-- SUPPLY_FAULT: a rail stays outside its window for the time of its row. While THERMTRIP_N is low, VCORE may be removed. -/
def execSupplyFault (rail : Rail) (s : State) : Out :=
  if s.boot.off then skip s
  else
    match rail with
    | .vaon => .next { coldState s with boot := { (coldState s).boot with off := true } }
    | .vio18 => .next { coldState s with boot := { (coldState s).boot with off := true } }
    | .vcore =>
      let t : State := { s with power := { s.power with vcoreOk := false } }
      .next (if s.pins.thermtrip ∨ !s.ticking then t else enterRack 1 t)
    | .vser => .next (portsDown (hostDown { s with pins := { s.pins with serial := false } }))
    | .vserh => .next (portsDown (hostDown { s with pins := { s.pins with serial := false } }))
    | .vlas => when s.ticking s (lasersOff s)
    | .vtransit => when s.boot.released s (haltNow 3 s)
    | .vdram => when s.boot.released s (haltNow 3 s)
    | .vpp => when s.boot.released s (haltNow 3 s)
    | .viod => when s.boot.released s (haltNow 3 s)
    | .vpho => when s.boot.released s (haltNow 3 s)

/-- VCORE_RESTORE: VCORE has been within its window for 10 ms. -/
def execVcoreRestore (s : State) : Out := when (!s.boot.off) s { s with power := { s.power with vcoreOk := true } }

/-- SERIAL_SUPPLY_RETURN: VSER and VSERH have been within their windows for 10 ms, and ports retrain; a TLink port is up again
when TLINK_LINK_UP ends its training. -/
def execSerialSupplyReturn (s : State) : Out :=
  when (!s.boot.off && !s.pins.serial) s (hostTrain { s with pins := { s.pins with serial := true } })

/-! ## Reference clocks (R443) -/

/-- REFERENCE_CLOCK_LOSS. -/
def execReferenceClockLoss (clk : RefClock) (s : State) : Out :=
  if s.boot.off || s.boot.lostClocks.contains clk then skip s
  else
    let t : State := { s with boot := { s.boot with lostClocks := clk :: s.boot.lostClocks } }
    match clk with
    | .sysclk => .next (if s.boot.released then haltNow 4 t else t)
    | .pcie => .next (hostDown t)
    | .tlink => .next (portsDown t)

/-- REFERENCE_CLOCK_RETURN: the clock has been stable for 10 ms, and ports retrain. -/
def execReferenceClockReturn (clk : RefClock) (s : State) : Out :=
  when (!s.boot.off && s.boot.lostClocks.contains clk) s
    (let t : State := { s with boot := { s.boot with lostClocks := s.boot.lostClocks.filter fun c => decide (c ≠ clk) } }
     if clk = .pcie then hostTrain t else t)

/-! ## Functions and configuration (R385, R444) -/

/-- FUNCTION_LEVEL_RESET of a function; of the PF, of every function. -/
def execFunctionLevelReset (fn : Nat) (s : State) : Out := unit (validFn fn) <| .next (resetFunction fn s)

/-- CONFIG_REQUEST: answered with Configuration Request Retry Status until P1 ends, and served from then on. -/
def execConfigRequest (s : State) : Out :=
  .next { s with pins := { s.pins with config := if !s.hostPower then 0 else if s.boot.stage < 2 then 1 else 2 } }

/-! ## Sideband (R329, R450-R452) -/

/-- An inlet outside 15–45 °C. -/
def inletBad (x : BitVec 16) : Bool := decide (deg x < 240) || decide (720 < deg x)

/-- SIDEBAND_REPORT: INLET and FLOW taken as one report; before P1 the values stay in their registers and are no report. -/
def execSidebandReport (inlet flow : BitVec 16) (s : State) : Out :=
  if s.boot.off then skip s
  else
    let t : State := { s with pins := { s.pins with sbInlet := inlet, sbFlow := flow } }
    if s.boot.stage < 2 then .next t
    else
      let t := if inletBad inlet && !s.power.inletOut then post (event .inletRange none []) t else t
      .next { t with power := { t.power with inlet := inlet, flow := flow, reportLost := false, inletOut := inletBad inlet } }

/-- SIDEBAND_WAKE: the gated host port is powered and trains. -/
def execSidebandWake (s : State) : Out :=
  when (!s.boot.off && s.power.off.contains 122) s
    (powerEvent (objWord 5 122) [122] (hostTrain { s with power := { s.power with off := s.power.off.filter fun d => d != 122 } }))

/-- I3C_DYNAMIC_ADDRESS: the controller assigns a dynamic address. -/
def execI3cDynamicAddress (a : BitVec 7) (s : State) : Out := when (!s.boot.off) s { s with pins := { s.pins with i3c := some a } }

/-- The address the sideband answers at: static until one is assigned (R450). -/
def State.i3cAddress (s : State) : BitVec 7 := s.pins.i3c.getD (0x58 + Config.i3cAddr.setWidth 7)

/-- The sideband registers by offset, as the board controller reads them (R451). -/
def State.sideband (s : State) (off : Nat) : BitVec 16 :=
  let halted := decide (s.boot.st = .halted)
  let drain := decide (s.drain ≠ 0)
  let st := match s.boot.st with | .running => 0 | .waiting => 1 | .ready => 2 | .halted => 3
  let stage := if s.boot.stage < 10 ∧ !halted then s.boot.stage else s.boot.last
  let hot := highest ((List.range 80).flatMap fun q => [(s.thermAt q).l, (s.thermAt q).cp]) 0
  match off % 0x20 with
  | 0x00 => 0x9640
  | 0x02 => BitVec.ofNat 16 (256 * st + stage)
  | 0x04 => BitVec.ofNat 16 (bitsOf [s.boot.readyIndex.isSome && s.boot.stage == 10, halted || drain, halted, drain,
      decide (s.power.state = .rack), s.power.coolantStop, s.pins.restartPending, s.pins.supply])
  | 0x06 => BitVec.ofNat 16 s.drain.toNat
  | 0x08 => s.pins.sbInlet
  | 0x0A => s.pins.sbFlow
  | 0x0E => BitVec.ofInt 16 hot
  | 0x10 => BitVec.ofNat 16 (((s.teleDev.filter fun r => decide (s.seqr.time < r.time + 10000000)).foldl (fun n r => n + r.deviceEnergy) 0) / 10000)
  | 0x12 => BitVec.ofNat 16 (if halted then s.boot.cause else 0)
  | _ => 0

/-! ## Test access port (R421, R422, R453) -/

/-- An instruction of the TAP is loaded, with what its data register then captures. -/
def tap (ir : BitVec 8) (data : BitVec 32) (s : State) : State :=
  { s with pins := { s.pins with tapIr := ir, tapData := data, tapUnpowered := false } }

/-- BYPASS, and every code not allowed at the moment. -/
def tapBypass (s : State) : State := tap 0xFF 0 s

/-- A boundary-scan instruction: allowed only while PERST_N is asserted. What the pins hold is free. -/
def tapScan (ir : BitVec 8) (s : State) : Out :=
  if s.boot.off then skip s
  else if s.boot.released then .next (tapBypass s)
  else .next (tap ir (BitVec.ofNat 32 (Config.freeNat (draw s).1)) (draw s).2)

/-- The IDCODE register. -/
def State.idcode (s : State) : BitVec 32 :=
  BitVec.ofNat 32 (s.fuses.stepping.toNat % 16 * 2 ^ 28 + 0x9640 * 4096 + 0x5A7 * 2 + 1)

/-- IDCODE. -/
def execIdcode (s : State) : Out := when (!s.boot.off) s (tap 0x01 s.idcode s)

/-- BYPASS. -/
def execBypass (s : State) : Out := when (!s.boot.off) s (tapBypass s)

/-- SAMPLE/PRELOAD. -/
def execSamplePreload (s : State) : Out := tapScan 0x02 s

/-- EXTEST. -/
def execExtest (s : State) : Out := tapScan 0x03 s

/-- EXTEST_PULSE. -/
def execExtestPulse (s : State) : Out := tapScan 0x04 s

/-- EXTEST_TRAIN. -/
def execExtestTrain (s : State) : Out := tapScan 0x05 s

/-- DBG_ACCESS: an access to a TAP debug register, allowed while TAP_OPEN is set. A register of an unpowered or gated domain
reads zero with UNPOWERED; which domain a register belongs to, and what it reads, are free; no access changes a result
(R421-R423, log 44). -/
def execDbgAccess (a : BitVec 32) (w : Option (BitVec 32)) (s : State) : Out :=
  if s.boot.off then skip s
  else if !s.tapOpen then .next (tapBypass s)
  else
    let d := Config.tapDomain a
    let dark := s.power.off.contains d || (decide (d < 80) && (s.stackAt (d / 4)).status == 2)
    if dark then .next { tap 0xA5 0 s with pins := { (tap 0xA5 0 s).pins with tapUnpowered := true } }
    else
      match w with
      | some v => .next (tap 0xA5 v s)
      | none => .next (tap 0xA5 (BitVec.ofNat 32 (Config.freeNat (draw s).1)) (draw s).2)

/-- TAP_RESET: TRST_N, or the power-on reset of VAON. IDCODE is then in the instruction register (log 45). -/
def execTapReset (_por : Bool) (s : State) : Out := .next (tap 0x01 s.idcode s)

end Sys2Proof.Machine
end

