-- ==== Sys2Proof/Machine/Regs.lean ====
section
/-! DEFINITION. BAR0 as the host and the debug path read it: register blocks, the proof log, the capability list and mailboxes
(R58, R133, R136, R170, R208, R254, R278, R279, R290, R314, R315, R345, R346, R363-R366, R367, R368, R373, R374, R394, R401,
R429). -/

namespace Sys2Proof.Machine

open Sys2Proof

/-! ## Blocks -/

/-- The expert register blocks, by their unit. -/
inductive Block where
  | host | tick | mem | crumb | kv | ioLink | integrity | thermal | security
  | quad (q : Nat) | mesh (n : Nat) | link (n : Nat) | stackIntegrity (n : Nat) | sensor (q : Nat) | remap (site : Nat)
deriving DecidableEq, Repr

/-- The block at a BAR0 offset, and the offset in it (R367). -/
def blockAt (off : Nat) : Option (Block × Nat) :=
  if 0x03000000 ≤ off then
    match (off - 0x03000000) / 0x1000 with
    | 1 => some (.host, off % 0x1000)
    | 2 => some (.tick, off % 0x1000)
    | 3 => some (.mem, off % 0x1000)
    | 4 => some (.crumb, off % 0x1000)
    | 5 => some (.kv, off % 0x1000)
    | 6 => some (.ioLink, off % 0x1000)
    | 7 => some (.integrity, off % 0x1000)
    | 8 => some (.thermal, off % 0x1000)
    | 9 => some (.security, off % 0x1000)
    | _ => none
  else if 0x01000000 ≤ off ∧ off < 0x01000000 + 20 * 0x100000 then
    let n := (off - 0x01000000) / 0x100000
    let r := off % 0x100000
    if 0x8000 ≤ r ∧ r < 0x8100 then some (.quad (4 * n + (r - 0x8000) / 0x40), r % 0x40)
    else if 0x9000 ≤ r ∧ r < 0xA000 then some (.mesh n, r % 0x1000)
    else if 0xA000 ≤ r ∧ r < 0xB000 then some (.link n, r % 0x1000)
    else if 0xB000 ≤ r ∧ r < 0xC000 then some (.stackIntegrity n, r % 0x1000)
    else if 0xC000 ≤ r ∧ r < 0xC040 then some (.sensor (4 * n + (r - 0xC000) / 0x10), r % 0x10)
    else if 0x10000 ≤ r ∧ r < 0x18000 then some (.remap (256 * n + (r - 0x10000) / 0x80), r % 0x80)
    else none
  else none

/-! ## Counters -/

/-- The counters of a block with their offsets, in the order of CNT_OVF and CNT_CLEAR; where CNT_OVF lies and the bit it starts
at; where CNT_CLEAR lies; and the performance counter, whose bit of CNT_CLEAR follows the counters'. -/
structure Counters where
  ctrs : List (Nat × Ctr)
  ovf : Nat
  shift : Nat
  clear : Nat
  perf : Option (Nat × Perf)
deriving DecidableEq, Repr

/-- Counters at consecutive words from an offset. -/
def wordsFrom (base : Nat) (l : List Ctr) : List (Nat × Ctr) := (List.range l.length).zipWith (fun i c => (base + 4 * i, c)) l

/-- The counters of each block. -/
def Block.counters : Block → Option Counters
  | .host => some ⟨wordsFrom 0x10 [.bar2Denied, .bar2Ur, .bar2Unavail], 0x28, 0, 0x2C, some (0x20, .commands)⟩
  | .tick => some ⟨wordsFrom 0x20 [.late, .rerun, .missedEdge, .earlyEdge, .backpressure], 0x34, 0, 0x38, none⟩
  | .mem => none
  | .crumb => some ⟨wordsFrom 0x18 [.crumbCorrected, .crumbPoison], 0x20, 0, 0x24, some (0x10, .crumbCycles)⟩
  | .kv => some ⟨wordsFrom 0x18 [.poolEmpty, .split, .appendMismatch, .pteFault, .emptyRow], 0x2C, 0, 0x30, some (0x10, .walkBlocks)⟩
  | .ioLink => some ⟨((List.range 6).flatMap fun p => [(0x18 + 0x10 * p, Ctr.tlReplay p), (0x1C + 0x10 * p, Ctr.tlUncorr p)])
      ++ wordsFrom 0x70 [.tlReject, .tlStale, .tlLost], 0x7C, 0, 0x80, none⟩
  | .integrity => some ⟨wordsFrom 0x10 [.transient, .lasting, .shift, .retireReq], 0x24, 0, 0x28, none⟩
  | .thermal => some ⟨wordsFrom 0x24 [.trip, .coolantStop, .degraded, .throttleTicks], 0x34, 0, 0x38, some (0x50, .energy)⟩
  | .security => some ⟨wordsFrom 0x18 [.tokenReject, .quote], 0x20, 0, 0x24, none⟩
  | .quad q => some ⟨wordsFrom 0x18 [.sliceEmpty q, .streamEmpty q], 0x28, 2, 0x2C, some (0x20, .sliceTokens q)⟩
  | .mesh n => some ⟨wordsFrom 0x04 [.crcReplay n, .crcFail n, .nackUnavail n, .mcastRetry n, .mcastLimit n, .foldMissing n], 0x1C, 0,
      0x28, some (0x20, .flits n)⟩
  | .link n => some ⟨wordsFrom 0x40 [.frameReplay n, .frameFail n, .laneSwap n], 0x4C, 0, 0x58, some (0x50, .frames n)⟩
  | .stackIntegrity n => some ⟨wordsFrom 0x00 [.corrLayer n, .corrSlice n, .uncorr n, .poisonWrite n, .residue n, .patrolFail n,
      .remap n, .cacheParity n], 0x20, 0, 0x30, some (0x28, .scrubBytes n)⟩
  | .sensor _ => none
  | .remap _ => none

/-- A number's low or high word. -/
def halfWord (v : Nat) (high : Bool) : Nat := if high then v / 2 ^ 32 % 2 ^ 32 else v % 2 ^ 32

/-- Overflow bits of a block. -/
def ovfBits (s : State) (c : Counters) : Nat := bitsOf (c.ctrs.map fun x => (ctrVal s x.2).ovf) * 2 ^ c.shift

/-- A counter word of a block, if the offset is one. -/
def counterWord (s : State) (c : Counters) (r : Nat) : Option Nat :=
  match c.ctrs.find? fun x => x.1 == r with
  | some x => some (ctrVal s x.2).val.toNat
  | none =>
    match c.perf with
    | some p => if r = p.1 ∨ r = p.1 + 4 then some (halfWord (perfVal s p.2).toNat (r == p.1 + 4)) else none
    | none => none

/-! ## Registers of each block that are no counter -/

/-- TICK_STATUS (R58). -/
def tickStatus (s : State) : Nat :=
  s.seqr.attempt % 256 * 256 + bit s.admitHold 6 + bit s.seqr.periodReject 5 + bit (s.plans.any fun e => e.2.backpressured) 4
    + bit s.seqr.sourceLost 3 + bit s.seqr.flywheel 2 + bit (decide (s.seqr.phase = .rerun) || decide (1 < s.seqr.attempt)) 1
    + bit s.seqr.late 0

/-- Tick sequencer registers. -/
def tickWord (s : State) (r : Nat) : Nat :=
  match r with
  | 0x00 => bit s.seqr.lateEvtEn 8 + bit s.seqr.external 0
  | 0x04 => s.seqr.period
  | 0x08 => tickStatus s
  | 0x10 => halfWord s.seqr.count false
  | 0x14 => halfWord s.seqr.count true
  | 0x18 => halfWord s.seqr.lastCommitted false
  | 0x1C => halfWord s.seqr.lastCommitted true
  | 0x40 => s.seqr.wrapEn.toNat
  | _ => 0

/-- Quadrant regulator registers. -/
def quadWord (s : State) (q r : Nat) : Nat :=
  let k := s.quadAt q
  match r with
  | 0x00 => k.sliceRate
  | 0x04 => k.streamRate
  | 0x08 => bucket k.sliceRate s.seqr.period
  | 0x0C => bucket k.streamRate s.seqr.period
  | 0x10 => k.sliceLevel
  | 0x14 => k.streamLevel
  | 0x28 => bit k.rateReject 7 + bit (k.slicePend.isSome || k.streamPend.isSome) 6 + (s.thermAt q).band * 16
  | _ => 0

/-- Memory configuration registers. -/
def memWord (s : State) (r : Nat) : Nat :=
  match r with
  | 0x00 => s.cfg.globalSteps
  | 0x04 => bit s.cfg.memReject 2 + bit s.cfg.zeroing 1 + bit s.cfg.stepsPend.isSome 0
  | 0x08 => halfWord (globalSize s.cfg.globalSteps) false
  | 0x0C => halfWord (globalSize s.cfg.globalSteps) true
  | 0x10 => privateSize s.cfg.globalSteps
  | _ => 0

/-- Crumb control registers. -/
def crumbCtlWord (s : State) (r : Nat) : Nat :=
  match r with
  | 0x00 => s.cfg.budget
  | 0x04 => s.cfg.effective * 16 + bit s.cfg.budgetReject 1 + bit s.cfg.budgetPend.isSome 0
  | 0x08 => 5 * s.seqr.tick % 12
  | _ => 0

/-- KV control registers. -/
def kvWord (s : State) (r : Nat) : Nat :=
  match r with
  | 0x00 => s.cfg.storeLowWater.toNat
  | 0x04 => s.cfg.poolLowWater.toNat
  | 0x08 => s.cfg.storeFreeMin
  | _ => 0

/-- Mesh registers. -/
def meshWord (s : State) (n r : Nat) : Nat :=
  let k := s.stackAt n
  match r with
  | 0x00 => bit k.meshSlow 2 + bit k.eastSlow 1 + bit k.westSlow 0
  | _ => 0

/-- WIDTH and DOWN of an optical port, from bit 0. -/
def opticalBits (m : LaneMap) : Nat := (if m.width = 24 then 1 else if m.width = 16 then 2 else if m.width = 8 then 3 else 0) + bit (m.width == 0) 2

/-- Stack link registers. -/
def linkWord (s : State) (n r : Nat) : Nat :=
  let k := s.stackAt n
  let bad (m : LaneMap) (rx hi : Bool) : Nat := halfWord (if rx then m.badRx.toNat else m.badTx.toNat) hi
  match r with
  | 0x00 => bit k.refreshOk 11 + bit (s.enginePort n 8 == 1) 10 + bit (k.bundle.width == 0) 9
      + (if k.bundle.width = 16 then 1 else if k.bundle.width = 8 then 2 else 0) * 128 + opticalBits k.op1 * 16 + opticalBits k.op0 * 2
  | 0x04 => k.op0.gen.toNat
  | 0x08 => k.op1.gen.toNat
  | 0x0C => k.bundle.gen.toNat
  | 0x10 => bad k.op0 false false
  | 0x14 => bad k.op0 false true
  | 0x18 => bad k.op0 true false
  | 0x1C => bad k.op0 true true
  | 0x20 => bad k.op1 false false
  | 0x24 => bad k.op1 false true
  | 0x28 => bad k.op1 true false
  | 0x2C => bad k.op1 true true
  | 0x30 => bad k.bundle false false
  | 0x34 => bad k.bundle false true
  | 0x38 => bad k.bundle true false
  | 0x3C => bad k.bundle true true
  | _ => 0

/-- I/O-die link registers. -/
def ioLinkWord (s : State) (r : Nat) : Nat :=
  match r with
  | 0x00 => s.cfg.devAddr.toNat
  | 0x04 => s.cfg.dims.toNat
  | 0x08 => s.cfg.globalWaves
  | 0x0C => bit s.pins.laserSpareOk 3 + bit (s.pins.laserActive == 1) 2 + bit s.cfg.linkReject 1 + bit s.cfg.wavesPend.isSome 0
  | _ =>
    if 0x10 ≤ r ∧ r < 0x70 then
      let p := s.portAt ((r - 0x10) / 0x10)
      if r % 0x10 = 0 then (p.badTx ||| p.badRx).toNat * 2 ^ 12 + p.peer.toNat * 8 + bit p.miswire 2 + bit (p.up && p.width == 4) 1 + bit p.up 0
      else if r % 0x10 = 4 then p.gen.toNat else 0
    else 0

/-- Device integrity registers. MAX_RECOVERY_NS shows 32 bits of a longer recovery, modulo 2^32 (R304 gives no limit; log 102, DESIGN
CHOICE). -/
def integrityWord (s : State) (r : Nat) : Nat :=
  match r with
  | 0x00 => s.drain.toNat
  | 0x04 => bit s.scrubPaused 1 + bit s.injectArmed 0
  | 0x08 => halfWord s.scrubPassTick false
  | 0x0C => halfWord s.scrubPassTick true
  | 0x20 => s.seqr.maxRecovery % 2 ^ 32
  | 0x30 => halfWord s.logNext false
  | 0x34 => halfWord s.logNext true
  | _ => 0

/-- Quadrant sensor registers. -/
def sensorWord (s : State) (q r : Nat) : Nat :=
  let t := s.thermAt q
  let i16 (x : Int) : Nat := (BitVec.ofInt 16 x).toNat
  match r with
  | 0x00 => t.b.toNat * 65536 + t.a.toNat
  | 0x04 => t.c.toNat
  | 0x08 => i16 t.l * 65536 + i16 t.cp
  | 0x0C => (100 * (8960 - 7 * t.f) / 8960) * 256 + bit t.takesPart 4 + bit t.cFailed 3 + bit t.bFailed 2 + bit t.aFailed 1 + bit t.split 0
  | _ => 0

/-- Bits of the domains that are on, from domain `d` on. -/
def domainBits (s : State) (d n : Nat) : Nat := (List.range n).foldl (fun m i => m + if s.power.off.contains (d + i) then 0 else 2 ^ i) 0

/-- Device thermal and power registers. -/
def thermalWord (s : State) (r : Nat) : Nat :=
  let p := s.power
  match r with
  | 0x00 => p.inlet.toNat
  | 0x04 => p.flow.toNat
  | 0x08 => p.flowMin.toNat
  | 0x0C => p.capW
  | 0x10 => p.throttleCapW
  | 0x14 => p.degradedCapW
  | 0x18 => p.forecastCapW
  | 0x1C => bit p.warmupEn 8 + bit p.rackLatch 7 + bit p.reportLost 6 + bit p.warmup 5 + bit p.coldHold 4 + bit p.coolantStop 3
      + bit p.degraded 2 + min p.dsteps 3
  | 0x20 => p.state.code
  | 0x40 => domainBits s 0 32
  | 0x44 => domainBits s 32 32
  | 0x48 => domainBits s 64 32
  | 0x4C => domainBits s 96 28
  | _ => 0

/-- Host interface registers. -/
def hostWord (s : State) (r : Nat) : Nat :=
  match r with
  | 0x00 => halfWord s.host.bar2Base false
  | 0x04 => halfWord s.host.bar2Base true
  | 0x08 => bit s.host.cfgReject 2 + bit (!s.host.memHolders.isEmpty) 1 + bit (!s.host.regHolders.isEmpty) 0
  | _ => 0

/-- Security registers. -/
def securityWord (s : State) (r : Nat) : Nat :=
  match r with
  | 0x00 => bit s.tapOpen 9 + bit s.mram.vendorOk 8 + s.debugLevel * 16 + s.mram.life.level * 4 + s.mram.life.code
  | 0x08 => halfWord s.mram.nextIndex false
  | 0x0C => halfWord s.mram.nextIndex true
  | 0x10 => s.mram.svnFloor
  | 0x14 => s.hearth.svn
  | 0x28 => s.debugSessions
  | 0x2C => bit s.signingStopped 0
  | _ => 0

/-- A word of a slice's remap block (R290). -/
def remapWord (s : State) (site r : Nat) : Nat :=
  match Tab.get s.faultMap.remaps site with
  | none => 0
  | some b =>
    if r < 0x40 then
      match Tab.get b.entries (r / 4) with
      | some e => 2 ^ 31 + bit e.repeated 30 + bit e.lock 29 + e.spare * 2 ^ 26 + e.bank * 2 ^ 20 + e.row * 2 ^ 9
      | none => 0
    else if r < 0x70 then (List.range 4).foldl (fun n i => n + (Tab.getD b.used (r - 0x40 + i) 0).toNat * 256 ^ i) 0
    else 0

/-- A word of a block other than counters. -/
def Block.plain (b : Block) (s : State) (r : Nat) : Nat :=
  match b with
  | .host => hostWord s r
  | .tick => tickWord s r
  | .mem => memWord s r
  | .crumb => crumbCtlWord s r
  | .kv => kvWord s r
  | .ioLink => ioLinkWord s r
  | .integrity => integrityWord s r
  | .thermal => thermalWord s r
  | .security => securityWord s r
  | .quad q => quadWord s q r
  | .mesh n => meshWord s n r
  | .link n => linkWord s n r
  | .stackIntegrity _ => 0
  | .sensor q => sensorWord s q r
  | .remap site => remapWord s site r

/-- An aligned 32-bit word of the expert ranges. -/
def expertWord (s : State) (off : Nat) : Nat :=
  match blockAt off with
  | none => 0
  | some (b, r) =>
    match b.counters with
    | none => b.plain s r
    | some c =>
      match counterWord s c r with
      | some v => v
      | none => b.plain s r + if r = c.ovf then ovfBits s c else 0

/-- The byte of words at an offset. -/
def wordByte (f : Nat → Nat) (off : Nat) : Byte := BitVec.ofNat 8 (f (off / 4 * 4) / 256 ^ (off % 4))

/-- Bytes of the expert ranges, whole words at a time. -/
def expertBytes (s : State) (off n : Nat) : List Byte := (List.range ((n + 3) / 4)).flatMap fun i => leBytes 4 (expertWord s (off + 4 * i))

/-! ## Proof log (R363-R366) -/

/-- Codes of START_KIND. -/
def StartKind.code : StartKind → Nat
  | .cold => 0 | .rackRestart => 1 | .rejoin => 2 | .powerOn => 3 | .hearthRestart => 4

/-- A 64-byte record with its CHECK. -/
def withCheck (l : List Byte) : List Byte := let b := slice l 0 60; b ++ leBytes 4 (crc32c b).toNat

/-- A LOG_INDEX, or all ones for none. -/
def logWord (o : Option Nat) : Nat := match o with | some i => i | none => 2 ^ 64 - 1

/-- A record of the proof log. -/
def ProofRec.bytes : ProofRec → List Byte
  | .stage n scope kind result cause endNs durUs tested failed detail => withCheck (
      [1] ++ leBytes 1 n ++ leBytes 1 scope ++ leBytes 1 kind.code ++ leBytes 1 result ++ [0] ++ leBytes 2 cause ++ leBytes 8 endNs
        ++ leBytes 4 durUs ++ leBytes 4 tested ++ leBytes 4 failed ++ detail.flatMap fun d => leBytes 4 d)
  | .finding n scope kind u site index source outcome flags detail log => withCheck (
      [2] ++ leBytes 1 n ++ leBytes 1 scope ++ leBytes 1 kind.code ++ leBytes 1 u ++ leBytes 1 site ++ leBytes 1 index
        ++ leBytes 1 source ++ leBytes 1 outcome ++ leBytes 1 flags ++ [0, 0] ++ leBytes 4 detail ++ leBytes 8 (logWord log))
  | .ready kind good factoryGood holes failed bootOnly grade flags online drain narrow remaps gen readyNs fetchUs totalUs => withCheck (
      [3, 9, 0x1F] ++ leBytes 1 kind.code ++ leBytes 2 good ++ leBytes 2 factoryGood ++ leBytes 2 holes ++ leBytes 2 failed
        ++ leBytes 2 bootOnly ++ leBytes 1 grade ++ leBytes 1 flags ++ leBytes 4 online ++ leBytes 2 drain ++ leBytes 2 narrow
        ++ leBytes 4 remaps ++ leBytes 4 gen.toNat ++ leBytes 8 readyNs ++ leBytes 4 fetchUs ++ leBytes 4 totalUs)

/-- The proof log header. -/
def proofHeader (s : State) : List Byte :=
  let b := s.boot
  leBytes 2 1 ++ leBytes 1 (min b.last 9) ++ leBytes 1 (match b.st with | .running => 0 | .waiting => 1 | .ready => 2 | .halted => 3)
    ++ leBytes 1 b.kind.code ++ leBytes 1 (bitsOf [b.overflow, b.coldWait, b.fetchWait]) ++ leBytes 2 b.cause
    ++ leBytes 8 s.mram.bootCount ++ leBytes 4 b.records.length ++ leBytes 4 (match b.readyIndex with | some i => i | none => 0xFFFFFFFF)
    ++ List.replicate 40 0

/-- The byte of the proof log at an offset. -/
def proofByte (s : State) (o : Nat) : Byte :=
  if o < 64 then (proofHeader s).getD o 0
  else match s.boot.records[o / 64 - 1]? with
    | some r => r.bytes.getD (o % 64) 0
    | none => 0

/-! ## Mailboxes (R373, R374, R394) -/

/-- An event record. -/
def EventRec.bytes (r : EventRec) : List Byte :=
  slice (leBytes 8 r.index ++ leBytes 8 r.tick ++ leBytes 8 r.time ++ leBytes 2 r.ev.code
    ++ leBytes 1 (bitsOf [r.atOnce, r.injected, r.held]) ++ leBytes 1 0
    ++ leBytes 4 (match r.object with | some w => w % 2 ^ 32 | none => 0xFFFFFFFF) ++ leBytes 8 (logWord r.log)
    ++ r.detail.flatMap fun d => leBytes 8 d) 0 128

/-- A mailbox register word. -/
def mailboxWord (s : State) (n r : Nat) : Nat :=
  let m := s.mbAt n
  match r with
  | 0x00 => bit m.eventIrq 9 + bit m.doneIrq 8
  | 0x04 => m.lastStatus.toNat * 256 + bit m.eventLost 3 + bit m.overrun 2 + bit m.done 1 + bit m.busy 0
  | 0x08 => m.fn
  | 0x0C => m.eventVector.toNat * 65536 + m.doneVector.toNat
  | 0x10 => m.evHead.toNat
  | 0x14 => m.evTail.toNat
  | 0x18 => m.evMask.toNat
  | 0x1C => (ctrVal s (.evLost n)).val.toNat
  | 0x20 => bit (ctrVal s (.evLost n)).ovf 0
  | _ => 0

/-- A byte of a mailbox: registers, command message, response message, event ring. -/
def mailboxByte (s : State) (n o : Nat) : Byte :=
  let m := s.mbAt n
  if o < 0x40 then wordByte (mailboxWord s n) o
  else if o < 0x1000 then Mem.get m.area (o - 0x40)
  else if o < 0x2000 then (match m.resp with | some r => r.bytes.getD (o - 0x1000) 0 | none => 0)
  else match Tab.get m.ring ((o - 0x2000) / 128) with
    | some r => r.bytes.getD (o % 128) 0
    | none => 0

/-! ## BAR0 (R367, R368, R387) -/

/-- Expert register access is open (R386). -/
def State.regOpen (s : State) : Bool := !s.host.regHolders.isEmpty

/-- A byte of BAR0 as a function reads it: reserved offsets, mailboxes of other functions and closed expert ranges read zero. -/
def bar0Byte (s : State) (fn off : Nat) : Byte :=
  if Config.floorPlanOffset ≤ off ∧ off < Config.floorPlanOffset + 22144 then (fpRecord s).getD (off - Config.floorPlanOffset) 0
  else if off < 0x100000 then (capList s fn).getD off 0
  else if off < 0x200000 then proofByte s (off - 0x100000)
  else if 0x400000 ≤ off ∧ off < 0x800000 then
    let n := (off - 0x400000) / 0x4000
    if (s.mbAt n).fn = fn then mailboxByte s n (off % 0x4000) else 0
  else if 0x01000000 ≤ off ∧ off < 0x04000000 ∧ fn = 0 ∧ s.regOpen = true then wordByte (expertWord s) off
  else 0

end Sys2Proof.Machine
end

