-- ==== Sys2Proof/Machine/Reserve.lean ====
section
/-! DEFINITION. The reserve as software reads and writes it: descriptors, sequence records, layouts, pool records and page tables
in their stored form (R26, R27, R171, R174-R179, R188, R420). -/

namespace Sys2Proof.Machine

open Sys2Proof

/-! ## Rows and levels (R26, R420) -/

/-- The reserve row of a reserve offset. -/
def reserveRow (v : Nat) : Nat := v / 0x0C000000

/-- The debug level a row needs to be read. -/
def rowLevel (r : Nat) : Nat := if 11 ≤ r then 1 else if r ≤ 1 ∨ (3 ≤ r ∧ r ≤ 6) then 2 else 3

/-! ## Stored forms (R171, R175, R176, R178, R179) -/

/-- Codes of STATE of a page descriptor. -/
def FrameSt.code : FrameSt → Nat
  | .unused => 0 | .free => 1 | .allocated => 2 | .retired => 3

/-- A frame state of its code; reserved codes read as unused. -/
def FrameSt.ofCode (n : Nat) : FrameSt := match n with | 1 => .free | 2 => .allocated | 3 => .retired | _ => .unused

/-- NEXT of a free frame: the one after it on its pool's free list, or bit 31 at the end. -/
def State.nextFree (s : State) (pfn : Nat) : Nat :=
  let d := s.descOf pfn
  if d.st ≠ .free then 0
  else match Tab.get s.pools (poolKey d) with
    | none => 2 ^ 31
    | some p => match (p.free.dropWhile fun f => f != pfn).drop 1 with | [] => 2 ^ 31 | f :: _ => f

/-- A page descriptor. -/
def descBytes (s : State) (pfn : Nat) : List Byte :=
  let d := s.descOf pfn
  leBytes 2 d.lcid.toNat ++ leBytes 1 d.st.code ++ leBytes 1 d.pageLog2 ++ leBytes 4 d.off ++ leBytes 2 d.refs.toNat
    ++ leBytes 1 d.layout ++ leBytes 1 d.pool ++ leBytes 4 (s.nextFree pfn)

/-- A pool record; zero where the pool is unused. -/
def poolBytes (s : State) (key : Nat) : List Byte :=
  match Tab.get s.pools key with
  | none => List.replicate 32 0
  | some p =>
    leBytes 2 p.lcid.toNat ++ leBytes 1 p.layout ++ leBytes 1 p.pageLog2 ++ leBytes 4 p.base ++ leBytes 4 p.frames
      ++ leBytes 4 p.count ++ leBytes 4 (p.free.headD 0xFFFFFFFF) ++ leBytes 4 p.firstPfn ++ leBytes 1 1 ++ List.replicate 7 0

/-- The 16 bytes of a layout slot: the fields of R171 in its order, HEAD_DIM in two bytes and the others in one (log 47). -/
def layoutBytes (s : State) (slot : Nat) : List Byte :=
  match Tab.get s.layouts slot with
  | none => List.replicate 16 0
  | some l => leBytes 2 l.headDim ++ leBytes 1 l.fmt ++ leBytes 1 l.heads ++ leBytes 1 l.gqa ++ List.replicate 11 0

/-- A group's table changes of the tick stand in a shadow (R186). -/
def State.hasShadow (s : State) (slot group : Nat) : Bool := (s.shadowAt slot group).isSome

/-- A table-store index of a record; 0xFFFF_FFFF for none. -/
def tableField (t : Option Nat) : Nat := t.getD 0xFFFFFFFF

/-- A head-group entry: DIR is none while LENGTH is 0 (R178). -/
def groupBytes (s : State) (slot i : Nat) (g : Group) : List Byte :=
  leBytes 2 g.lcid.toNat ++ leBytes 1 g.layout ++ leBytes 1 g.pageLog2 ++ leBytes 4 g.len
    ++ leBytes 4 (tableField (if g.len = 0 then none else g.dir))
    ++ leBytes 4 (tableField ((s.shadowAt slot i).map fun h => h.dir))

/-- A sequence record. -/
def seqBytes (s : State) (slot : Nat) : List Byte :=
  match Tab.get s.seqs slot with
  | none => List.replicate 512 0
  | some r =>
    slice (leBytes 1 (if r.isOpen then 1 else 0) ++ leBytes 1 r.home ++ (leBytes 1 r.groups.length : List Byte) ++ leBytes 1 r.hold.toNat
      ++ leBytes 4 r.gen.toNat ++ leBytes 2 r.plan ++ List.replicate 54 (0 : Byte)
      ++ (List.range r.groups.length).flatMap fun i => match r.groups[i]? with | some g => groupBytes s slot i g | none => []) 0 512

/-- A table of a stack's store. A shadow table shows the tick's changes so far; a table of no sequence shows what it last held, zero if it
held nothing (log 46). -/
def tableBytes (s : State) (stack n : Nat) : List Byte :=
  let shadow := s.allShadows.any fun h => h.stack == stack && (h.dir == n || h.leaves.any fun e => e.2 == n)
  let t := (if shadow then s.shadowView else s).table stack n
  (List.range 64).flatMap fun j => leBytes 4 (Tab.getD t j 0)

/-- The open sequences of a stack that hold a table, as a directory or a leaf, committed or a copy. -/
def State.tableOwners (s : State) (stack n : Nat) : List Nat :=
  ((s.seqs.filter fun e => e.2.isOpen && e.2.groups.any fun g =>
      g.home == stack && match g.dir with | some d => d == n || (List.range 64).any (fun j => s.leafOf stack d j == some n) | none => false).map Prod.fst
    ++ (s.allShadows.filter fun h => h.stack == stack && (h.dir == n || h.leaves.any fun e => e.2 == n)).map fun h => h.slot).eraseDups

/-! ## Reading the reserve -/

/-- The structures of the KV area of a stack (R177): kind 0 descriptor, 1 sequence record, 2 layout, 3 pool, 4 table, with its
number, the offset in it and its size; none where the offset is reserved. -/
def kvPlace (v : Nat) : Option (Nat × Nat × Nat × Nat) :=
  if v < 0x25000000 then some (0, (v - 0x24000000) / 16, v % 16, 16)
  else if v < 0x29000000 then some (1, (v - 0x25000000) / 512, v % 512, 512)
  else if v < 0x29001000 then some (2, (v - 0x29000000) / 16, v % 16, 16)
  else if v < 0x2901F000 then some (3, (v - 0x29001000) / 32, v % 32, 32)
  else if v < 0x29100000 then none
  else some (4, (v - 0x29100000) / 256, v % 256, 256)

/-- The bytes of a structure of the KV area of a stack. -/
def kvBytes (s : State) (stack kind n : Nat) : List Byte :=
  match kind with
  | 0 => descBytes s (20 * n + stack)
  | 1 => (match Tab.get s.seqs n with | some r => if r.home = stack then seqBytes s n else List.replicate 512 0 | none => List.replicate 512 0)
  | 2 => (Tab.get s.layoutCopies (256 * stack + n)).getD (layoutBytes s n)
  | 3 => poolBytes s (16 * (240 * stack + n / 16) + n % 16)
  | _ => tableBytes s stack n

/-- A byte of row 2 of CS7 or CS12: the image stored there, whose length its header gives (R410), and the Hearth's working data after
it, which the spec does not lay out and which both stacks mirror (log 48). -/
def mirrorByte (s : State) (k stack o : Nat) : Byte :=
  let from_ := s.imageOff stack
  if s.hearth.mirrors.contains stack && decide (from_ ≤ o) && decide (o < from_ + s.imageLen stack) then s.byteAt (256 * stack + 47) o
  else Config.freeByte k (0x18000000 + o)

/-- The byte at a reserve offset, with draw `k` for what has no place in the spec: where plan images, journal and attribution records,
the event log, telemetry and staging lie within their rows (log 48). Row 2 reads zero but on CS7 and CS12, where it holds the
running image (R26). -/
def reserveByte (s : State) (k stack v : Nat) : Byte :=
  let r := reserveRow v
  if 3 ≤ r ∧ r ≤ 6 then
    match kvPlace v with
    | some (kind, n, o, _) => (kvBytes s stack kind n).getD o 0
    | none => 0
  else if r = 2 then (if stack = 7 ∨ stack = 12 then mirrorByte s k stack (v % 0x0C000000) else 0)
  else Config.freeByte k v

/-- `n` bytes at a reserve offset. -/
def reserveBytes (s : State) (k stack v n : Nat) : List Byte := (List.range n).map fun i => reserveByte s k stack (v + i)

/-! ## Reading device memory by its addresses -/

/-- The 64-byte lines a range of addresses touches. -/
def linesOf (a n : Nat) : List Nat := if n = 0 then [] else (List.range ((a + n - 1) / 64 + 1 - a / 64)).map fun i => 64 * (a / 64 + i)

/-- A line of device memory is delivered poisoned (R281). -/
def State.devPoison (s : State) (x : Nat) : Bool := match s.devLoc x with | some (_, site, loc) => s.linePoison site loc | none => false

/-- `n` bytes at a device memory address, and whether a line of them is poisoned; lines are read as the slice reads them. -/
def State.devRead (s : State) (k a n : Nat) : List Byte × Bool :=
  let byte (x : Nat) : Byte :=
    match s.devLoc x with
    | some (.reserve, _, _) => reserveByte s k ((x - devReserve) / 2 ^ 32) ((x - devReserve) % 2 ^ 32)
    | some (_, site, loc) => s.byteAt site loc
    | none => 0
  ((List.range n).map fun i => byte (a + i), (linesOf a n).any s.devPoison)

/-- What reading a range of device memory notes of the words in error (R280, R309). -/
def noteRange (a n : Nat) (s : State) : State :=
  (linesOf a n).foldl (fun t l => match s.devLoc l with | some (_, site, loc) => noteLine false site loc t | none => t) s

/-- A device memory address lies in the reserve. -/
def isReserve (a : Nat) : Bool := decide (devReserve ≤ a)

/-- The reserve row of a device memory address of the reserve. -/
def devRowOf (a : Nat) : Nat := reserveRow ((a - devReserve) % 2 ^ 32)

/-! ## Expert writes of the KV area (R188) -/

/-- What an expert write to the KV area meets. -/
inductive KvWrite where
  | denied | busy | allowed
deriving DecidableEq, Repr

/-- Every open sequence homed on a stack. -/
def State.homed (s : State) (stack : Nat) : List (Nat × SeqRec) := s.seqs.filter fun e => e.2.isOpen && e.2.home == stack

/-- The sequences a structure of the KV area serves: that of the record, those of the table, for a descriptor or pool record every open
sequence homed on the stack, and none for a layout copy. -/
def State.kvServes (s : State) (stack kind n : Nat) : List Nat :=
  match kind with
  | 1 => if (s.homed stack).any fun e => e.1 == n then [n] else []
  | 2 => []
  | 4 => s.tableOwners stack n
  | _ => (s.homed stack).map Prod.fst

/-- Whether an expert write to a structure is allowed. -/
def State.kvAllows (s : State) (stack kind n : Nat) : KvWrite :=
  let l := s.kvServes stack kind n
  let held (i : Nat) : Bool := match s.seqAt i with | some r => decide (r.hold ≠ 0) | none => true
  let shadow (i : Nat) : Bool := (List.range (s.groupsOf i).length).any fun g => s.hasShadow i g
  if l.any fun i => !held i then .denied else if l.any shadow then .busy else .allowed

/-- A list with bytes put at an offset. -/
def putAt (l : List Byte) (o : Nat) (b : List Byte) : List Byte := (List.range l.length).map fun i => if o ≤ i then b.getD (i - o) (l.getD i 0) else l.getD i 0

/-- A free list relinked: after `pfn` comes `next` and what followed it. -/
def relink (l : List Nat) (pfn next : Nat) : List Nat :=
  let before := (l.takeWhile fun f => f != pfn) ++ [pfn]
  if 2 ^ 31 ≤ next then before else before ++ next % 2 ^ 24 :: (l.dropWhile fun f => f != next % 2 ^ 24).drop 1

/-- A descriptor taken from its bytes. -/
def putDesc (pfn : Nat) (b : List Byte) (s : State) : State :=
  let d : Desc := { lcid := BitVec.ofNat 16 (field b 0 2), st := FrameSt.ofCode (field b 2 1), pageLog2 := field b 3 1, off := field b 4 4,
                    refs := BitVec.ofNat 16 (field b 8 2), layout := field b 10 1, pool := field b 11 1 }
  let old := s.nextFree pfn
  let t := s.setDesc pfn d
  if d.st = .free ∧ field b 12 4 ≠ old then
    match Tab.get t.pools (poolKey d) with
    | some p => { t with pools := Tab.set t.pools (poolKey d) { p with free := relink p.free pfn (field b 12 4) } }
    | none => t
  else t

/-- A pool record taken from its bytes: FREE_HEAD begins its list. -/
def putPool (key : Nat) (b : List Byte) (s : State) : State :=
  if field b 24 1 = 0 then { s with pools := Tab.del s.pools key }
  else
    let old := (Tab.get s.pools key).getD ⟨0, 0, 0, 0, 0, 0, [], 0, 0, 0, false⟩
    let h := field b 16 4
    let free := if h = 0xFFFFFFFF then [] else if old.free.head? = some h then old.free
      else h % 2 ^ 24 :: (old.free.dropWhile fun f => f != h % 2 ^ 24).drop 1
    { s with pools := Tab.set s.pools key { old with
        lcid := BitVec.ofNat 16 (field b 0 2), layout := field b 2 1, pageLog2 := field b 3 1, base := field b 4 4, frames := field b 8 4,
        count := field b 12 4, firstPfn := field b 20 4, free := free } }

/-- A sequence record taken from its bytes. A SHADOW written names a directory that the next commit moves into DIR; DIR of a group of
LENGTH 0, which reads as none, stays (R178, R186, log 46). -/
def putSeq (slot : Nat) (b : List Byte) (s : State) : State :=
  let old := (Tab.get s.seqs slot).getD { isOpen := false, home := 0, groups := [], hold := 0, gen := 0, plan := 0xFFFF, owner := 0, fn := 0 }
  let index (o : Nat) : Option Nat := if field b o 4 = 0xFFFFFFFF then none else some (field b o 4)
  let group (i : Nat) : Group :=
    let g := old.groups.getD i Group.init
    let len := field b (68 + 16 * i) 4
    { g with lcid := BitVec.ofNat 16 (field b (64 + 16 * i) 2), layout := field b (66 + 16 * i) 1, pageLog2 := field b (67 + 16 * i) 1,
             len := len, dir := if len = 0 then g.dir else index (72 + 16 * i) }
  let gs := (List.range (min 16 (field b 2 1))).map group
  let t := s.setSeq slot { old with
    isOpen := decide (field b 0 1 = 1), home := field b 1 1, hold := BitVec.ofNat 4 (field b 3 1), gen := BitVec.ofNat 32 (field b 4 4),
    plan := field b 8 2, groups := gs }
  (List.range gs.length).foldl
    (fun t i =>
      match index (76 + 16 * i), gs[i]? with
      | some d, some g => { t with shadows := putShadow ⟨slot, i, g.home, d, []⟩ t.shadows }
      | _, _ => t) t

/-- A table taken from its bytes. -/
def putTable (stack n : Nat) (b : List Byte) (s : State) : State :=
  s.setTable stack n ((List.range 64).map fun j => (j, field b (4 * j) 4))

/-- A structure of the KV area of a stack taken from its bytes. A layout slot here is a copy, which nothing else
reads. -/
def putKv (stack kind n : Nat) (b : List Byte) (s : State) : State :=
  match kind with
  | 0 => putDesc (20 * n + stack) b s
  | 1 => putSeq n b s
  | 2 => { s with layoutCopies := Tab.set s.layoutCopies (256 * stack + n) b }
  | 3 => putPool (16 * (240 * stack + n / 16) + n % 16) b s
  | _ => putTable stack n b s

/-- The structures a write of `n` bytes at a reserve offset touches, with the part of the write that falls in each: kind, number,
offset in the structure, first byte and count. -/
def kvParts (v n : Nat) : List (Nat × Nat × Nat × Nat × Nat) :=
  (List.range n).filterMap fun i =>
    match kvPlace (v + i) with
    | some (kind, k, o, size) => if i = 0 ∨ o = 0 then some (kind, k, o, i, min (size - o) (n - i)) else none
    | none => none

/-- An expert write of rows 3-6 of a reserve that R188 allows: applied at once, with GENERATION to follow at the next commit. -/
def writeKv (stack v : Nat) (data : List Byte) (s : State) : State :=
  (kvParts v data.length).foldl
    (fun t p =>
      let b := kvBytes t stack p.1 p.2.1
      let l := s.kvServes stack p.1 p.2.1
      let u := putKv stack p.1 p.2.1 (putAt b p.2.2.1 (slice data p.2.2.2.1 p.2.2.2.2)) t
      { u with regWrites := u.regWrites ++ (l.filter fun i => !u.regWrites.contains (.genBump i)).map Change.genBump }) s

end Sys2Proof.Machine
end

