-- ==== Sys2Proof/Machine/Host.lean ====
section
/-! DEFINITION. The host's own accesses: BAR2, and writes of registers outside the mailboxes (R4, R7, R30-R32, R58, R59, R130, R132,
R136, R157, R188, R208, R264, R274, R282, R315, R346, R368, R369, R380, R387, R401, R459). -/

namespace Sys2Proof.Machine

open Sys2Proof

/-! ## BAR2 (R130, R188, R282, R369) -/

/-- Expert memory access is open (R386). -/
def State.memOpen (s : State) : Bool := !s.host.memHolders.isEmpty

/-- A reserve address that the debug level in force does not let BAR2 reach (R27, R420): a write only rows 3-6. -/
def State.reserveShut (s : State) (a : Nat) (write : Bool) : Bool :=
  isReserve a && (decide (s.debugLevel < rowLevel (devRowOf a)) || (write && !(decide (3 ≤ devRowOf a) && decide (devRowOf a ≤ 6))))

/-- The target of an address cannot be reached, is being zeroed, or the device has halted. -/
def State.bar2Gone (s : State) (a : Nat) : Bool :=
  decide (s.boot.st = .halted)
    || (match s.devLoc a with
        | some (.reserve, site, _) => s.sliceShut site
        | some (_, site, _) => s.sliceShut site || s.cfg.zeroing
        | none => false)

/-- The first row of Table: BAR2 outcomes that an access meets: 1 closed, 2 no memory, 3 reserve, 4 unreachable, 0 none. -/
def State.bar2Outcome (s : State) (a n : Nat) (write : Bool) : Nat :=
  let l := linesOf a n
  if !s.memOpen then 1
  else if l.any fun x => (s.devLoc x).isNone then 2
  else if l.any fun x => s.reserveShut x write then 3
  else if l.any s.bar2Gone then 4
  else 0

/-- The counter of a BAR2 outcome. -/
def countBar2 (k : Nat) (s : State) : State :=
  match k with
  | 1 => devInc .bar2Denied 1 s
  | 2 => devInc .bar2Ur 1 s
  | 3 => devInc .bar2Denied 1 s
  | 4 => devInc .bar2Unavail 1 s
  | _ => s

/-- The answer to a BAR2 read. -/
def bar2Answer (code : Nat) (b : List Byte) (s : State) : State := { s with host := { s.host with bar2Answer := (code, b) } }

/-- A range of BAR2 that lies in it, while the host port is up. -/
def State.bar2In (s : State) (off n : Nat) : Bool := s.pins.hostUp && decide (0 < n) && decide (off + n ≤ 2 ^ 36)

/-- BAR2_READ. -/
def execBar2Read (off len : Nat) (s : State) : Out :=
  if !s.bar2In off len then skip s
  else
    let a := s.host.bar2Base + off
    match s.bar2Outcome a len false with
    | 0 =>
      let (k, t) := draw s
      let r := s.devRead k a len
      .next (bar2Answer (if r.2 then 3 else 0) r.1 (noteRange a len t))
    | 2 => .next (bar2Answer 2 [] (countBar2 2 s))
    | 4 => let (k, t) := draw s; .next (bar2Answer 3 ((List.range len).map fun i => Config.freeByte k i) (countBar2 4 t))
    | c => .next (bar2Answer 1 [] (countBar2 c s))

/-- One 64-bit word of a BAR2 write to user-visible memory: `lo` and `hi` bound the bytes of it that are written. -/
def bar2Word (site loc lo hi : Nat) (bytes : List Byte) (s : State) : State :=
  let a := s.phys site loc
  let t := if lo = 0 ∧ hi = 8 then s else
    match s.wordSt (a / 8) with
    | .corrupt => noteCorrected false site loc s
    | .uncorrectable => noteUncorrectable false site loc s
    | _ => s
  let x : WordSt := if lo = 0 ∧ hi = 8 then .clean else
    match s.wordSt (a / 8) with
    | .uncorrectable => .poison
    | .poison => .poison
    | _ => .clean
  { t with dram := Mem.write t.dram (a + lo) bytes }.setWord (a / 8) x

/-- A BAR2 write to user-visible memory, code word by code word (R130). -/
def bar2Words (a : Nat) (data : List Byte) (s : State) : State :=
  let stop := a + data.length
  (List.range ((stop + 7) / 8 - a / 8)).foldl
    (fun t i =>
      let w := 8 * (a / 8 + i)
      let lo := max a w
      let hi := min stop (w + 8)
      match t.devLoc w with
      | some (_, site, loc) => bar2Word site loc (lo - w) (hi - w) (slice data (lo - a) (hi - lo)) t
      | none => t) s

/-- Every line a poisoned write touches becomes poisoned (R282). -/
def poisonLines (a n : Nat) (s : State) : State :=
  (linesOf a n).foldl
    (fun t l => match t.devLoc l with
      | some (_, site, loc) => (List.range 8).foldl (fun t i => t.setWord (t.phys site loc / 8 + i) .poison) t
      | none => t) s

/-- The words of a range that a write covers whole have clean codes after it (R130). -/
def cleanWords (a n : Nat) (s : State) : State :=
  (List.range ((a + n) / 8 - (a + 7) / 8)).foldl
    (fun t i => match t.devLoc (8 * ((a + 7) / 8 + i)) with
      | some (_, site, loc) => t.setWord (t.phys site loc / 8) .clean
      | none => t) s

/-- What a write of `n` bytes leaves of the codes of its lines: poison where it came poisoned (R282). -/
def writeCodes (poisoned : Bool) (a n : Nat) (s : State) : State := if poisoned then poisonLines a n s else s

/-- A BAR2 write to rows 3-6 of a reserve: refused where R188 says so, with DENIED counted (DEDUCED, log 49); a refused write leaves
its lines as they were. -/
def bar2Reserve (a : Nat) (data : List Byte) (poisoned : Bool) (s : State) : State :=
  let stack := (a - devReserve) / 2 ^ 32
  let v := (a - devReserve) % 2 ^ 32
  let l := (kvParts v data.length).map fun p => s.kvAllows stack p.1 p.2.1
  if l.contains .denied then devInc .bar2Denied 1 s
  else if l.contains .busy then s
  else writeCodes poisoned a data.length (cleanWords a data.length (writeKv stack v data s))

/-- BAR2_WRITE. -/
def execBar2Write (off : Nat) (data : List Byte) (poisoned : Bool) (s : State) : Out :=
  if !s.bar2In off data.length then skip s
  else
    let a := s.host.bar2Base + off
    match s.bar2Outcome a data.length true with
    | 0 =>
      .next (if isReserve a then bar2Reserve a data poisoned s else writeCodes poisoned a data.length (bar2Words a data s))
    | c => .next (countBar2 c s)

/-! ## Fields that take effect at the next commit (R380, R459) -/

/-- Two register writes to one field: the later replaces the earlier. -/
def sameField : Change → Change → Bool
  | .period _, .period _ => true
  | .wrapEn _, .wrapEn _ => true
  | .rate q a _, .rate r b _ => q == r && a == b
  | .budget _, .budget _ => true
  | .globalSteps _, .globalSteps _ => true
  | .globalWaves _, .globalWaves _ => true
  | .flowMin _, .flowMin _ => true
  | .warmupEn _, .warmupEn _ => true
  | _, _ => false

/-- A register write that waits for the next commit. -/
def regWrite (c : Change) (s : State) : State := { s with regWrites := s.regWrites.filter (fun x => !sameField x c) ++ [c] }

/-- The value of a pending field, shown by its PENDING bit. -/
def markPending (c : Change) (s : State) : State :=
  match c with
  | .period v => { s with seqr := { s.seqr with periodPend := some v } }
  | .wrapEn v => { s with seqr := { s.seqr with wrapPend := some v } }
  | .rate q stream v => s.setQuad q (if stream then { s.quadAt q with streamPend := some v } else { s.quadAt q with slicePend := some v })
  | .budget v => { s with cfg := { s.cfg with budgetPend := some v } }
  | .globalSteps v => { s with cfg := { s.cfg with stepsPend := some v } }
  | .globalWaves v => { s with cfg := { s.cfg with wavesPend := some v } }
  | .flowMin v => { s with power := { s.power with flowMinPend := some v } }
  | .warmupEn v => { s with power := { s.power with warmupPend := some v } }
  | _ => s

/-- The first admitted plan that a period does not fit, in slot order: one whose range leaves it out, or with which those before it
no longer fit (R30, DEDUCED, log 50). -/
def periodFail (s : State) (ns : Nat) (l : List (Nat × Plan)) : Option Nat :=
  ((List.range l.length).find? fun i =>
    (match l[i]? with | some e => decide (ns < e.2.periodMin) || decide (e.2.periodMax < ns) | none => false)
      || (firstFail s s.power.capW ns ((l.take (i + 1)).map Prod.snd)).isSome).bind fun i => (l[i]?).map Prod.fst

/-- The outcome of a new period with DETAIL (R30). -/
def periodOutcome (s : State) (ns : Nat) : Status × Nat :=
  if ns < 20000 ∨ 10000000 < ns ∨ ns % 40 ≠ 0 then (.nospt, 0)
  else match periodFail s ns s.willAdmit with
    | some i => (.limit, i)
    | none => (.ok, 0)

/-- A plan is admitted or a sequence slot is open, committed or by an earlier command of the tick (R136). -/
def State.inUse (s : State) : Bool :=
  !s.willAdmit.isEmpty || (s.seqs.any fun e => e.2.isOpen) || s.changes.any fun c => match c with | .seqOpen _ _ => true | _ => false

/-- GLOBAL_WAVES may take a value (R264). -/
def State.wavesOk (s : State) (v : Nat) : Bool :=
  decide (4 ≤ v) && decide (v ≤ 16)
    && (List.range 20).all fun n => s.stackGone n || decide (v ≤ s.portWidth n (s.enginePort n 8))

/-- Selects the tick source (R31, R32): internal boundaries stop when EXTERNAL is selected. -/
def selectSource (ext : Bool) (s : State) : State :=
  { s with seqr := { s.seqr with
      sourcePend := if ext = s.seqr.external then none else some ext
      awaitEdge := ext && !s.seqr.external } }

/-! ## Register words -/

/-- TICK_CTRL. In replay mode the source stays INTERNAL (R225). -/
def writeCtrl (v : BitVec 32) (s : State) : State :=
  let t : State := { s with seqr := { s.seqr with lateEvtEn := v.getLsbD 8 } }
  match v.toNat % 4 with
  | 0 => selectSource false t
  | 1 => if s.replay.isSome then t else selectSource true t
  | _ => t

/-- PERIOD_NS. -/
def writePeriod (v : BitVec 32) (s : State) : State :=
  if (periodOutcome s v.toNat).1 = .ok then markPending (.period v.toNat) (regWrite (.period v.toNat) s)
  else { s with seqr := { s.seqr with periodReject := true } }

/-- WRAP_EN. -/
def writeWrap (v : BitVec 32) (s : State) : State :=
  markPending (.wrapEn (v.setWidth 9)) (regWrite (.wrapEn (v.setWidth 9)) s)

/-- Largest values of the rates (R133). -/
def rateMax (stream : Bool) : Nat := if stream then 448 else 1920

/-- SLICE_RATE and STREAM_RATE. -/
def writeRate (q : Nat) (stream : Bool) (v : BitVec 32) (s : State) : State :=
  let x := v.toNat % if stream then 2 ^ 9 else 2 ^ 11
  if rateMax stream < x then s.setQuad q { s.quadAt q with rateReject := true }
  else markPending (.rate q stream x) (regWrite (.rate q stream x) s)

/-- GLOBAL_STEPS. -/
def writeSteps (v : BitVec 32) (s : State) : State :=
  if 6 < v.toNat % 16 ∨ s.inUse = true then { s with cfg := { s.cfg with memReject := true } }
  else markPending (.globalSteps (v.toNat % 16)) (regWrite (.globalSteps (v.toNat % 16)) s)

/-- BUDGET. -/
def writeBudget (v : BitVec 32) (s : State) : State :=
  let x := v.toNat % 16
  if x < 1 ∨ 8 < x then { s with cfg := { s.cfg with budgetReject := true } }
  else markPending (.budget x) (regWrite (.budget x) s)

/-- GLOBAL_WAVES. -/
def writeWaves (v : BitVec 32) (s : State) : State :=
  let x := v.toNat % 32
  if s.wavesOk x then markPending (.globalWaves x) (regWrite (.globalWaves x) s)
  else { s with cfg := { s.cfg with linkReject := true } }

/-- DEVADDR and DIMS: accepted only while every TLink port is down (R274, R279). -/
def writeAddr (dims : Bool) (v : BitVec 32) (s : State) : State :=
  if (List.range 6).any fun n => (s.portAt n).up then { s with cfg := { s.cfg with linkReject := true } }
  else if dims then { s with cfg := { s.cfg with dims := v.setWidth 6 } }
  else { s with cfg := { s.cfg with devAddr := v.setWidth 9 } }

/-- BAR2_BASE: a multiple of 1 GiB, applied at once (R369, R401). -/
def writeBase (v : Nat) (s : State) : State :=
  if v % 2 ^ 30 = 0 then { s with host := { s.host with bar2Base := v } } else { s with host := { s.host with cfgReject := true } }

/-- FLOW_MIN and WARMUP_EN, at the next commit (R346). -/
def writeThermal (r : Nat) (v : BitVec 32) (s : State) : State :=
  let go (c : Change) : State := markPending c (regWrite c s)
  if r = 0x08 then go (.flowMin (v.setWidth 16)) else if r = 0x1C then go (.warmupEn (v.getLsbD 8)) else s

/-- CNT_CLEAR of a block: the counters named clear at the next commit (R7). -/
def clearCounters (c : Counters) (v : BitVec 32) (s : State) : State :=
  let named := (List.range c.ctrs.length).filterMap fun i => if v.getLsbD i then (c.ctrs[i]?).map Prod.snd else none
  let perfs := match c.perf with | some p => if v.getLsbD c.ctrs.length then [p.2] else [] | none => []
  { s with clears := s.clears ++ named, perfClears := s.perfClears ++ perfs }

/-- Bits cleared by writing 1 (R4). -/
def writeOnes (b : Block) (r : Nat) (v : BitVec 32) (s : State) : State :=
  match b, r with
  | .tick, 0x08 => { s with seqr := { s.seqr with periodReject := s.seqr.periodReject && !v.getLsbD 5,
                                                  sourceLost := s.seqr.sourceLost && !v.getLsbD 3 } }
  | .quad q, 0x28 => if v.getLsbD 7 then s.setQuad q { s.quadAt q with rateReject := false } else s
  | .mem, 0x04 => { s with cfg := { s.cfg with memReject := s.cfg.memReject && !v.getLsbD 2 } }
  | .crumb, 0x04 => { s with cfg := { s.cfg with budgetReject := s.cfg.budgetReject && !v.getLsbD 1 } }
  | .ioLink, 0x0C => { s with cfg := { s.cfg with linkReject := s.cfg.linkReject && !v.getLsbD 1 } }
  | .host, 0x08 => { s with host := { s.host with cfgReject := s.host.cfgReject && !v.getLsbD 2 } }
  | _, _ => s

/-- RW fields that take their value at once and have no rule of their own, the RW1C bits, and CNT_CLEAR. -/
def writePlain (b : Block) (r : Nat) (v : BitVec 32) (s : State) : State :=
  match b, r with
  | .kv, 0x00 => { s with cfg := { s.cfg with storeLowWater := v } }
  | .kv, 0x04 => { s with cfg := { s.cfg with poolLowWater := v } }
  | _, _ =>
    match b.counters with
    | some c => if r = c.clear then clearCounters c v s else writeOnes b r v s
    | none => writeOnes b r v s

/-- A write of an aligned 32-bit word of the expert ranges. -/
def writeExpert (off : Nat) (v : BitVec 32) (s : State) : State :=
  match blockAt off with
  | none => s
  | some (b, r) =>
    match b, r with
    | .tick, 0x00 => writeCtrl v s
    | .tick, 0x04 => writePeriod v s
    | .tick, 0x40 => writeWrap v s
    | .quad q, 0x00 => writeRate q false v s
    | .quad q, 0x04 => writeRate q true v s
    | .mem, 0x00 => writeSteps v s
    | .crumb, 0x00 => writeBudget v s
    | .ioLink, 0x00 => writeAddr false v s
    | .ioLink, 0x04 => writeAddr true v s
    | .ioLink, 0x08 => writeWaves v s
    | .thermal, 0x08 => writeThermal 0x08 v s
    | .thermal, 0x1C => writeThermal 0x1C v s
    | .host, 0x00 => writeBase (s.host.bar2Base / 2 ^ 32 * 2 ^ 32 + v.toNat) s
    | .host, 0x04 => writeBase (v.toNat * 2 ^ 32 + s.host.bar2Base % 2 ^ 32) s
    | _, _ => writePlain b r v s

/-- The host reaches the expert ranges: its port is up and expert register access is open (R387). -/
def State.expertOpen (s : State) : Bool := s.pins.hostUp && s.regOpen

/-! ## The commands -/

/-- COUNTER_CLEAR: a write of the CNT_CLEAR word at a BAR0 offset. -/
def execCounterClear (off : Nat) (v : BitVec 32) (s : State) : Out :=
  match blockAt off with
  | some (b, r) =>
    match b.counters with
    | some c => when (s.expertOpen && r == c.clear) s (clearCounters c v s)
    | none => skip s
  | none => skip s

/-- PERIOD_NS_WRITE. -/
def execPeriodNsWrite (v : BitVec 32) (s : State) : Out := when s.expertOpen s (writePeriod v s)

/-- SOURCE_WRITE: a write of TICK_CTRL. -/
def execSourceWrite (v : BitVec 32) (s : State) : Out := when s.expertOpen s (writeCtrl v s)

/-- WRAP_EN_WRITE. -/
def execWrapEnWrite (v : BitVec 32) (s : State) : Out := when s.expertOpen s (writeWrap v s)

/-- RATE_WRITE. -/
def execRateWrite (q : Nat) (stream : Bool) (v : BitVec 32) (s : State) : Out :=
  unit (validQuad q) <| when s.expertOpen s (writeRate q stream v s)

/-- GLOBAL_STEPS_WRITE. -/
def execGlobalStepsWrite (v : BitVec 32) (s : State) : Out := when s.expertOpen s (writeSteps v s)

/-- BUDGET_WRITE. -/
def execBudgetWrite (v : BitVec 32) (s : State) : Out := when s.expertOpen s (writeBudget v s)

/-- GLOBAL_WAVES_WRITE. -/
def execGlobalWavesWrite (v : BitVec 32) (s : State) : Out := when s.expertOpen s (writeWaves v s)

/-- BAR2_BASE_WRITE. -/
def execBar2BaseWrite (v : BitVec 64) (s : State) : Out := when s.expertOpen s (writeBase v.toNat s)

/-- THERMAL_CONFIG_WRITE: a write of FLOW_MIN or of the word of WARMUP_EN, by its BAR0 offset. -/
def execThermalConfigWrite (off : Nat) (v : BitVec 32) (s : State) : Out :=
  match blockAt off with
  | some (.thermal, r) => when s.expertOpen s (writeThermal r v s)
  | _ => skip s

/-- MAX_RECOVERY_NS_READ: the value is returned and cleared (R4). -/
def execMaxRecoveryNsRead (s : State) : Out :=
  when s.pins.hostUp s
    (if s.regOpen then { s with host := { s.host with lastRead := BitVec.ofNat 64 (s.seqr.maxRecovery % 2 ^ 32) }, seqr := { s.seqr with maxRecovery := 0 } }
     else { s with host := { s.host with lastRead := 0 } })

end Sys2Proof.Machine
end

