-- ==== Sys2Proof/Machine/Mailbox.lean ====
section
/-! DEFINITION. Mailboxes: GO, the registers, the order of service, and the checks, responses and staged changes that every command
shares (R5, R9, R39, R56, R216, R307, R351, R373-R382, R384, R388, R389, R397). -/

namespace Sys2Proof

open Sys2Proof.Machine

/-! ## Arguments (R370, R389) -/

/-- Argument word `i` of a message. -/
def Msg.word (m : Msg) (i : Nat) : Nat := (m.words.getD i 0).toNat

/-- The object number of a message's object word, if its kind is `k` and its reserved bits are zero. -/
def Msg.obj (m : Msg) (k : Nat) : Option Nat := if m.word 0 / 2 ^ 32 = k then some (m.word 0 % 2 ^ 32) else none

/-- The object number where it is of a kind and below a bound. -/
def Msg.objIn (m : Msg) (k n : Nat) : Option Nat := (m.obj k).bind fun i => if i < n then some i else none

/-- LENGTH of the host buffer reference at word `i`. -/
def Msg.bufLen (m : Msg) (i : Nat) : Nat := m.word (i + 1) % 2 ^ 32

/-- The host buffer reference at word `i` is malformed. -/
def Msg.bufBad (m : Msg) (i : Nat) : Bool :=
  decide (m.word i % 64 ≠ 0) || decide (m.bufLen i % 64 ≠ 0) || decide (64 * 2 ^ 20 < m.bufLen i) || decide (m.word (i + 1) / 2 ^ 32 ≠ 0)

/-- The bytes DMA read from a buffer of `n` bytes. -/
def Msg.buf (m : Msg) (n : Nat) : List Byte := slice (m.dma.getD []) 0 n

/-- The operands of a command are those of the message in its mailbox. -/
def Msg.inBox (m : Msg) (op : Nat) (b : Mailbox) : Bool :=
  let h := Mem.read b.area 0 32
  field h 0 2 == op && field h 4 2 == m.session.toNat && field h 6 2 == m.tag.toNat && field h 8 4 == m.key.toNat
    && field h 12 4 == m.seq.toNat && ((slice h 16 16).any fun x => x != 0) == m.rsv
    && m.words == (List.range ((min (field h 2 2) 4000 + 7) / 8)).map fun i => BitVec.ofNat 64 (leNat (Mem.read b.area (32 + 8 * i) 8))

end Sys2Proof

namespace Sys2Proof.Machine

open Sys2Proof

/-! ## Messages (R377, R388) -/

/-- OPCODE of the message in a mailbox. -/
def Mailbox.opcode (m : Mailbox) : Nat := leNat (Mem.read m.area 0 2)

/-- LENGTH of the message in a mailbox. -/
def Mailbox.length (m : Mailbox) : Nat := leNat (Mem.read m.area 2 2)

/-- The last command of each group, by group (R388); SEC_ commands from 0x10 are those of R427. -/
def groupLast : List (Nat × Nat) :=
  [(1, 5), (2, 5), (3, 4), (4, 4), (5, 13), (6, 9), (7, 1), (8, 4), (9, 4), (10, 6), (11, 5), (12, 7), (13, 4), (14, 3), (15, 2), (16, 3)]

/-- A command carries an opcode. -/
def knownOp (op : Nat) : Bool :=
  (groupLast.any fun g => op / 256 == g.1 && decide (op % 256 ≤ g.2)) || (decide (0x0C10 ≤ op) && decide (op ≤ 0x0C17))

/-! ## Service (R307, R351, R376, R397, R399) -/

/-- Commands that MB0 takes while an image is waited for (R397). -/
def fetchOp (op : Nat) : Bool := op / 256 == 0x0F || op == 0x0E00 || op == 0x0E03

/-- The Hearth serves commands of mailboxes at all: from the end of P1, while it runs and no handover is under way. -/
def State.hearthServes (s : State) : Bool :=
  decide (s.boot.st ≠ .halted) && !s.boot.off && decide (2 ≤ s.boot.stage) && s.hearth.up && s.hearth.handover.isNone

/-- The Hearth serves a mailbox that holds an opcode. -/
def State.servesBox (s : State) (mb op : Nat) : Bool :=
  s.hearthServes && (s.boot.readyIndex.isNone || s.hearth.running || (mb == 0 && fetchOp op))

/-- Mailboxes whose command waits and can be served. -/
def State.waitingBoxes (s : State) : List Nat :=
  (s.mailboxes.filter fun e => e.2.busy && !e.2.served && s.servesBox e.1 e.2.opcode && knownOp e.2.opcode).map Prod.fst

/-- The mailbox next in the round robin: the first after the one served last. -/
def State.nextBox (s : State) : Option Nat :=
  let l := s.waitingBoxes
  match l.find? fun n => decide (s.hearth.lastServed < n) with
  | some n => some n
  | none => l.head?

/-- A mailbox has been served: one more command. -/
def countServed (mb : Nat) (s : State) : State := devIncP .commands 1 { s with hearth := { s.hearth with lastServed := mb } }

/-- Messages of unknown opcode are answered with NOSPT (R388, log 51). -/
def answerUnknown (s : State) : State :=
  (s.mailboxes.filter fun e => e.2.busy && !e.2.served && s.servesBox e.1 e.2.opcode && !knownOp e.2.opcode).foldl
    (fun t e => respond e.1
      { op := e.2.opcode, status := .nospt, stateful := false, host := false, detail := 0,
        seq := BitVec.ofNat 32 (leNat (Mem.read e.2.area 12 4)), tick := t.seqr.lastCommitted, progress := 0, body := [], data := [] }
      (countServed e.1 t)) s

/-! ## Mailbox registers (R373-R375) -/

/-- The word at 0x00: interrupt enables and GO. -/
def writeGo (n : Nat) (v : BitVec 32) (s : State) : State :=
  let m := { s.mbAt n with eventIrq := v.getLsbD 9, doneIrq := v.getLsbD 8 }
  if !v.getLsbD 0 then s.setMb n m
  else if m.busy then s.setMb n { m with overrun := true }
  else answerUnknown (s.setMb n { m with busy := true, served := false })

/-- EV_TAIL: not applied where it would pass EV_HEAD. -/
def writeTail (n : Nat) (v : BitVec 32) (s : State) : State :=
  let m := s.mbAt n
  let d := (v - m.evHead).toNat
  if 0 < d ∧ d < 2 ^ 31 then s else s.setMb n { m with evTail := v }

/-- A mailbox register word. -/
def writeBoxWord (n r : Nat) (v : BitVec 32) (s : State) : State :=
  let m := s.mbAt n
  match r with
  | 0x00 => writeGo n v s
  | 0x04 => s.setMb n { m with eventLost := m.eventLost && !v.getLsbD 3, overrun := m.overrun && !v.getLsbD 2, done := m.done && !v.getLsbD 1 }
  | 0x0C => s.setMb n { m with eventVector := v.extractLsb' 16 10, doneVector := v.extractLsb' 0 10 }
  | 0x14 => writeTail n v s
  | 0x18 => s.setMb n { m with evMask := v.setWidth 11 }
  | 0x20 => if v.getLsbD 1 then { s with clears := s.clears ++ [.evLost n] } else s
  | _ => s

/-- Bytes written to the command message: ignored while BUSY is set. -/
def writeArea (n o : Nat) (b : List Byte) (s : State) : State :=
  let m := s.mbAt n
  if m.busy then s else s.setMb n { m with area := Mem.write m.area o b }

/-- A write of up to eight bytes to a mailbox. -/
def writeBox (n o size : Nat) (v : BitVec 64) (s : State) : State :=
  if o < 0x40 then
    if (size = 4 ∧ o % 4 = 0) then writeBoxWord n o (v.setWidth 32) s
    else if size = 8 ∧ o % 8 = 0 then writeBoxWord n (o + 4) (v.extractLsb' 32 32) (writeBoxWord n o (v.setWidth 32) s)
    else s
  else if o < 0x1000 then writeArea n (o - 0x40) ((leBytes 8 v.toNat).take (min size (0x1000 - o))) s
  else s

/-- A write to the expert ranges: aligned 32 or 64 bits; BAR2_BASE is one register. -/
def writeRegs (off size : Nat) (v : BitVec 64) (s : State) : State :=
  if size = 4 ∧ off % 4 = 0 then writeExpert off (v.setWidth 32) s
  else if size = 8 ∧ off % 8 = 0 then
    if off = 0x03001000 then writeBase v.toNat s
    else writeExpert (off + 4) (v.extractLsb' 32 32) (writeExpert off (v.setWidth 32) s)
  else s

/-- The mailboxes are there: from the end of P1. -/
def State.boxesUp (s : State) : Bool := s.pins.hostUp && decide (2 ≤ s.boot.stage)

/-- MAILBOX_GO: a write of the word at 0x00 of a mailbox by its function. -/
def execMailboxGo (mb : Nat) (v : BitVec 32) (s : State) : Out :=
  unit (validMailbox mb) <| when s.boxesUp s (writeGo mb v s)

/-- EV_TAIL_WRITE. -/
def execEvTailWrite (mb : Nat) (v : BitVec 32) (s : State) : Out :=
  unit (validMailbox mb) <| when s.boxesUp s (writeTail mb v s)

/-- REGISTER_WRITE: a write at a BAR0 offset, of a mailbox by its function or of the expert ranges by the PF. Reserved offsets and
closed ranges ignore it (R368). -/
def execRegisterWrite (off size : Nat) (v : BitVec 64) (s : State) : Out :=
  if 0x400000 ≤ off ∧ off < 0x800000 then when s.boxesUp s (writeBox ((off - 0x400000) / 0x4000) (off % 0x4000) size v s)
  else when s.expertOpen s (writeRegs off size v s)

/-! ## Checks (R379, R382, R384) -/

/-- The grants, by bit. -/
def gPlan : Nat := 0
def gSeq : Nat := 1
def gIngest : Nat := 2
def gMem : Nat := 3
def gEvd : Nat := 4
def gConfig : Nat := 5
def gPower : Nat := 6
def gFault : Nat := 7
def gFirmware : Nat := 8
def gSecurity : Nat := 9
def gDebug : Nat := 10
def gExpertReg : Nat := 11
def gExpertMem : Nat := 12
def gAdmin : Nat := 13

/-- What a command needs: its grant, whether it needs a session, the owners of the objects it names, and whether replay mode allows
it. -/
structure Auth where
  grant : Option Nat
  session : Bool
  owners : List Nat
  replay : Bool
deriving DecidableEq, Repr

/-- The checks of a command's own rules. -/
structure Check where
  /-- A value is out of range or malformed. -/
  nospt : Bool
  /-- A DENIED reason. -/
  denied : Option Nat
  /-- The DMA read of its buffer failed. -/
  dma : Bool
  /-- The target is unreachable. -/
  gone : Bool
  busy : Bool
  /-- LIMIT, with DETAIL. -/
  limit : Option Nat
deriving DecidableEq, Repr

/-- Nothing stops the command. -/
def Check.ok : Check := ⟨false, none, false, false, false, none⟩

/-- The open session a message names, with its KEY, on a mailbox of its function. -/
def State.sessionOf (s : State) (m : Msg) : Option Session :=
  match Tab.get s.sessions m.session.toNat with
  | some x => if !x.pendingOpen && decide (x.key = m.key) && x.fn == s.mbFn m.mb then some x else none
  | none => none

/-- The session holds a grant; DEBUG only while its token has not lapsed (R416). -/
def Session.holds (x : Session) (g : Nat) : Bool := if g = gDebug then x.dbgLevel.isSome else x.grants.getLsbD g

/-- The DENIED reason of a message's session, grant and ownership. An orphaned object is owned by no session and needs ADMIN (log
52). -/
def authDenied (s : State) (a : Auth) (m : Msg) : Option Nat :=
  if m.session = 0 then (if a.session || decide (m.key ≠ 0) then some 1 else none)
  else match s.sessionOf m with
    | none => some 1
    | some x =>
      if (match a.grant with | some g => !x.holds g | none => false) then some 2
      else if a.owners.any (fun o => o != m.session.toNat) && !x.grants.getLsbD gAdmin then some 3
      else none

/-- Commands that the states Rest, Dormant and Rack serve (R338). -/
def restOp (op : Nat) : Bool := op / 256 == 9 || op / 256 == 10 || op == 0x0B00 || op / 256 == 15 || op / 256 == 12

/-- The stage or the power state does not allow the command (R338, R351). -/
def State.stageBusy (s : State) (mb op : Nat) : Bool :=
  (s.boot.readyIndex.isNone && !(mb == 0 && (op / 256 == 14 || op / 256 == 15))) || (s.asleep && !restOp op)

/-- The outcome of the checks of a command, in the order of R9 and R379; none where the command goes on. -/
def verdict (s : State) (op len : Nat) (a : Auth) (m : Msg) (c : Check) : Option (Status × Nat) :=
  if m.rsv || decide (4096 < m.session.toNat) || (s.mbAt m.mb).length != 8 * len || c.nospt then some (.nospt, 0)
  else match authDenied s a m with
    | some d => some (.denied, d)
    | none =>
      match c.denied with
      | some d => some (.denied, d)
      | none =>
        if s.replay.isSome && !a.replay then some (.denied, 7)
        else if (tagAge s.seqr.count m.tag).isNone then some (.stalemsg, 0)
        else if c.dma then some (.unavail, 1)
        else if c.gone then some (.unavail, 0)
        else if s.stageBusy m.mb op || c.busy then some (.busy, 0)
        else match c.limit with
          | some d => some (.limit, d)
          | none => none

/-! ## Responses -/

/-- A response to a message. -/
def respTo (op : Nat) (m : Msg) (st : Status) (detail progress : Nat) (body : List W64) (s : State) : Resp :=
  { op := op, status := st, stateful := false, host := false, detail := detail, seq := m.seq, tick := s.seqr.lastCommitted,
    progress := progress, body := body, data := [] }

/-- A command that changes nothing completes at once. -/
def complete (op : Nat) (m : Msg) (st : Status) (detail progress : Nat) (body : List W64) (s : State) : State :=
  respond m.mb (respTo op m st detail progress body s) s

/-- A command completes with data in its host buffer; a DMA write that fails gives UNAVAIL (R370). -/
def completeData (op : Nat) (m : Msg) (st : Status) (progress : Nat) (body : List W64) (data : List Byte) (s : State) : State :=
  if m.dmaWr then respond m.mb { respTo op m st 0 progress body s with host := true, data := data } s
  else complete op m .unavail 1 0 [] s

/-- The record of an accepted command (R216): its header and body. -/
def cmdRecord (m : Msg) (s : State) : CmdRec :=
  { tick := s.seqr.tick, mb := m.mb, bytes := Mem.read (s.mbAt m.mb).area 0 (32 + min (s.mbAt m.mb).length 4000) }

/-- A command is accepted with state changes: they are staged, and its response waits for their commit (R39, R376). -/
def accept (op : Nat) (m : Msg) (cs : List Change) (body : List W64) (s : State) : State :=
  let t := s.setMb m.mb { s.mbAt m.mb with served := true }
  { t with
    changes := t.changes ++ cs
    cmds := t.cmds ++ [cmdRecord m s]
    answers := t.answers ++ [{ mb := m.mb, resp := { respTo op m .ok 0 0 body s with stateful := true }, sent := false }] }

/-- A mailbox command: its message, opcode, number of body words, what it needs, its own checks, what a refusal leaves besides its
answer, and what it does. -/
structure Cmd where
  op : Nat
  len : Nat
  auth : State → Auth
  m : Msg
  check : State → Check
  miss : State → Status × Nat → State → State
  run : State → State

/-- A command whose refusal leaves nothing but its answer. -/
def cmd (op len : Nat) (a : State → Auth) (m : Msg) (c : State → Check) (run : State → State) : Cmd := ⟨op, len, a, m, c, fun _ _ t => t, run⟩

/-- A command whose refusal changes the state. -/
def cmdElse (op len : Nat) (a : State → Auth) (m : Msg) (c : State → Check) (miss : State → Status × Nat → State → State)
    (run : State → State) : Cmd := ⟨op, len, a, m, c, miss, run⟩

/-- A command is taken: its mailbox is the next served, and holds it. -/
def Cmd.taken (c : Cmd) (s : State) : Bool :=
  validMailbox c.m.mb && decide ((answerUnknown s).nextBox = some c.m.mb) && c.m.inBox c.op ((answerUnknown s).mbAt c.m.mb)

/-- The state once a command's mailbox has been served. -/
def Cmd.served (c : Cmd) (s : State) : State := countServed c.m.mb (answerUnknown s)

/-- What stops a command, if anything does. -/
def Cmd.refusal (c : Cmd) (s : State) : Option (Status × Nat) :=
  verdict (answerUnknown s) c.op c.len (c.auth (answerUnknown s)) c.m (c.check (answerUnknown s))

/-- Serves a command: it is taken where its mailbox is next and holds it, is checked, and is carried out or refused. -/
def serveCmd (c : Cmd) (s : State) : Out :=
  unit (validMailbox c.m.mb) <|
    if c.taken s then
      match c.refusal s with
      | some v => .next (c.miss (answerUnknown s) v (complete c.op c.m v.1 v.2 0 [] (c.served s)))
      | none => .next (c.run (c.served s))
    else skip s

/-! ## Items a form-R command returns (R390) -/

/-- Items of a read, each with the start point after it. -/
abbrev Items := List (List Byte × Nat)

/-- The whole items that fit a buffer, in order. -/
def fitItems : Nat → Items → Items
  | _, [] => []
  | n, x :: l => if x.1.length ≤ n then x :: fitItems (n - x.1.length) l else []

/-- A form-R command returns items from its start point: COUNT, NEXT, and the items in its buffer. -/
def readItems (op : Nat) (m : Msg) (items : Items) (s : State) : State :=
  let l := fitItems (m.bufLen 2) items
  let next := match l.getLast? with | some x => x.2 | none => m.word 1
  completeData op m .ok l.length [BitVec.ofNat 64 l.length, BitVec.ofNat 64 next] (l.flatMap Prod.fst) s

/-- Items numbered from 0, from a start point on. -/
def numbered (start : Nat) (l : List (List Byte)) : Items := ((List.range l.length).zip l).filterMap fun p => if start ≤ p.1 then some (p.2, p.1 + 1) else none

/-- What a command that only reads state and needs no grant needs (R382). -/
def readAuth : Auth := ⟨none, false, [], true⟩

/-- What a command that changes state under a grant needs. -/
def grantAuth (g : Nat) (owners : List Nat) (replay : Bool) : Auth := ⟨some g, true, owners, replay⟩

end Sys2Proof.Machine
end

