-- ==== Sys2Proof/Machine/TickCmds.lean ====
section
/-! DEFINITION. TICK_, QUOTA_, MEM_ and NET_ commands (R7, R30-R32, R58, R59, R132, R133, R136, R153, R154, R157, R170, R254, R369,
R388-R391, R420). -/

namespace Sys2Proof.Machine

open Sys2Proof

/-! ## Registers by command (log 53) -/

/-- The words of `n` bytes of registers from a BAR0 offset, each with the start point after it. -/
def regItems (s : State) (off n start : Nat) : Items := numbered start ((List.range (n / 4)).map fun i => leBytes 4 (expertWord s (off + 4 * i)))

/-- BAR0 offset of a register block of a stack. -/
def stackRegs (n r : Nat) : Nat := 0x01000000 + n * 0x100000 + r

/-- A form-R command: its grant, what word 0 must meet, and the items it reads from. -/
def readCmd (op : Nat) (a : Auth) (m : Msg) (c : State → Check) (items : State → Items) : Cmd :=
  cmd op 4 (fun _ => a) m (fun s => let k := c s; { k with nospt := k.nospt || m.bufBad 2 }) (fun t => readItems op m (items t) t)

/-- Nothing more than word 0 and the arguments is checked. -/
def formed (b : Bool) : Check := { Check.ok with nospt := !b }

/-- The form-A commands under CONFIG. -/
def configAuth (replay : Bool) : Auth := grantAuth gConfig [] replay

/-! ## TICK_ -/

/-- TICK_SET_PERIOD: word 1 is the period in ns; LIMIT names the plan slot that fails. -/
def cmdTickSetPeriod (m : Msg) : Cmd :=
  cmd 0x0300 2 (fun _ => configAuth true) m
    (fun s =>
      let r := periodOutcome s (m.word 1)
      { Check.ok with nospt := decide (m.word 0 ≠ 0) || decide (r.1 = .nospt), limit := if r.1 = .limit then some r.2 else none })
    (fun t => accept 0x0300 m [.period (m.word 1)] [] (markPending (.period (m.word 1)) t))

/-- TICK_SET_PERIOD. -/
def execTickSetPeriod (m : Msg) (s : State) : Out := serveCmd (cmdTickSetPeriod m) s

/-- TICK_SET_SOURCE: word 1 is 0 INTERNAL or 1 EXTERNAL, in effect from the next boundary (R31, log 15). -/
def cmdTickSetSource (m : Msg) : Cmd :=
  cmd 0x0301 2 (fun _ => configAuth false) m (fun _ => formed (decide (m.word 0 = 0) && decide (m.word 1 < 2)))
    (fun t => accept 0x0301 m [] [] (selectSource (decide (m.word 1 = 1)) t))

/-- TICK_SET_SOURCE. -/
def execTickSetSource (m : Msg) (s : State) : Out := serveCmd (cmdTickSetSource m) s

/-- TICK_READ: the tick sequencer registers. -/
def cmdTickRead (m : Msg) : Cmd :=
  readCmd 0x0302 readAuth m (fun _ => formed (decide (m.word 0 = 0))) (fun t => regItems t 0x03002000 0x44 (m.word 1))

/-- TICK_READ. -/
def execTickRead (m : Msg) (s : State) : Out := serveCmd (cmdTickRead m) s

/-- Counters cleared by a command: word 1 is CNT_CLEAR of a block. -/
def clearBy (op : Nat) (m : Msg) (b : Block) (t : State) : State :=
  match b.counters with
  | some c => accept op m [] [] (clearCounters c (BitVec.ofNat 32 (m.word 1)) t)
  | none => accept op m [] [] t

/-- TICK_CNT_CLEAR. -/
def cmdTickCntClear (m : Msg) : Cmd :=
  cmd 0x0303 2 (fun _ => configAuth false) m (fun _ => formed (decide (m.word 0 = 0) && decide (m.word 1 < 32))) (clearBy 0x0303 m .tick)

/-- TICK_CNT_CLEAR. -/
def execTickCntClear (m : Msg) (s : State) : Out := serveCmd (cmdTickCntClear m) s

/-- TICK_WRAP_EN. -/
def cmdTickWrapEn (m : Msg) : Cmd :=
  let c : Change := .wrapEn (BitVec.ofNat 9 (m.word 1))
  cmd 0x0304 2 (fun _ => configAuth false) m (fun _ => formed (decide (m.word 0 = 0) && decide (m.word 1 < 512)))
    (fun t => accept 0x0304 m [c] [] (markPending c t))

/-- TICK_WRAP_EN. -/
def execTickWrapEn (m : Msg) (s : State) : Out := serveCmd (cmdTickWrapEn m) s

/-! ## QUOTA_ -/

/-- QUOTA_SLICE_SET and QUOTA_STREAM_SET: word 0 the quadrant, word 1 the rate in GB/s. -/
def quotaSet (op : Nat) (stream : Bool) (m : Msg) : Cmd :=
  let c : Change := .rate (m.word 0 % 2 ^ 32) stream (m.word 1)
  cmd op 2 (fun _ => configAuth false) m (fun _ => formed ((m.objIn 4 80).isSome && decide (m.word 1 ≤ rateMax stream)))
    (fun t => accept op m [c] [] (markPending c t))

/-- QUOTA_SLICE_SET. -/
def cmdQuotaSliceSet (m : Msg) : Cmd := quotaSet 0x1000 false m

/-- QUOTA_SLICE_SET. -/
def execQuotaSliceSet (m : Msg) (s : State) : Out := serveCmd (cmdQuotaSliceSet m) s

/-- QUOTA_STREAM_SET. -/
def cmdQuotaStreamSet (m : Msg) : Cmd := quotaSet 0x1001 true m

/-- QUOTA_STREAM_SET. -/
def execQuotaStreamSet (m : Msg) (s : State) : Out := serveCmd (cmdQuotaStreamSet m) s

/-- QUOTA_CRUMB_SET: word 1 is BUDGET. -/
def cmdQuotaCrumbSet (m : Msg) : Cmd :=
  cmd 0x1002 2 (fun _ => configAuth false) m (fun _ => formed (decide (m.word 0 = 0) && decide (1 ≤ m.word 1) && decide (m.word 1 ≤ 8)))
    (fun t => accept 0x1002 m [.budget (m.word 1)] [] (markPending (.budget (m.word 1)) t))

/-- QUOTA_CRUMB_SET. -/
def execQuotaCrumbSet (m : Msg) (s : State) : Out := serveCmd (cmdQuotaCrumbSet m) s

/-- QUOTA_READ: the regulator registers of a quadrant, or the crumb control registers. -/
def cmdQuotaRead (m : Msg) : Cmd :=
  readCmd 0x1003 readAuth m (fun _ => formed (decide (m.word 0 = 0) || (m.objIn 4 80).isSome))
    (fun t => match m.obj 4 with
      | some q => regItems t (stackRegs (q / 4) (0x8000 + 0x40 * (q % 4))) 0x2C (m.word 1)
      | none => regItems t 0x03004000 0x24 (m.word 1))

/-- QUOTA_READ. -/
def execQuotaRead (m : Msg) (s : State) : Out := serveCmd (cmdQuotaRead m) s

/-! ## NET_ -/

/-- NET_READ: the mesh registers of a stack. -/
def cmdNetRead (m : Msg) : Cmd :=
  readCmd 0x0700 readAuth m (fun _ => formed (m.objIn 3 20).isSome)
    (fun t => regItems t (stackRegs (m.word 0 % 2 ^ 32) 0x9000) 0x28 (m.word 1))

/-- NET_READ. -/
def execNetRead (m : Msg) (s : State) : Out := serveCmd (cmdNetRead m) s

/-- NET_CNT_CLEAR. -/
def cmdNetCntClear (m : Msg) : Cmd :=
  cmd 0x0701 2 (fun _ => configAuth false) m (fun _ => formed ((m.objIn 3 20).isSome && decide (m.word 1 < 128)))
    (fun t => clearBy 0x0701 m (.mesh (m.word 0 % 2 ^ 32)) t)

/-- NET_CNT_CLEAR. -/
def execNetCntClear (m : Msg) (s : State) : Out := serveCmd (cmdNetCntClear m) s

/-! ## MEM_ -/

/-- The space a range of whole lines lies in; none where it leaves one. -/
def State.oneSpace (s : State) (a n : Nat) : Option DevSpace :=
  match s.devLoc a with
  | none => none
  | some p => if (linesOf a n).all fun l => (match s.devLoc l with | some q => q.1 == p.1 | none => false) then some p.1 else none

/-- Some slice of a range cannot be reached. -/
def State.rangeGone (s : State) (a n : Nat) : Bool :=
  (linesOf a n).any fun l => match s.devLoc l with | some p => s.sliceShut p.2.1 | none => false

/-- A line of a range has a store staged and not committed (R85). -/
def State.rangeStale (s : State) (a n : Nat) : Bool :=
  (linesOf a n).any fun l =>
    match s.devLoc l with
    | some p => s.stagedLine p.2.1 p.2.2 true
    | none => false

/-- DENIED of MEM_READ at a reserve address: of a VF always, and below the row's debug level (R390, R420). -/
def readDenied (s : State) (m : Msg) (n : Nat) : Option Nat :=
  if s.oneSpace (m.word 0) n = some .reserve then
    if s.mbFn m.mb ≠ 0 ∨ ((linesOf (m.word 0) n).any fun l => decide (s.debugLevel < rowLevel (devRowOf l))) then some 5 else none
  else none

/-- The checks of MEM_READ and MEM_WRITE on their range. -/
def memCheck (write : Bool) (m : Msg) (s : State) : Check :=
  let a := m.word 0
  let n := m.bufLen 1
  { nospt := m.bufBad 1 || decide (a % 64 ≠ 0) || (s.oneSpace a n).isNone
    denied := if write then (if s.oneSpace a n = some .reserve then some 5 else none) else readDenied s m n
    dma := write && m.dma.isNone
    gone := s.rangeGone a n
    busy := s.cfg.zeroing
    limit := none }

/-- What MEM_READ answers. -/
def runMemRead (m : Msg) (s : State) : State :=
  let a := m.word 0
  let n := m.bufLen 1
  let (k, t) := draw s
  let r := s.devRead k a n
  let u := noteRange a n t
  if m.dmaWr then
    respond m.mb { respTo 0x0400 m (if r.2 then .poison else if s.rangeStale a n then .stale else .ok) 0 n [] u with
      host := true, data := r.1, poisoned := (linesOf a n).filter s.devPoison } u
  else complete 0x0400 m .unavail 1 0 [] u

/-- MEM_READ. -/
def cmdMemRead (m : Msg) : Cmd := cmd 0x0400 3 (fun _ => ⟨some gMem, true, [], true⟩) m (memCheck false m) (runMemRead m)

/-- MEM_READ. -/
def execMemRead (m : Msg) (s : State) : Out := serveCmd (cmdMemRead m) s

/-- MEM_WRITE: staged, and committed in portions (R391). -/
def cmdMemWrite (m : Msg) : Cmd :=
  cmd 0x0401 3 (fun _ => grantAuth gMem [] true) m (memCheck true m)
    (fun t => accept 0x0401 m (if m.bufLen 1 = 0 then [] else [.memWrite m.mb (m.word 0) (m.buf (m.bufLen 1))]) [] t)

/-- MEM_WRITE. -/
def execMemWrite (m : Msg) (s : State) : Out := serveCmd (cmdMemWrite m) s

/-- MEM_FENCE: every committed tick has been written back, since a commit writes back before it ends. -/
def cmdMemFence (m : Msg) : Cmd :=
  cmd 0x0402 1 (fun _ => ⟨some gMem, true, [], true⟩) m (fun s => { formed (decide (m.word 0 = 0)) with busy := s.cfg.zeroing })
    (fun t => complete 0x0402 m .ok 0 0 [] t)

/-- MEM_FENCE. -/
def execMemFence (m : Msg) (s : State) : Out := serveCmd (cmdMemFence m) s

/-- MEM_CONFIG: word 1 is GLOBAL_STEPS. -/
def cmdMemConfig (m : Msg) : Cmd :=
  let c : Change := .globalSteps (m.word 1)
  cmd 0x0403 2 (fun _ => configAuth true) m
    (fun s => { formed (decide (m.word 0 = 0) && decide (m.word 1 ≤ 6)) with busy := s.inUse || s.cfg.zeroing })
    (fun t => accept 0x0403 m [c] [] (markPending c t))

/-- MEM_CONFIG. -/
def execMemConfig (m : Msg) (s : State) : Out := serveCmd (cmdMemConfig m) s

/-- MEM_WINDOW_SET: word 1 is BAR2_BASE. -/
def cmdMemWindowSet (m : Msg) : Cmd :=
  cmd 0x0404 2 (fun _ => grantAuth gExpertMem [] false) m
    (fun s => { formed (decide (m.word 0 = 0) && decide (m.word 1 % 2 ^ 30 = 0)) with busy := s.cfg.zeroing })
    (fun t => accept 0x0404 m [.bar2Base (m.word 1)] [] t)

/-- MEM_WINDOW_SET. -/
def execMemWindowSet (m : Msg) (s : State) : Out := serveCmd (cmdMemWindowSet m) s

end Sys2Proof.Machine
end

