-- ==== Sys2Proof/Machine/HeatCmds.lean ====
section
/-! DEFINITION. LINK_, THERM_ and PWR_ commands (R233, R264, R266, R269, R271, R274, R278, R279, R327, R328, R330, R335, R337-R340,
R342, R343, R346). -/

namespace Sys2Proof.Machine

open Sys2Proof

/-- Sequences open, committed or by a command of the tick. -/
def State.openSeqs (s : State) : List (Nat × SeqRec) :=
  (s.seqs.filter fun e => e.2.isOpen) ++ s.changes.filterMap fun c => match c with | .seqOpen i r => some (i, r) | _ => none

/-- The reserve of a stack cannot be reached (R28). -/
def State.reserveGone (s : State) (n : Nat) : Bool := s.stackGone n || s.asleep

/-- What both firmware stacks hold cannot be reached. -/
def State.mirrorGone (s : State) : Bool := s.reserveGone 7 && s.reserveGone 12

/-! ## LINK_ -/

/-- LINK_SET_ADDR: word 1 DEVADDR, word 2 DIMS; only while every TLink port is down. -/
def cmdLinkSetAddr (m : Msg) : Cmd :=
  cmd 0x0800 3 (fun _ => configAuth false) m
    (fun s => { formed (decide (m.word 0 = 0) && decide (m.word 1 < 512) && decide (m.word 2 < 64)) with
                busy := (List.range 6).any fun n => (s.portAt n).up })
    (fun t => accept 0x0800 m [.setAddr (BitVec.ofNat 9 (m.word 1)) (BitVec.ofNat 6 (m.word 2))] [] t)

/-- LINK_SET_ADDR. -/
def execLinkSetAddr (m : Msg) (s : State) : Out := serveCmd (cmdLinkSetAddr m) s

/-- A stack is in reset, without its clock, or running its own start stages, or a command of the tick will make it run them. -/
def State.stackBusy (s : State) (n : Nat) : Bool :=
  (s.stackAt n).inReset || (Tab.get s.boot.stk n).isSome
    || s.changes.any fun c => match c with | .retrain i => i == n | .rejoin i => i == n | .stackOn i => i == n | .stackOff i => i == n | _ => false

/-- The checks of LINK_RETRAIN and LINK_REJOIN on their stack. -/
def stackCheck (m : Msg) (s : State) : Check :=
  let n := m.word 0 % 2 ^ 32
  { formed (m.objIn 3 20).isSome with gone := decide ((s.stackAt n).status = 2), busy := s.stackBusy n }

/-- LINK_RETRAIN: isolates the stack at acceptance (R269). -/
def cmdLinkRetrain (m : Msg) : Cmd :=
  let n := m.word 0 % 2 ^ 32
  cmd 0x0801 1 (fun _ => configAuth false) m (stackCheck m) (fun t => isolate n 5 (accept 0x0801 m [.retrain n] [] t))

/-- LINK_RETRAIN. -/
def execLinkRetrain (m : Msg) (s : State) : Out := serveCmd (cmdLinkRetrain m) s

/-- LINK_REJOIN; of a stack that is not isolated it changes nothing (log 55). -/
def cmdLinkRejoin (m : Msg) : Cmd :=
  let n := m.word 0 % 2 ^ 32
  cmd 0x0802 1 (fun _ => configAuth false) m (stackCheck m)
    (fun t => accept 0x0802 m (if (t.stackAt n).isolated.isSome then [.rejoin n] else []) [] t)

/-- LINK_REJOIN. -/
def execLinkRejoin (m : Msg) (s : State) : Out := serveCmd (cmdLinkRejoin m) s

/-- LINK_GLOBAL_WAVES: word 1. -/
def cmdLinkGlobalWaves (m : Msg) : Cmd :=
  let c : Change := .globalWaves (m.word 1)
  cmd 0x0803 2 (fun _ => configAuth false) m
    (fun s => { formed (decide (m.word 0 = 0) && decide (4 ≤ m.word 1) && decide (m.word 1 ≤ 16)) with busy := !s.wavesOk (m.word 1) })
    (fun t => accept 0x0803 m [c] [] (markPending c t))

/-- LINK_GLOBAL_WAVES. -/
def execLinkGlobalWaves (m : Msg) (s : State) : Out := serveCmd (cmdLinkGlobalWaves m) s

/-- LINK_READ: the link registers of a stack, or those of the I/O die. -/
def cmdLinkRead (m : Msg) : Cmd :=
  readCmd 0x0804 readAuth m (fun _ => formed (decide (m.word 0 = 0) || (m.objIn 3 20).isSome))
    (fun t => match m.obj 3 with
      | some n => regItems t (stackRegs n 0xA000) 0x58 (m.word 1)
      | none => regItems t 0x03006000 0x80 (m.word 1))

/-- LINK_READ. -/
def execLinkRead (m : Msg) (s : State) : Out := serveCmd (cmdLinkRead m) s

/-! ## THERM_ -/

/-- The form-A commands under POWER. -/
def powerAuth : Auth := grantAuth gPower [] false

/-- The commissioned parameters of R330, 4 bytes each. -/
def calibItems (s : State) : List (List Byte) := s.power.calib.map fun v => leBytes 4 v

/-- THERM_READ: the sensor registers of a quadrant, or the device's, then the forecast parameters. -/
def cmdThermRead (m : Msg) : Cmd :=
  readCmd 0x0900 readAuth m (fun _ => formed (decide (m.word 0 = 0) || (m.objIn 4 80).isSome))
    (fun t => match m.obj 4 with
      | some q => regItems t (stackRegs (q / 4) (0xC000 + 0x10 * (q % 4))) 0x10 (m.word 1)
      | none => numbered (m.word 1) (((List.range 13).map fun i => leBytes 4 (expertWord t (0x03008000 + 4 * i))) ++ calibItems t))

/-- THERM_READ. -/
def execThermRead (m : Msg) (s : State) : Out := serveCmd (cmdThermRead m) s

/-- A stack telemetry record (R342). -/
def StackTele.bytes (r : StackTele) : List Byte := withCheck (
  leBytes 8 r.tick ++ (r.logic.flatMap fun v => leBytes 2 v.toNat) ++ (r.crust.flatMap fun v => leBytes 2 v.toNat)
    ++ (r.energy.flatMap fun v => leBytes 4 v) ++ leBytes 4 r.crumbEnergy ++ leBytes 4 r.transitEnergy ++ leBytes 2 r.sensor.toNat
    ++ leBytes 1 r.bands.toNat ++ leBytes 1 r.budget ++ leBytes 1 r.kMin ++ leBytes 1 r.flags.toNat)

/-- A device telemetry record (R342). -/
def DevTele.bytes (r : DevTele) : List Byte := withCheck (
  leBytes 8 r.tick ++ leBytes 8 r.time ++ leBytes 2 r.inlet.toNat ++ leBytes 2 r.flow.toNat ++ (r.caps.flatMap fun v => leBytes 2 v)
    ++ leBytes 2 (BitVec.ofInt 16 r.eMax).toNat ++ leBytes 1 r.state ++ leBytes 1 r.flags.toNat ++ leBytes 4 r.deviceEnergy
    ++ leBytes 4 r.ioEnergy)

/-- THERM_TELEMETRY_READ: the records of a stack, or the device's, from a TICK on. -/
def cmdThermTelemetryRead (m : Msg) : Cmd :=
  let start := m.word 1
  readCmd 0x0901 readAuth m
    (fun s => { formed (decide (m.word 0 = 0) || (m.objIn 3 20).isSome) with
                gone := match m.obj 3 with | some n => s.reserveGone n | none => s.mirrorGone })
    (fun t => match m.obj 3 with
      | some n => (Tab.getD t.teleStack n []).filterMap fun r => if start ≤ r.tick then some (r.bytes, r.tick + 1) else none
      | none => t.teleDev.filterMap fun r => if start ≤ r.tick then some (r.bytes, r.tick + 1) else none)

/-- THERM_TELEMETRY_READ. -/
def execThermTelemetryRead (m : Msg) (s : State) : Out := serveCmd (cmdThermTelemetryRead m) s

/-- THERM_CALIBRATE: words 1-5 are R_L, tau_L, R_C, tau_C and STANDING_W, in 1/64 °C/W, µs and 1/64 W (log 56). -/
def cmdThermCalibrate (m : Msg) : Cmd :=
  cmd 0x0902 6 (fun _ => powerAuth) m
    (fun s => { formed (decide (m.word 0 = 0) && (m.words.drop 1).all fun w => decide (w.toNat < 2 ^ 32)) with busy := s.power.degraded })
    (fun t => accept 0x0902 m [.calibrate (m.words.drop 1)] [] t)

/-- THERM_CALIBRATE. -/
def execThermCalibrate (m : Msg) (s : State) : Out := serveCmd (cmdThermCalibrate m) s

/-- THERM_FLOW_MIN: word 1, in 0.1 L/min. -/
def cmdThermFlowMin (m : Msg) : Cmd :=
  let c : Change := .flowMin (BitVec.ofNat 16 (m.word 1))
  cmd 0x0903 2 (fun _ => powerAuth) m (fun _ => formed (decide (m.word 0 = 0) && decide (m.word 1 < 65536)))
    (fun t => accept 0x0903 m [c] [] (markPending c t))

/-- THERM_FLOW_MIN. -/
def execThermFlowMin (m : Msg) (s : State) : Out := serveCmd (cmdThermFlowMin m) s

/-- THERM_WARMUP: word 1 is WARMUP_EN. -/
def cmdThermWarmup (m : Msg) : Cmd :=
  let c : Change := .warmupEn (decide (m.word 1 = 1))
  cmd 0x0904 2 (fun _ => powerAuth) m (fun _ => formed (decide (m.word 0 = 0) && decide (m.word 1 < 2)))
    (fun t => accept 0x0904 m [c] [] (markPending c t))

/-- THERM_WARMUP. -/
def execThermWarmup (m : Msg) (s : State) : Out := serveCmd (cmdThermWarmup m) s

/-! ## PWR_ -/

/-- PWR_ commands wait out Rack and a sudden stop with BUSY, but PWR_READ and, while the device is not in Active or Trim, PWR_STATE
ACTIVE (R327, R335). -/
def State.pwrBusy (s : State) (active : Bool) : Bool :=
  (decide (s.power.state = .rack) || s.power.coolantStop) && !(active && s.asleep)

/-- PWR_STATE may take the state: REST from Active or Trim with no plan admitted, DORMANT from Rest. -/
def State.stateBusy (s : State) (v : Nat) : Bool :=
  let from' := s.power.state
  let under := s.power.entering.isSome || s.changes.any fun c => match c with | .pwrState _ => true | _ => false
  match v with
  | 0 => under && decide (from' ≠ .rack)
  | 2 => under || !s.willAdmit.isEmpty || !(decide (from' = .active) || decide (from' = .trim) || decide (from' = .rest))
  | _ => under || !(decide (from' = .rest) || decide (from' = .dormant))

/-- PWR_STATE ACTIVE in Rack clears RACK_LATCH at once, since no tick commits in Rack (R326, R327, log 57). -/
def clearLatch (s : State) : State := { s with power := { s.power with rackLatch := false } }

/-- PWR_STATE: word 1 is 0 ACTIVE, 2 REST or 3 DORMANT. -/
def cmdPwrState (m : Msg) : Cmd :=
  let v := m.word 1
  cmd 0x0A00 2 (fun _ => powerAuth) m
    (fun s => { formed (decide (m.word 0 = 0) && (v == 0 || v == 2 || v == 3)) with busy := s.pwrBusy (v == 0) || s.stateBusy v })
    (fun t => if t.power.state = .rack then complete 0x0A00 m .ok 0 0 [] (clearLatch t) else accept 0x0A00 m [.pwrState v] [] t)

/-- PWR_STATE. -/
def execPwrState (m : Msg) (s : State) : Out := serveCmd (cmdPwrState m) s

/-- A sequence has a serving core or a pool in a quadrant: one of its own site, or one that a page of it lies in. -/
def SeqRec.inQuad (r : SeqRec) (s : State) (q : Nat) : Bool :=
  r.groups.any fun g => siteQuad (lcSite g.lcid) == q || (match s.serving g.lcid with | some n => siteQuad n == q | none => false)
    || (s.pages g).any fun p => p.2.valid && (match Tab.get s.descs p.2.pfn with | some d => siteQuad (lcSite d.lcid) == q | none => false)

/-- The conditions of R339 on gating a domain. -/
def State.gateBusy (s : State) (d : Nat) : Bool :=
  let l := s.willAdmit
  if d < 80 then
    l.any (fun e => e.2.inQuad s d) || (s.openSeqs.any fun e => e.2.inQuad s d) || (decide (s.cfg.globalSteps ≠ 0) && !l.isEmpty)
  else if d < 100 then l.any fun e => e.2.crumbs.any fun c => lcStack c.lcid == d - 80
  else !l.isEmpty && decide (d < 122)

/-- Quadrants, crumb domains, clocks and stacks are switched only in Active and Trim (R337, log 57). -/
def State.coreBusy (s : State) (d : Nat) : Bool := decide (d < 100) && s.asleep

/-- Host port and hub are gated only in Dormant; transit domains by PWR_STACK_OFF alone. -/
def State.gateDenied (s : State) (d : Nat) : Option Nat := if 122 ≤ d ∧ s.power.state ≠ .dormant then some 6 else none

/-- The domain of a PWR_GATE or PWR_UNGATE. -/
def gateDomain (m : Msg) : Option Nat := (m.objIn 5 124).bind fun d => if 100 ≤ d ∧ d < 120 then none else some d

/-- PWR_GATE. -/
def cmdPwrGate (m : Msg) : Cmd :=
  let d := m.word 0 % 2 ^ 32
  cmd 0x0A01 1 (fun _ => powerAuth) m
    (fun s => { formed (gateDomain m).isSome with denied := s.gateDenied d, busy := s.pwrBusy false || s.gateBusy d || s.coreBusy d })
    (fun t => accept 0x0A01 m (if t.power.off.contains d || t.changes.contains (.gate d) then [] else [.gate d]) [] t)

/-- PWR_GATE. -/
def execPwrGate (m : Msg) (s : State) : Out := serveCmd (cmdPwrGate m) s

/-- PWR_UNGATE. -/
def cmdPwrUngate (m : Msg) : Cmd :=
  let d := m.word 0 % 2 ^ 32
  cmd 0x0A02 1 (fun _ => powerAuth) m
    (fun s => { formed (gateDomain m).isSome with busy := s.pwrBusy false || s.coreBusy d })
    (fun t => accept 0x0A02 m
      (if !t.power.off.contains d || t.power.ungating.contains d || t.power.joining.contains d || t.changes.contains (.ungate d) then []
       else [.ungate d]) [] t)

/-- PWR_UNGATE. -/
def execPwrUngate (m : Msg) (s : State) : Out := serveCmd (cmdPwrUngate m) s

/-- PWR_CLOCK_HALF: word 0 a stack or none for all, word 1 the half (0 west, 1 east), word 2 is 1 for 470 MHz. -/
def cmdPwrClockHalf (m : Msg) : Cmd :=
  cmd 0x0A03 3 (fun _ => powerAuth) m
    (fun s => { formed ((decide (m.word 0 = 0) || (m.objIn 3 20).isSome) && decide (m.word 1 < 2) && decide (m.word 2 < 2)) with
                busy := s.pwrBusy false || s.asleep })
    (fun t => accept 0x0A03 m [.clockHalf (m.obj 3) (m.word 1) (decide (m.word 2 = 1))] [] t)

/-- PWR_CLOCK_HALF. -/
def execPwrClockHalf (m : Msg) (s : State) : Out := serveCmd (cmdPwrClockHalf m) s

/-- PWR_STACK_OFF. -/
def cmdPwrStackOff (m : Msg) : Cmd :=
  let n := m.word 0 % 2 ^ 32
  cmd 0x0A04 1 (fun _ => powerAuth) m
    (fun s => { formed (m.objIn 3 20).isSome with
                denied := if n = 7 ∨ n = 12 then some 6 else none
                busy := s.pwrBusy false || s.asleep || !s.willAdmit.isEmpty || (s.openSeqs.any fun e => e.2.home == n)
                  || decide (s.cfg.globalSteps ≠ 0) || (decide ((s.stackAt n).status ≠ 2) && s.stackBusy n) })
    (fun t => accept 0x0A04 m (if (t.stackAt n).status = 2 then [] else [.stackOff n]) [] t)

/-- PWR_STACK_OFF. -/
def execPwrStackOff (m : Msg) (s : State) : Out := serveCmd (cmdPwrStackOff m) s

/-- PWR_STACK_ON. -/
def cmdPwrStackOn (m : Msg) : Cmd :=
  let n := m.word 0 % 2 ^ 32
  cmd 0x0A05 1 (fun _ => powerAuth) m
    (fun s => { formed (m.objIn 3 20).isSome with
                busy := s.pwrBusy false || s.asleep || (decide ((s.stackAt n).status = 2) && s.stackBusy n) })
    (fun t => accept 0x0A05 m (if (t.stackAt n).status = 2 then [.stackOn n] else []) [] t)

/-- PWR_STACK_ON. -/
def execPwrStackOn (m : Msg) (s : State) : Out := serveCmd (cmdPwrStackOn m) s

/-- PWR_READ: the state code, the domain map in two words, and the energy counters of domains 0-119, 8 bytes each. -/
def cmdPwrRead (m : Msg) : Cmd :=
  readCmd 0x0A06 readAuth m (fun _ => formed (decide (m.word 0 = 0)))
    (fun t => numbered (m.word 1)
      ((leBytes 8 t.power.state.code :: [leBytes 8 (domainBits t 0 64), leBytes 8 (domainBits t 64 60)])
        ++ (List.range 120).map fun d => leBytes 8 (t.power.energies.getD d 0)))

/-- PWR_READ. -/
def execPwrRead (m : Msg) (s : State) : Out := serveCmd (cmdPwrRead m) s

end Sys2Proof.Machine
end

