-- ==== Sys2Proof/Machine/FaultCmds.lean ====
section
/-! DEFINITION. FAULT_ commands (R284, R291, R293, R308-R312, R420). -/

namespace Sys2Proof.Machine

open Sys2Proof

/-- The form-A commands under FAULT. -/
def faultAuth : Auth := grantAuth gFault [] false

/-- A field-fault record (R310). -/
def FaultRec.bytes (r : FaultRec) : List Byte := withCheck (
  leBytes 8 r.index ++ leBytes 8 r.time ++ leBytes 8 r.tick ++ leBytes 4 r.boot ++ leBytes 1 r.kind ++ leBytes 1 r.cls
    ++ leBytes 1 r.attempt ++ leBytes 1 r.flags ++ leBytes 1 r.stack ++ leBytes 1 r.site ++ leBytes 1 r.unit ++ leBytes 1 r.unitIx
    ++ leBytes 4 r.detail ++ leBytes 8 r.addr ++ leBytes 4 (match r.pfn with | some p => p | none => 0xFFFFFFFF) ++ leBytes 4 r.count
    ++ leBytes 4 r.gen.toNat)

/-- FAULT_LOG_READ: records of the ring from a LOG_INDEX on; NEXT tells what is skipped. -/
def cmdFaultLogRead (m : Msg) : Cmd :=
  readCmd 0x0B00 readAuth m (fun _ => formed (decide (m.word 0 = 0)))
    (fun t => t.mram.log.filterMap fun r => if m.word 1 ≤ r.index then some (r.bytes, r.index + 1) else none)

/-- FAULT_LOG_READ. -/
def execFaultLogRead (m : Msg) (s : State) : Out := serveCmd (cmdFaultLogRead m) s

/-- The fault map, one 16-byte item for each entry: a kind in the order of R308 and its fields (log 60). -/
def mapItems (f : FaultMap) : List (List Byte) :=
  let item (k a b : Nat) : List Byte := leBytes 4 k ++ leBytes 4 a ++ leBytes 8 b
  (f.failed.map fun n => item 0 n 0) ++ (f.shifts.map fun e => item 1 e.1 e.2) ++ (f.crumbs.map fun e => item 2 e.1 e.2)
    ++ (f.slices.map fun n => item 3 n 0) ++ (f.engines.map fun e => item 4 e.1 e.2)
    ++ (f.remaps.flatMap fun e => e.2.entries.map fun r =>
        item 5 (16 * e.1 + r.1) (2 ^ 31 + bit r.2.repeated 30 + bit r.2.lock 29 + r.2.spare * 2 ^ 26 + r.2.bank * 2 ^ 20 + r.2.row * 2 ^ 9))
    ++ (f.remaps.flatMap fun e => e.2.used.map fun r => item 6 (48 * e.1 + r.1) r.2.toNat)
    ++ (f.granules.map fun a => item 7 0 a)
    ++ (f.lanes.flatMap fun e => [item 8 (2 * e.1) e.2.1.toNat, item 8 (2 * e.1 + 1) e.2.2.toNat]) ++ [item 9 0 f.drain.toNat]

/-- The items of the fault map from a number on. -/
def faultMapItems (m : Msg) (t : State) : Items := numbered (m.word 1) (mapItems t.faultMap)

/-- FAULT_MAP_READ. -/
def cmdFaultMapRead (m : Msg) : Cmd := readCmd 0x0B01 readAuth m (fun _ => formed (decide (m.word 0 = 0))) (faultMapItems m)

/-- FAULT_MAP_READ. -/
def execFaultMapRead (m : Msg) (s : State) : Out := serveCmd (cmdFaultMapRead m) s

/-- The device memory address of the 2 KiB granule that an object word names, by its number (log 58). -/
def granuleOf (m : Msg) : Option Nat := (m.obj 12).map fun n => 2048 * n

/-- A granule of user-visible memory. -/
def State.userGranule (s : State) (a : Nat) : Bool :=
  match s.devLoc a with
  | some (.reserve, _, _) => false
  | some _ => true
  | none => false

/-- Granules retired, and those that commands of the tick retire. -/
def State.granuleCount (s : State) : Nat :=
  s.faultMap.granules.length + (s.changes.filter fun c => match c with | .retireGranule _ => true | _ => false).length

/-- The granule is retired, or a command of the tick retires it. -/
def State.isRetired (s : State) (a : Nat) : Bool := s.faultMap.granules.contains a || s.changes.contains (.retireGranule a)

/-- FAULT_RETIRE. -/
def cmdFaultRetire (m : Msg) : Cmd :=
  let a := 2048 * (m.word 0 % 2 ^ 32)
  cmd 0x0B02 1 (fun _ => faultAuth) m
    (fun s => { formed ((granuleOf m).isSome && s.userGranule a) with
                limit := if 4096 ≤ s.granuleCount ∧ s.isRetired a = false then some 0 else none })
    (fun t => accept 0x0B02 m (if t.isRetired a then [] else [.retireGranule a]) [] t)

/-- FAULT_RETIRE. -/
def execFaultRetire (m : Msg) (s : State) : Out := serveCmd (cmdFaultRetire m) s

/-- FAULT_SCRUB: word 1 is 1 to pause and 0 to resume. -/
def cmdFaultScrub (m : Msg) : Cmd :=
  cmd 0x0B03 2 (fun _ => faultAuth) m (fun _ => formed (decide (m.word 0 = 0) && decide (m.word 1 < 2)))
    (fun t => accept 0x0B03 m [.scrubPause (decide (m.word 1 = 1))] [] t)

/-- FAULT_SCRUB. -/
def execFaultScrub (m : Msg) (s : State) : Out := serveCmd (cmdFaultScrub m) s

/-- What FAULT_INJECT arms: word 1 is 0 a correctable error, 1 an uncorrectable error, 4 a poisoned line, at the device memory
address of word 2; 2 a residue mismatch in the unit of word 2 of the stack of word 0, with its SITE in [7:0], its UNIT in [15:8]: 1 a
core, 3 a crumb unit or 7 a router, and its INDEX in [23:16], for the attempts of word 3; 3 a CRC failure on the link of word 2 of that
stack, or on the port of word 0 (log 59). -/
def injectOf (m : Msg) : Option Change :=
  let n := m.word 0 % 2 ^ 32
  match m.word 1 with
  | 0 => if m.word 0 = 0 then some (.inject 0 (m.word 2) 0 1) else none
  | 1 => if m.word 0 = 0 then some (.inject 0 (m.word 2) 1 1) else none
  | 2 =>
    let ix := m.word 2 / 2 ^ 16
    if (m.objIn 3 20).isSome ∧ [1, 3, 7].contains (m.word 2 / 256 % 256) ∧ ix < (if m.word 2 / 256 % 256 = 3 then 48 else 1)
        ∧ 1 ≤ m.word 3 ∧ m.word 3 ≤ 3 then
      some (.inject 1 (2 ^ 24 * n + m.word 2) 0 (m.word 3))
    else none
  | 3 =>
    if (m.objIn 3 20).isSome ∧ m.word 2 < 3 then some (.inject 2 (4 * n + m.word 2) 0 1)
    else if (m.objIn 6 6).isSome then some (.inject 2 (128 + n) 0 1) else none
  | 4 => if m.word 0 = 0 then some (.inject 3 (m.word 2) 0 1) else none
  | _ => none

/-- The line an injection of memory names exists. -/
def State.injectAt (s : State) (c : Change) : Bool :=
  match c with
  | .inject 0 a _ _ => a % 64 == 0 && s.userGranule a
  | .inject 3 a _ _ => a % 64 == 0 && s.userGranule a
  | _ => true

/-- FAULT_INJECT: BUSY while another awaits its tick (log 59); in Deployed only at debug level Functional or Full. -/
def cmdFaultInject (m : Msg) : Cmd :=
  cmd 0x0B04 4 (fun _ => faultAuth) m
    (fun s =>
      { formed (match injectOf m with | some c => s.injectAt c | none => false) with
        denied := if s.mram.life = .deployed ∧ s.debugLevel < 2 then some 5 else none
        busy := s.injectArmed })
    (fun t => accept 0x0B04 m (match injectOf m with | some c => [c] | none => []) [] t)

/-- FAULT_INJECT. -/
def execFaultInject (m : Msg) (s : State) : Out := serveCmd (cmdFaultInject m) s

/-- FAULT_DRAM_FUSE: word 0 the stack, word 1 the site's row in [7:4] and column in [3:0], word 2 the bank in [16:11] and the row in
[10:0]; only in Blank and Returned (log 59). -/
def cmdFaultDramFuse (m : Msg) : Cmd :=
  let site := 256 * (m.word 0 % 2 ^ 32) + m.word 1
  cmd 0x0B05 3 (fun _ => faultAuth) m
    (fun s => { formed ((m.objIn 3 20).isSome && decide (m.word 1 < 256) && decide (m.word 2 < 48 * 2048)) with
                denied := if s.mram.life = .blank ∨ s.mram.life = .returned then none else some 4 })
    (fun t => accept 0x0B05 m [.dramFuse site (m.word 2 / 2048) (m.word 2 % 2048)] [] t)

/-- FAULT_DRAM_FUSE. -/
def execFaultDramFuse (m : Msg) (s : State) : Out := serveCmd (cmdFaultDramFuse m) s

end Sys2Proof.Machine
end

