-- ==== Sys2Proof/Machine/SecCmds.lean ====
section
/-! DEFINITION. SEC_ commands: sessions, expert access, identity, quotes and lifecycle (R381-R386, R390, R402-R408, R411-R419,
R427). -/

namespace Sys2Proof.Machine

open Sys2Proof

/-! ## Debug tokens (R417, R418) -/

/-- Signature bytes of a scheme code (R402). -/
def sigBytes (scheme : Nat) : Nat :=
  match scheme with
  | 0x0001 => 9893 | 0x0002 => 18469 | 0x0010 => 2500 | 0x0011 => 2692 | _ => 2820

/-- Levels that a token of an authority may give (Table: Lifecycle states). -/
def Mram.tokenLevels (m : Mram) (owner : Bool) : List Nat :=
  match m.life with
  | .deployed => if (if owner then decide (m.authority ≠ 0) else m.vendorOk) then [1, 2] else []
  | .returned => if owner then [] else [2, 3]
  | _ => if owner then [] else [2]

/-- The scheme and key of a token's authority: the vendor's debug key is known by its fused digest. -/
def State.authorityKey (s : State) (owner : Bool) : Nat × List Byte :=
  if owner then (s.mram.authority, (match s.mram.deploy with | some r => slice r 8 68 | none => [])) else (0x0012, s.fuses.debugDigest)

/-- A token fails in length, format or a reserved field. -/
def tokenFormat (s : State) (b : List Byte) : Bool :=
  let owner := decide (field b 0x31 1 = 1)
  let n := 96 + sigBytes (s.authorityKey owner).1
  decide (b.length < n) || ((b.drop n).any fun x => x != 0) || decide (1 < field b 0x31 1) || decide (field b 0x30 1 < 1)
    || decide (3 < field b 0x30 1) || decide (1 < field b 0x32 2) || decide (field b 0x34 4 < 1) || decide (86400 < field b 0x34 4)
    || decide (field b 0x58 8 ≠ 0)

/-- A well-formed token holds for a function. -/
def tokenHolds (s : State) (fn : Nat) (b : List Byte) : Bool :=
  let owner := decide (field b 0x31 1 = 1)
  let k := s.authorityKey owner
  slice b 0 8 == [0x54, 0x5A, 0x2D, 0x44, 0x42, 0x47, 0x54, 0x31] && field b 8 8 == s.fuses.serial.toNat
    && (match Tab.get s.nonces fn with | some p => slice b 0x10 32 == p.2 | none => false)
    && slice b 0x38 32 == s.mram.idDigest && (s.mram.tokenLevels owner).contains (field b 0x30 1)
    && Config.xmssVerify k.1 k.2 (slice b 0 96) (slice b 96 (sigBytes k.1))

/-- A refused token: the function's nonce is consumed, and the refusal is counted and posted. -/
def rejectToken (fn : Nat) (s : State) : State :=
  post (event .tokenRejected none []) (devInc .tokenReject 1 { s with nonces := Tab.del s.nonces fn })

/-! ## Sessions (R381-R384) -/

/-- SEC_SESSION_OPEN asks for DEBUG. -/
def asksDebug (m : Msg) : Bool := m.word 0 % 2 ^ 32 / 2 ^ 10 % 2 == 1

/-- The token buffer of a SEC_SESSION_OPEN is all zero. -/
def noToken (m : Msg) : Bool := decide (m.word 1 = 0) && decide (m.word 2 = 0)

/-- A token is there to be checked. -/
def hasToken (m : Msg) : Bool := asksDebug m && !noToken m && m.dma.isSome

/-- A SEC_SESSION_OPEN whose body is malformed. -/
def openMalformed (m : Msg) : Bool :=
  decide (2 ^ 14 ≤ m.word 0) || (!asksDebug m && !noToken m) || m.bufBad 1

/-- The checks of SEC_SESSION_OPEN. -/
def openCheck (m : Msg) (s : State) : Check :=
  let fn := s.mbFn m.mb
  let b := m.buf (m.bufLen 1)
  { nospt := openMalformed m || (hasToken m && tokenFormat s b)
    denied := if BitVec.ofNat 32 (m.word 0) &&& ~~~ s.ceiling fn ≠ 0 then some 2
      else if asksDebug m && (noToken m || (m.dma.isSome && !tokenHolds s fn b)) then some 5 else none
    dma := asksDebug m && m.dma.isNone
    gone := false, busy := false
    limit := if 4096 ≤ s.sessions.length then some 0 else none }

/-- A refusal of SEC_SESSION_OPEN that its token caused consumes it. -/
def openMiss (s : State) (m : Msg) (v : Status × Nat) (t : State) : State :=
  let bad := hasToken m && !openMalformed m && !m.rsv && (s.mbAt m.mb).length == 24
    && (decide (v.1 = .nospt) || (decide (v = (.denied, 5)) && !noToken m))
  if bad then rejectToken (s.mbFn m.mb) t else t

/-- The number a new session takes: a free one, the spec does not say which (log 61). -/
def State.newSession (s : State) (k : Nat) : Nat :=
  let l := (List.range 4096).filterMap fun i => if (Tab.get s.sessions (i + 1)).isNone then some (i + 1) else none
  l.getD (Config.freeNat k % l.length) 1

/-- A KEY not given before while the device is powered: the first free one from a random value on (R381). -/
def freshKey (used : List W32) (x : W32) : W32 :=
  ((List.range (used.length + 1)).map fun i => x + BitVec.ofNat 32 i).find? (fun k => !used.contains k) |>.getD x

/-- Opens a session at the commit of the tick. -/
def runOpen (m : Msg) (s : State) : State :=
  let (k, t) := draw s
  let n := s.newSession k
  let key := freshKey s.host.keys (BitVec.ofNat 32 (leNat (slice (Config.random k) 0 4)))
  let b := m.buf (m.bufLen 1)
  let x : Session :=
    { fn := s.mbFn m.mb, key := key, grants := BitVec.ofNat 32 (m.word 0)
      dbgLevel := if asksDebug m then some (field b 0x30 1) else none
      tap := asksDebug m && decide (field b 0x32 2 % 2 = 1), owner := asksDebug m && decide (field b 0x31 1 = 1)
      pendingOpen := true, lifetime := if asksDebug m then field b 0x34 4 else 0, since := s.seqr.time }
  let t : State := { t with host := { t.host with keys := key :: t.host.keys }, sessions := Tab.set t.sessions n x, nonces := if asksDebug m then Tab.del t.nonces x.fn else t.nonces }
  accept 0x0C00 m [.sessionOpen n] [BitVec.ofNat 64 (n + key.toNat * 2 ^ 32), BitVec.ofNat 64 (m.word 0)] t

/-- SEC_SESSION_OPEN. -/
def cmdSecSessionOpen (m : Msg) : Cmd :=
  cmdElse 0x0C00 3 (fun _ => ⟨none, false, [], true⟩) m (openCheck m) (fun s => openMiss s m) (runOpen m)

/-- SEC_SESSION_OPEN. -/
def execSecSessionOpen (m : Msg) (s : State) : Out := serveCmd (cmdSecSessionOpen m) s

/-- The session a SEC_SESSION_CLOSE names: its own with word 0 zero. -/
def closing (m : Msg) : Nat := if m.word 0 = 0 then m.session.toNat else m.word 0 % 2 ^ 32

/-- SEC_SESSION_CLOSE; closing another session needs ADMIN. -/
def cmdSecSessionClose (m : Msg) : Cmd :=
  cmd 0x0C01 1 (fun _ => ⟨none, true, [closing m], true⟩) m
    (fun s => formed ((decide (m.word 0 = 0) || (m.obj 9).isSome) &&
      (match Tab.get s.sessions (closing m) with | some x => !x.pendingOpen | none => decide (closing m = m.session.toNat))))
    (fun t => accept 0x0C01 m [.sessionClose (closing m)] [] t)

/-- SEC_SESSION_CLOSE. -/
def execSecSessionClose (m : Msg) (s : State) : Out := serveCmd (cmdSecSessionClose m) s

/-- SEC_SESSION_ADOPT. -/
def cmdSecSessionAdopt (m : Msg) : Cmd :=
  cmd 0x0C02 1 (fun _ => ⟨none, true, [], true⟩) m (fun _ => formed (decide (m.word 0 = 0)))
    (fun t => accept 0x0C02 m [.adopt m.session.toNat] [] t)

/-- SEC_SESSION_ADOPT. -/
def execSecSessionAdopt (m : Msg) (s : State) : Out := serveCmd (cmdSecSessionAdopt m) s

/-- The open sessions from a number on: number, function, grants and DEBUG level, 16 bytes each; a VF reads its own (log 60). -/
def sessionItems (m : Msg) (t : State) : Items :=
  let fn := t.mbFn m.mb
  (List.range 4097).filterMap fun n =>
    match Tab.get t.sessions n with
    | some x =>
      if m.word 1 ≤ n ∧ x.pendingOpen = false ∧ (fn = 0 ∨ x.fn = fn) then
        some (leBytes 2 n ++ leBytes 2 x.fn ++ leBytes 4 x.grants.toNat ++ leBytes 8 (x.dbgLevel.getD 0), n + 1)
      else none
    | none => none

/-- SEC_SESSION_READ: the open sessions. -/
def cmdSecSessionRead (m : Msg) : Cmd :=
  readCmd 0x0C03 readAuth m (fun _ => formed (decide (m.word 0 = 0))) (sessionItems m)

/-- SEC_SESSION_READ. -/
def execSecSessionRead (m : Msg) (s : State) : Out := serveCmd (cmdSecSessionRead m) s

/-- Grants only the PF may have. -/
def pfGrants : Nat := 0x3FE0

/-- SEC_FUNCTION_LIMIT: word 0 a VF, word 1 its ceiling. -/
def cmdSecFunctionLimit (m : Msg) : Cmd :=
  let fn := m.word 0 % 2 ^ 32
  cmd 0x0C04 2 (fun _ => grantAuth gAdmin [] false) m
    (fun _ => { formed ((m.objIn 11 64).isSome && decide (1 ≤ fn) && decide (m.word 1 < 2 ^ 14)) with
                denied := if 32 ≤ m.word 1 then some 2 else none })
    (fun t => accept 0x0C04 m [.ceiling fn (BitVec.ofNat 32 (m.word 1))] [] t)

/-- SEC_FUNCTION_LIMIT. -/
def execSecFunctionLimit (m : Msg) (s : State) : Out := serveCmd (cmdSecFunctionLimit m) s

/-- SEC_MAILBOX_ASSIGN: word 0 a mailbox, word 1 the function it moves to. -/
def cmdSecMailboxAssign (m : Msg) : Cmd :=
  let n := m.word 0 % 2 ^ 32
  cmd 0x0C05 2 (fun _ => grantAuth gAdmin [] false) m
    (fun s => { formed ((m.objIn 10 256).isSome && decide (m.word 1 < 64)) with
                denied := if n = 0 then some 6 else none, busy := (s.mbAt n).busy })
    (fun t => accept 0x0C05 m [.assign n (m.word 1)] [] t)

/-- SEC_MAILBOX_ASSIGN. -/
def execSecMailboxAssign (m : Msg) (s : State) : Out := serveCmd (cmdSecMailboxAssign m) s

/-- The grant expert access needs: word 1 is 0 for registers and 1 for memory. -/
def expertGrant (m : Msg) : Nat := if m.word 1 = 1 then gExpertMem else gExpertReg

/-- SEC_EXPERT_OPEN. -/
def cmdSecExpertOpen (m : Msg) : Cmd :=
  cmd 0x0C06 2 (fun _ => grantAuth (expertGrant m) [] false) m (fun _ => formed (decide (m.word 0 = 0) && decide (m.word 1 < 2)))
    (fun t => accept 0x0C06 m [.expertOpen m.session.toNat (decide (m.word 1 = 1))] [] t)

/-- SEC_EXPERT_OPEN. -/
def execSecExpertOpen (m : Msg) (s : State) : Out := serveCmd (cmdSecExpertOpen m) s

/-- SEC_EXPERT_CLOSE. -/
def cmdSecExpertClose (m : Msg) : Cmd :=
  cmd 0x0C07 2 (fun _ => ⟨none, true, [], false⟩) m (fun _ => formed (decide (m.word 0 = 0) && decide (m.word 1 < 2)))
    (fun t => accept 0x0C07 m [.expertClose m.session.toNat (decide (m.word 1 = 1))] [] t)

/-- SEC_EXPERT_CLOSE. -/
def execSecExpertClose (m : Msg) (s : State) : Out := serveCmd (cmdSecExpertClose m) s

/-! ## Nonces, quotes and certificates (R404-R408, R415, R417) -/

/-- Bytes as the words of a response body. -/
def bodyWords (n : Nat) (b : List Byte) : List W64 := (List.range n).map fun i => BitVec.ofNat 64 (field b (8 * i) 8)

/-- SEC_NONCE: a fresh nonce for the function, in place of its last. -/
def cmdSecNonce (m : Msg) : Cmd :=
  cmd 0x0C10 0 (fun _ => ⟨none, false, [], true⟩) m
    (fun s => { Check.ok with denied := if s.mbFn m.mb ≠ 0 then some 2 else none })
    (fun t =>
      let (k, u) := draw t
      let b := slice (Config.random k) 0 32
      complete 0x0C10 m .ok 0 0 (bodyWords 4 b) { u with nonces := Tab.set u.nonces (t.mbFn m.mb) (t.seqr.time, b) })

/-- SEC_NONCE. -/
def execSecNonce (m : Msg) (s : State) : Out := serveCmd (cmdSecNonce m) s

/-- SEC_QUOTE: answered once signed, after the next commit; at most four are pending. -/
def cmdSecQuote (m : Msg) : Cmd :=
  cmd 0x0C11 6 (fun _ => ⟨none, false, [], true⟩) m
    (fun s => { formed (!m.bufBad 4) with busy := decide (4 ≤ s.quotes.length) })
    (fun t =>
      let u := t.setMb m.mb { t.mbAt m.mb with served := true }
      { u with quotes := u.quotes ++ [{ mb := m.mb, seq := m.seq, nonce := (List.range 4).flatMap fun i => leBytes 8 (m.word i), bufLen := m.bufLen 4, msg := none, dmaWr := m.dmaWr }] })

/-- SEC_QUOTE. -/
def execSecQuote (m : Msg) (s : State) : Out := serveCmd (cmdSecQuote m) s

/-- The lifecycle state does not allow the command. -/
def lifeDenied (s : State) (l : List Life) : Option Nat := if l.contains s.mram.life then none else some 4

/-- The certificates of MRAM from an index on. -/
def certItems (m : Msg) (t : State) : Items :=
  (List.range 22).filterMap fun i =>
    match Tab.get t.mram.certs i with
    | some c => if m.word 1 ≤ i then some (c, i + 1) else none
    | none => none

/-- SEC_CERT_READ: certificates from an index on. -/
def cmdSecCertRead (m : Msg) : Cmd :=
  readCmd 0x0C12 readAuth m
    (fun s => { formed (decide (m.word 0 = 0)) with denied := lifeDenied s [.provisioned, .deployed, .returned] }) (certItems m)

/-- SEC_CERT_READ. -/
def execSecCertRead (m : Msg) (s : State) : Out := serveCmd (cmdSecCertRead m) s

/-- The commands of identity and lifecycle that change state, under SECURITY. -/
def securityAuth : Auth := grantAuth gSecurity [] false

/-- SEC_PROVISION: the identity is created once, in Blank. -/
def cmdSecProvision (m : Msg) : Cmd :=
  cmd 0x0C13 1 (fun _ => securityAuth) m
    (fun s => { formed (decide (m.word 0 = 0)) with
                denied := lifeDenied s [.blank], busy := s.mram.identity.isSome || s.changes.contains .provision })
    (fun t => accept 0x0C13 m [.provision] (bodyWords 9 (slice Config.identityKey 0 68)) t)

/-- SEC_PROVISION. -/
def execSecProvision (m : Msg) (s : State) : Out := serveCmd (cmdSecProvision m) s

/-- The structure of a form-S command: word 1 zero and a well-formed buffer. -/
def structBad (m : Msg) : Bool := decide (m.word 1 ≠ 0) || m.bufBad 2

/-- The structure's bytes. -/
def structBytes (m : Msg) : List Byte := m.buf (m.bufLen 2)

/-- A structure of `n` bytes fills its buffer up to zeros. -/
def structFits (m : Msg) (n : Nat) : Bool := m.bufLen 2 == roundUp n 64 && ((structBytes m).drop n).all fun x => x == 0

/-- A device certificate the device may take: its body, and the vendor's signature over it. -/
def certOk (s : State) (b : List Byte) : Bool :=
  slice b 0 8 == [0x54, 0x5A, 0x2D, 0x43, 0x45, 0x52, 0x54, 0x31] && field b 8 1 == 0 && field b 9 1 == 0xFF && field b 0xA 2 == 1
    && field b 0xC 2 == 2 && field b 0xE 2 == 0 && field b 0x10 8 == s.fuses.serial.toNat && field b 0x18 8 == 0
    && slice b 0x20 32 == s.fuses.caDigest && (match s.mram.identity with | some k => slice b 0x40 68 == k | none => false)
    && ((slice b 0x84 12).all fun x => x == 0) && Config.xmssVerify 2 s.fuses.caDigest (slice b 0 144) (slice b 144 18469)

/-- SEC_CERT_INSTALL: enters Provisioned. -/
def cmdSecCertInstall (m : Msg) : Cmd :=
  cmd 0x0C14 4 (fun _ => securityAuth) m
    (fun s => { formed (decide (m.word 0 = 0) && !structBad m && (m.dma.isNone || (structFits m 18613 && certOk s (structBytes m)))) with
                denied := lifeDenied s [.blank], dma := m.dma.isNone })
    (fun t => accept 0x0C14 m [.certInstall (slice (structBytes m) 0 18613)] [] t)

/-- SEC_CERT_INSTALL. -/
def execSecCertInstall (m : Msg) (s : State) : Out := serveCmd (cmdSecCertInstall m) s

/-- A deploy record (R413). -/
def deployOk (b : List Byte) : Bool :=
  let scheme := field b 0 2
  (scheme == 0 || scheme == 0x10 || scheme == 0x11 || scheme == 0x12) && decide (field b 2 2 < 2) && field b 4 4 == 0
    && (scheme != 0 || ((slice b 8 68).all fun x => x == 0)) && field b 76 4 == 0

/-- SEC_DEPLOY: enters Deployed. -/
def cmdSecDeploy (m : Msg) : Cmd :=
  cmd 0x0C15 4 (fun _ => securityAuth) m
    (fun s => { formed (decide (m.word 0 = 0) && !structBad m && (m.dma.isNone || (structFits m 80 && deployOk (structBytes m)))) with
                denied := lifeDenied s [.provisioned], dma := m.dma.isNone })
    (fun t => accept 0x0C15 m [.deploy (slice (structBytes m) 0 80)] [] t)

/-- SEC_DEPLOY. -/
def execSecDeploy (m : Msg) (s : State) : Out := serveCmd (cmdSecDeploy m) s

/-- The session of a message holds Functional under an owner token. -/
def ownerFunctional (s : State) (m : Msg) : Bool :=
  match s.sessionOf m with
  | some x => x.owner && decide (2 ≤ x.dbgLevel.getD 0)
  | none => false

/-- SEC_RETURN: enters Returned. -/
def cmdSecReturn (m : Msg) : Cmd :=
  cmd 0x0C16 1 (fun _ => securityAuth) m
    (fun s =>
      { formed (decide (m.word 0 = 0)) with
        denied := match lifeDenied s [.provisioned, .deployed] with
          | some d => some d
          | none => if s.mram.life = .deployed ∧ ownerFunctional s m = false then some 5 else none
        busy := !s.willAdmit.isEmpty || !s.openSeqs.isEmpty || decide (s.power.state ≠ .active) })
    (fun t => accept 0x0C16 m [.toReturned m.session.toNat] [] t)

/-- SEC_RETURN. -/
def execSecReturn (m : Msg) (s : State) : Out := serveCmd (cmdSecReturn m) s

/-- SEC_SVN_COMMIT. -/
def cmdSecSvnCommit (m : Msg) : Cmd :=
  cmd 0x0C17 1 (fun _ => securityAuth) m (fun _ => formed (decide (m.word 0 = 0))) (fun t => accept 0x0C17 m [.svnCommit] [] t)

/-- SEC_SVN_COMMIT. -/
def execSecSvnCommit (m : Msg) (s : State) : Out := serveCmd (cmdSecSvnCommit m) s

end Sys2Proof.Machine
end

