-- ==== Sys2Proof/Machine/FwCmds.lean ====
section
/-! DEFINITION. DBG_, FW_ and CAP_ commands (R349, R351, R371, R394, R395, R397-R400, R409, R410, R416, R420-R427). -/

namespace Sys2Proof.Machine

open Sys2Proof

/-! ## Debug spaces (R425, R426) -/

/-- SPACE, LCID and OFFSET of a DBG_READ or DBG_WRITE. -/
def dbgSpace (m : Msg) : Nat := m.word 0 % 256
def dbgLcid (m : Msg) : Nat := m.word 0 / 2 ^ 16 % 2 ^ 16
def dbgOffset (m : Msg) : Nat := m.word 0 / 2 ^ 32

/-- The size of a debug space. -/
def spaceSize (n : Nat) : Nat :=
  match n with
  | 0 => 0x3000000 | 1 => 0x18000000 | 2 => 2048 | 3 => 64 | 4 => 4210752 | _ => 48 * 2056 * 4096

/-- The level a space needs. -/
def spaceLevel (n : Nat) : Nat := if n ≤ 1 then 1 else if n ≤ 3 then 2 else 3

/-- The range of a DBG_READ or DBG_WRITE is malformed. -/
def dbgBad (m : Msg) : Bool :=
  decide (5 < dbgSpace m) || decide (m.word 0 / 256 % 256 ≠ 0) || m.bufBad 1 || decide (m.bufLen 1 = 0) || decide (dbgOffset m % 64 ≠ 0)
    || decide (spaceSize (dbgSpace m) < dbgOffset m + m.bufLen 1)

/-- The stack an LCID field names in spaces 1 and 5. -/
def dbgStack (m : Msg) : Nat := dbgLcid m / 256 % 32

/-- The LCID field names nothing in its space. -/
def State.dbgNowhere (s : State) (m : Msg) : Bool :=
  match dbgSpace m with
  | 1 => decide (20 ≤ dbgStack m)
  | 2 => !(validLcid (BitVec.ofNat 16 (dbgLcid m)) && s.dbg.shadowMask.contains (BitVec.ofNat 16 (dbgLcid m)))
  | 5 => decide (20 ≤ dbgStack m)
  | _ => false

/-- The level of the message's session. -/
def State.levelOf (s : State) (m : Msg) : Nat := match s.sessionOf m with | some x => x.dbgLevel.getD 0 | none => 0

/-- DENIED below a level. -/
def belowLevel (s : State) (m : Msg) (n : Nat) : Option Nat := if min (s.levelOf m) s.debugLevel < n then some 5 else none

/-- What a space reads from cannot be reached, or its logical core is absent (R16, R425). -/
def State.dbgGone (s : State) (m : Msg) : Bool :=
  !s.asleep &&
    match dbgSpace m with
    | 1 => s.stackGone (dbgStack m)
    | 2 => (s.serving (BitVec.ofNat 16 (dbgLcid m))).isNone
    | 4 => s.dbg.latch.isSome && s.stackGone (lcStack s.dbg.benchLcid)
    | 5 => s.sliceGone (dbgLcid m % 2 ^ 13)
    | _ => false

/-- The shadow of a route context. -/
def routeShadow (k : CoreCtx) (i : Nat) : List Byte :=
  let c := Tab.get k.route i
  let v (f : RouteCtx → Nat) : List Byte := leBytes 4 (match c with | some x => f x | none => 0)
  v (fun x => x.table) ++ v (fun x => x.list) ++ v (fun x => x.area) ++ v (fun x => if x.bound then 1 else 0)
    ++ ((List.range 6).flatMap fun n => leBytes 4 (Tab.getD k.routeCounts (if n = 5 then 5 else 8 * i + n) 0)) ++ List.replicate 24 (0 : Byte)

/-- The shadow of a scoring context. -/
def scoreShadow (k : CoreCtx) (i : Nat) : List Byte :=
  let c := Tab.get k.score i
  let v (f : ScoreCtx → Nat) : List Byte := leBytes 4 (match c with | some x => f x | none => 0)
  v (fun x => x.block) ++ v (fun x => if x.bound then 1 else 0)
    ++ ((List.range 6).flatMap fun n => leBytes 4 (Tab.getD k.scoreCounts n 0)) ++ List.replicate 32 (0 : Byte)

/-- The register shadow of a core, latched in a tick. -/
def shadowBytes (tick : Nat) (k : CoreCtx) : List Byte :=
  let stop : Nat × Nat := match k.run with | .halted => (0, 0) | .stopped c => (1, c) | _ => (2, 0)
  let l := leBytes 8 tick ++ leBytes 8 k.pc ++ leBytes 8 k.flags.toNat ++ leBytes 1 stop.1 ++ leBytes 1 stop.2 ++ List.replicate 230 (0 : Byte)
    ++ ((List.range 32).flatMap fun i => leBytes 8 (Tab.getD k.s i 0).toNat)
    ++ ((List.range 16).flatMap fun i => leBytes 16 (Tab.getD k.d i 0).toNat)
    ++ ((List.range 4).flatMap fun i => routeShadow k i) ++ (List.range 4).flatMap fun i => scoreShadow k i
  slice l 0 2048

/-- The debug control block. -/
def controlBytes (s : State) : List Byte :=
  slice ((s.dbg.shadowMask.flatMap fun m => leBytes 2 m.toNat) ++ leBytes 2 s.dbg.benchLcid.toNat
    ++ leBytes 1 (if s.dbg.benchLatch then 1 else 0) ++ List.replicate 5 (0 : Byte) ++ leBytes 8 s.dbg.latchTick) 0 64

/-- A byte of the latch of bench memory and accumulators. -/
def latchByte (k : CoreCtx) (o : Nat) : Byte :=
  if o < 0x400000 then Mem.get k.bench o
  else if o < 0x404000 then
    match Tab.get k.acc ((o - 0x400000) / 0x800) with
    | some a => (leBytes 4 (Tab.getD a.elems (o % 0x800 / 4) 0).toNat).getD (o % 4) 0
    | none => 0
  else
    match Tab.get k.acc (o - 0x404000) with
    | some a => BitVec.ofNat 8 (bit a.int 0 + bit a.poison 1)
    | none => 0

/-- The key of a byte of a physical row, spare rows from 2,048. -/
def rawKey (site bank row o : Nat) : Nat :=
  if row < 2048 then 2 ^ 28 * site + bank * 0x400000 + row * 2048 + o else 2 ^ 28 * site + 0x0C000000 + (bank * 8 + (row - 2048)) * 2048 + o

/-- A byte of space 5: stored data; check bytes are of codes the spec does not give (log 62). -/
def rawByte (s : State) (k site o : Nat) : Byte :=
  let row := o / 4096 % 2056
  let bank := o / 4096 / 2056
  let b := o % 4096
  if b < 0x800 then Mem.get s.dram (rawKey site bank row b) else if b < 0x980 then Config.freeByte k o else 0

/-- A word of a physical line that holds a poisoned or uncorrectable word. -/
def rawPoison (s : State) (site o : Nat) : Bool :=
  decide (o % 4096 < 0x800) && (List.range 8).any fun i =>
    match s.wordSt (rawKey site (o / 4096 / 2056) (o / 4096 % 2056) (o % 4096 / 64 * 64) / 8 + i) with
    | .poison => true | .uncorrectable => true | _ => false

/-- `n` bytes of a debug space, and whether a poisoned line is among them; `k` is a draw. A read of space 0 is a view: it clears no register
that a read clears (R425; log 102). -/
def State.dbgBytes (s : State) (k : Nat) (m : Msg) (n : Nat) : List Byte × Bool :=
  let o := dbgOffset m
  let lines := (List.range (n / 64)).map fun i => o + 64 * i
  match dbgSpace m with
  | 0 => (expertBytes s (0x01000000 + o) n, false)
  | 1 => s.devRead k (devReserve + dbgStack m * 2 ^ 32 + 0xA8000000 + o) n
  | 2 => (match Tab.get s.dbg.shadows (dbgLcid m) with
      | some x => (slice (shadowBytes x.1 x.2) o n, false)
      | none => ((List.range n).map fun i => Config.freeByte k (o + i), false))
  | 3 => (slice (controlBytes s) o n, false)
  | 4 => (match s.dbg.latch with
      | some x => ((List.range n).map fun i => latchByte x (o + i), lines.any fun l => x.benchPoison.contains (l / 64))
      | none => ((List.range n).map fun i => Config.freeByte k (o + i), false))
  | _ => ((List.range n).map fun i => rawByte s k (dbgLcid m % 2 ^ 13) (o + i), lines.any fun l => rawPoison s (dbgLcid m % 2 ^ 13) l)

/-- Commands under DEBUG. -/
def debugAuth (replay : Bool) : Auth := grantAuth gDebug [] replay

/-- DBG_READ. -/
def cmdDbgRead (m : Msg) : Cmd :=
  cmd 0x0D00 3 (fun _ => debugAuth true) m
    (fun s => { formed (!dbgBad m && !s.dbgNowhere m) with denied := belowLevel s m (spaceLevel (dbgSpace m)), gone := s.dbgGone m })
    (fun t =>
      let (k, u) := draw t
      let r := t.dbgBytes k m (m.bufLen 1)
      completeData 0x0D00 m (if r.2 then .poison else .ok) (m.bufLen 1) [] r.1 u)

/-- DBG_READ. -/
def execDbgRead (m : Msg) (s : State) : Out := serveCmd (cmdDbgRead m) s

/-- A write of the debug control block is malformed. -/
def controlBad (b : List Byte) : Bool :=
  ((List.range 17).any fun i => let v := BitVec.ofNat 16 (field b (2 * i) 2); decide (v ≠ 0xFFFF) && !validLcid v)
    || decide (1 < field b 0x22 1) || decide (field b 0x23 5 ≠ 0) || ((slice b 0x30 16).any fun x => x != 0)

/-- A write of the control block names a logical core that the floor plan marks absent (R16). -/
def State.controlAbsent (s : State) (b : List Byte) : Bool :=
  (List.range 17).any fun i => let v := BitVec.ofNat 16 (field b (2 * i) 2); decide (v ≠ 0xFFFF) && (s.serving v).isNone

/-- A write of the control block changes BENCH_LCID or asks for a latch. -/
def asksLatch (s : State) (b : List Byte) : Bool :=
  decide (field b 0x20 2 ≠ s.dbg.benchLcid.toNat) || decide (field b 0x22 1 ≠ 0)

/-- DBG_WRITE: space 3 only. -/
def cmdDbgWrite (m : Msg) : Cmd :=
  let b := m.buf 64
  cmd 0x0D01 3 (fun _ => debugAuth false) m
    (fun s =>
      { formed (!dbgBad m && dbgSpace m == 3 && (m.dma.isNone || !controlBad b)) with
        denied := match belowLevel s m 2 with
          | some d => some d
          | none => if m.dma.isSome && asksLatch s b then belowLevel s m 3 else none
        dma := m.dma.isNone
        gone := m.dma.isSome && s.controlAbsent b })
    (fun t => accept 0x0D01 m [.dbgWrite 0 b] [] t)

/-- DBG_WRITE. -/
def execDbgWrite (m : Msg) (s : State) : Out := serveCmd (cmdDbgWrite m) s

/-- DBG_SCAN resets its quadrant: what its cores hold is cleared. Crumb units belong to the stack's crumb domain (R13). -/
def scanReset (q : Nat) (s : State) : State :=
  { s with cores := s.cores.filter fun e => match s.serving (BitVec.ofNat 16 e.1) with | some n => siteQuad n != q | none => true }

/-- DBG_SCAN: word 0 the quadrant; the chains go to the host buffer in an order the spec does not give (log 21). -/
def cmdDbgScan (m : Msg) : Cmd :=
  let q := m.word 0 % 2 ^ 32
  cmd 0x0D02 3 (fun _ => debugAuth true) m
    (fun s =>
      { formed ((m.objIn 4 80).isSome && !m.bufBad 1) with
        denied := belowLevel s m 3, gone := s.stackGone (q / 4), busy := !s.willAdmit.isEmpty || s.power.off.contains q })
    (fun t =>
      let (k, u) := draw t
      completeData 0x0D02 m .ok (m.bufLen 1) [] (slice (Config.scanBytes k) 0 (m.bufLen 1)) (scanReset q u))

/-- DBG_SCAN. -/
def execDbgScan (m : Msg) (s : State) : Out := serveCmd (cmdDbgScan m) s

/-- DBG_TAP_OPEN. -/
def cmdDbgTapOpen (m : Msg) : Cmd :=
  cmd 0x0D03 1 (fun _ => debugAuth false) m
    (fun s =>
      { formed (decide (m.word 0 = 0)) with
        denied := match belowLevel s m 2 with
          | some d => some d
          | none => if (match s.sessionOf m with | some x => x.tap | none => false) then none else some 5 })
    (fun t => accept 0x0D03 m [.tapOpen m.session.toNat] [] t)

/-- DBG_TAP_OPEN. -/
def execDbgTapOpen (m : Msg) (s : State) : Out := serveCmd (cmdDbgTapOpen m) s

/-- DBG_CLOSE. -/
def cmdDbgClose (m : Msg) : Cmd :=
  cmd 0x0D04 1 (fun _ => debugAuth false) m (fun _ => formed (decide (m.word 0 = 0)))
    (fun t => accept 0x0D04 m [.dbgClose m.session.toNat] [] t)

/-- DBG_CLOSE. -/
def execDbgClose (m : Msg) (s : State) : Out := serveCmd (cmdDbgClose m) s

/-! ## Firmware (R397-R400, R409, R410) -/

/-- The firmware measurement of an image. -/
def measure (b : List Byte) : List Byte := shake256 ([0x54, 0x5A, 0x2D, 0x46, 0x57] ++ b)

/-- The first check of R410 that an image of `n` bytes fails: 1 length, 2 header, 3 SVN, 4 signature, 5 FACTORY. -/
def imageFail (s : State) (n : Nat) (b : List Byte) : Option Nat :=
  let sig := field b 0x10 4
  if 48 * 2 ^ 20 < n ∨ n ≠ sig + 2820 ∨ sig ≠ 0x40 + field b 0xC 4 then some 1
  else if field b 0 2 ≠ 1 ∨ field b 2 2 ≠ s.fuses.stepping.toNat ∨ 1 < field b 4 4 ∨ ((slice b 0x14 44).any fun x => x != 0) then some 2
  else if field b 8 4 < s.mram.svnFloor then some 3
  else if !Config.xmssVerify 0x12 s.fuses.fwDigest (slice b 0 sig) (slice b sig 2820) then some 4
  else if field b 4 4 = 1 ∧ s.mram.life ≠ .blank ∧ s.mram.life ≠ .returned then some 5
  else none

/-- The image of a FW_LOAD or FW_REPLACE. -/
def imageOf (m : Msg) : List Byte := m.buf (m.bufLen 0)

/-- The check the image of a message fails, once it has been read. -/
def imageOut (m : Msg) (s : State) : Option Nat := if m.dma.isSome then imageFail s (m.bufLen 0) (imageOf m) else none

/-- The checks of FW_LOAD and FW_REPLACE; `busy` is the live state's. -/
def imageCheck (m : Msg) (busy gone : Bool) (s : State) : Check :=
  let f := imageOut m s
  { nospt := m.bufBad 0 || decide (48 * 2 ^ 20 < m.bufLen 0) || (match f with | some n => decide (n ≤ 4) | none => false)
    denied := if f = some 5 then some 4 else none
    dma := m.dma.isNone, gone := gone, busy := busy, limit := none }

/-- EV_FW_REJECTED with the check that failed. -/
def fwRejected (n : Nat) (s : State) : State := post (event .fwRejected none [n]) s

/-- The check of R410 that caused a refusal. A malformed message, such as one with a reserved field that is not zero, has no effect
but its answer (R5). -/
def imageCause (s : State) (m : Msg) (v : Status × Nat) : Option Nat :=
  if m.rsv || decide (4096 < m.session.toNat) || (s.mbAt m.mb).length != 16 || m.bufBad 0 then none
  else (imageOut m s).bind fun n => if (decide (n ≤ 4) && decide (v.1 = .nospt)) || (n == 5 && decide (v = (.denied, 4))) then some n else none

/-- A refusal that the image caused posts EV_FW_REJECTED (R410). -/
def imageMiss (s : State) (m : Msg) (v : Status × Nat) (t : State) : State :=
  match imageCause s m v with
  | some n => fwRejected n t
  | none => t

/-- FW_LOAD: while an image is waited for, MB0 needs no session. A rejected image writes its stage record. -/
def cmdFwLoad (m : Msg) : Cmd :=
  cmdElse 0x0E00 2 (fun s => if s.boot.fetchWait then ⟨none, false, [], true⟩ else grantAuth gFirmware [] false) m
    (fun s => imageCheck m (!(s.boot.fetchWait && m.mb == 0)) false s)
    (fun s v t => if s.boot.fetchWait && m.mb == 0 && (imageCause s m v).isSome then rejectP7 (imageMiss s m v t) else t)
    (fun t => passP7 (imageOf m) (measure (imageOf m)) (field (imageOf m) 8 4)
      (complete 0x0E00 m .ok 0 0 (bodyWords 4 (measure (imageOf m))) t))

/-- FW_LOAD. -/
def execFwLoad (m : Msg) (s : State) : Out := serveCmd (cmdFwLoad m) s

/-- FW_REPLACE: stages an image in place of one staged before. -/
def cmdFwReplace (m : Msg) : Cmd :=
  cmdElse 0x0E01 2 (fun _ => grantAuth gFirmware [] false) m (fun s => imageCheck m false (s.stackGone 7 && s.stackGone 12) s) (fun s => imageMiss s m)
    (fun t =>
      let b := imageOf m
      complete 0x0E01 m .ok 0 0 (bodyWords 4 (measure b))
        { t with hearth := { t.hearth with staged := some ⟨m.session.toNat, measure b, field b 8 4, b, t.seqr.time⟩ } })

/-- FW_REPLACE. -/
def execFwReplace (m : Msg) (s : State) : Out := serveCmd (cmdFwReplace m) s

/-- FW_ACTIVATE: from its acceptance no further command is served; FIRMWARE_HANDOVER answers it. With nothing staged there is nothing to
activate (log 64). -/
def cmdFwActivate (m : Msg) : Cmd :=
  cmd 0x0E02 1 (fun _ => grantAuth gFirmware [] false) m (fun s => formed (decide (m.word 0 = 0) && s.hearth.staged.isSome))
    (fun t =>
      let u := t.setMb m.mb { t.mbAt m.mb with served := true }
      { u with
        changes := u.changes ++ [.fwActivate m.mb], cmds := u.cmds ++ [cmdRecord m t]
        hearth := { u.hearth with handover := some m.mb } })

/-- FW_ACTIVATE. -/
def execFwActivate (m : Msg) (s : State) : Out := serveCmd (cmdFwActivate m) s

/-- An item of contents the spec does not state (log 65). -/
def freeItem (k start : Nat) : Items := numbered start [(List.range 64).map fun i => Config.freeByte k i]

/-- FW_STATUS. -/
def cmdFwStatus (m : Msg) : Cmd :=
  cmd 0x0E03 4 (fun _ => readAuth) m (fun _ => formed (decide (m.word 0 = 0) && !m.bufBad 2))
    (fun t => let (k, u) := draw t; readItems 0x0E03 m (freeItem k (m.word 1)) u)

/-- FW_STATUS. -/
def execFwStatus (m : Msg) (s : State) : Out := serveCmd (cmdFwStatus m) s

/-! ## CAP_ -/

/-- CAP_READ: the function's capability list, one item (log 65). -/
def cmdCapRead (m : Msg) : Cmd :=
  readCmd 0x0F00 readAuth m (fun _ => formed (decide (m.word 0 = 0)))
    (fun t => numbered (m.word 1) [capList t (t.mbFn m.mb)])

/-- CAP_READ. -/
def execCapRead (m : Msg) (s : State) : Out := serveCmd (cmdCapRead m) s

/-- CAP_EVENT_READ: the event log from an EVENT_INDEX on. -/
def cmdCapEventRead (m : Msg) : Cmd :=
  readCmd 0x0F01 readAuth m (fun s => { formed (decide (m.word 0 = 0)) with gone := s.mirrorGone })
    (fun t => t.eventLog.filterMap fun r => if m.word 1 ≤ r.index then some (r.bytes, r.index + 1) else none)

/-- CAP_EVENT_READ. -/
def execCapEventRead (m : Msg) (s : State) : Out := serveCmd (cmdCapEventRead m) s

/-- CAP_STATUS. -/
def cmdCapStatus (m : Msg) : Cmd :=
  cmd 0x0F02 4 (fun _ => readAuth) m (fun _ => formed (decide (m.word 0 = 0) && !m.bufBad 2))
    (fun t => let (k, u) := draw t; readItems 0x0F02 m (freeItem k (m.word 1)) u)

/-- CAP_STATUS. -/
def execCapStatus (m : Msg) (s : State) : Out := serveCmd (cmdCapStatus m) s

end Sys2Proof.Machine
end

