-- ==== Sys2Proof/Machine/KvCmds.lean ====
section
/-! DEFINITION. SEQ_ and KV_ commands (R42, R45, R171-R189, R205-R207, R384, R389, R392). What a command changes is a function of
its message, so that a replayed command record can make the same change (R226). -/

namespace Sys2Proof

open Sys2Proof.Machine

/-- Word 0 names a sequence slot. -/
def Msg.seqSlot (m : Msg) : Nat := m.word 0 % 2 ^ 32

/-- Word 0 is malformed as a sequence slot. -/
def Msg.seqBad (m : Msg) : Bool := (m.objIn 2 131072).isNone

end Sys2Proof

namespace Sys2Proof.Machine

open Sys2Proof

/-! ## Sequences -/

/-- SEQ_ and KV_ commands that change state: the grant, and the owners of the sequences named (R384, log 66). -/
def seqAuth (slots : List Nat) (replay : Bool) (s : State) : Auth :=
  grantAuth gSeq (slots.filterMap fun i => (s.seqAt i).map fun r => r.owner) replay

/-- What a command of the tick does to a slot: it closes it. -/
def State.closingSeq (s : State) (slot : Nat) : Bool := s.changes.any fun c => match c with | .seqClose i => i == slot | _ => false

/-- DENIED of a command on a slot that is not open, or that a command of the tick closes (R207). -/
def State.notOpen (s : State) (slot : Nat) : Option Nat := if (s.seqAt slot).isSome && !s.closingSeq slot then none else some 6

/-- The record SEQ_OPEN opens a slot from: the device sets STATE, GENERATION, DIR and SHADOW. -/
def seqOf (owner fn : Nat) (b : List Byte) : SeqRec :=
  { isOpen := true, home := field b 1 1,
    groups := (List.range (field b 2 1)).map fun i =>
      ⟨BitVec.ofNat 16 (field b (64 + 16 * i) 2), field b (66 + 16 * i) 1, field b (67 + 16 * i) 1, 0, none, [], none⟩
    hold := BitVec.ofNat 4 (field b 3 1), gen := 0, plan := field b 8 2, owner := owner, fn := fn }

/-- The record of SEQ_OPEN is well formed. -/
def seqFormed (s : State) (b : List Byte) : Bool :=
  let n := field b 2 1
  let home := field b 1 1
  let plan := field b 8 2
  let zero (i k : Nat) : Bool := (slice b i k).all fun x => x == 0
  decide (1 ≤ n) && decide (n ≤ 16) && decide (home < 20) && decide (field b 3 1 < 2) && zero 10 54 && zero 320 192
    && zero (64 + 16 * n) (16 * (16 - n)) && (plan == 0xFFFF || (decide (plan ≤ 127) && (s.planAt plan).isSome))
    && (List.range n).all fun i =>
        let c : Lcid := BitVec.ofNat 16 (field b (64 + 16 * i) 2)
        let k := field b (67 + 16 * i) 1
        validLcid c && lcStack c == home && (Tab.get s.layouts (field b (66 + 16 * i) 1)).isSome && decide (4 ≤ k) && decide (k ≤ 12)
          && field b (68 + 16 * i) 4 == 0

/-- What SEQ_OPEN changes. -/
def seqOpenChange (m : Msg) (s : State) : List Change := [.seqOpen m.seqSlot (seqOf m.session.toNat (s.mbFn m.mb) (structBytes m))]

/-- SEQ_OPEN. -/
def cmdSeqOpen (m : Msg) : Cmd :=
  let b := structBytes m
  cmd 0x0100 4 (fun _ => grantAuth gSeq [] true) m
    (fun s =>
      let r := seqOf 0 0 b
      { nospt := m.seqBad || structBad m || (m.dma.isSome && !(structFits m 512 && seqFormed s b))
        denied := if s.openSeqs.any fun e => e.1 == m.seqSlot then some 6 else none
        dma := m.dma.isNone
        gone := s.stackGone r.home || r.groups.any fun g => (s.serving g.lcid).isNone
        busy := s.changes.any fun c => match c with | .planUnload i => i == r.plan | _ => false
        limit := none })
    (fun t => accept 0x0100 m (seqOpenChange m t) [] t)

/-- SEQ_OPEN. -/
def execSeqOpen (m : Msg) (s : State) : Out := serveCmd (cmdSeqOpen m) s

/-- A command on one open sequence that names no other argument. -/
def seqSimple (op : Nat) (c : Change) (m : Msg) : Cmd :=
  cmd op 1 (seqAuth [m.seqSlot] true) m
    (fun s => { formed (!m.seqBad) with denied := s.notOpen m.seqSlot }) (fun t => accept op m [c] [] t)

/-- SEQ_CLOSE. -/
def cmdSeqClose (m : Msg) : Cmd := seqSimple 0x0101 (.seqClose m.seqSlot) m

/-- SEQ_CLOSE. -/
def execSeqClose (m : Msg) (s : State) : Out := serveCmd (cmdSeqClose m) s

/-- SEQ_HOLD: HOLD bit HOST is set. -/
def cmdSeqHold (m : Msg) : Cmd := seqSimple 0x0102 (.seqHold m.seqSlot) m

/-- SEQ_HOLD. -/
def execSeqHold (m : Msg) (s : State) : Out := serveCmd (cmdSeqHold m) s

/-- SEQ_RELEASE: HOLD bit HOST clears, and no other. -/
def cmdSeqRelease (m : Msg) : Cmd := seqSimple 0x0103 (.seqRelease m.seqSlot) m

/-- SEQ_RELEASE. -/
def execSeqRelease (m : Msg) (s : State) : Out := serveCmd (cmdSeqRelease m) s

/-- SEQ_READ: the sequence record, item 0. -/
def cmdSeqRead (m : Msg) : Cmd :=
  readCmd 0x0105 readAuth m (fun _ => formed (!m.seqBad)) (fun t => numbered (m.word 1) [seqBytes t m.seqSlot])

/-- SEQ_READ. -/
def execSeqRead (m : Msg) (s : State) : Out := serveCmd (cmdSeqRead m) s

/-! ## SEQ_INGEST (R392) -/

/-- The records of an ingest buffer, as sequence slot and payload; none where they do not fill the bytes given exactly, or a header
is malformed. -/
def ingestRecs : Nat → Nat → List Byte → Option (List (Nat × List Byte))
  | 0, _, b => if b.isEmpty then some [] else none
  | n + 1, most, b =>
    let len := field b 4 4
    let size := 64 + roundUp len 64
    if b.length < 64 ∨ len = 0 ∨ most < len ∨ 2 ^ 17 ≤ field b 0 4 ∨ (slice b 8 56).any (fun x => x != 0) ∨ b.length < size
        ∨ ((b.take size).drop (64 + len)).any (fun x => x != 0) then none
    else (ingestRecs n most (b.drop size)).map fun l => (field b 0 4, slice b 64 len) :: l

/-- PLAN_SLOT and COUNT of SEQ_INGEST. -/
def ingestPlan (m : Msg) : Nat := m.word 0 % 2 ^ 16
def ingestCount (m : Msg) : Nat := m.word 0 / 2 ^ 16 % 2 ^ 16

/-- The records of a SEQ_INGEST. -/
def State.ingestOf (s : State) (m : Msg) : Option (List (Nat × List Byte)) :=
  match s.planAt (ingestPlan m) with
  | none => none
  | some p => ingestRecs (ingestCount m) p.maxInputBytes (m.buf (m.bufLen 1))

/-- Every record's slot is open for the plan. -/
def State.openFor (s : State) (plan : Nat) (l : List (Nat × List Byte)) : Bool :=
  l.all fun r => match s.seqAt r.1 with | some q => q.plan == plan | none => false

/-- The stack that homes a record's sequence. -/
def State.homeOf (s : State) (slot : Nat) : Nat := match s.seqAt slot with | some r => r.home | none => 0

/-- The records fit the rings that must hold them (R45). -/
def State.ringsHold (s : State) (l : List (Nat × List Byte)) : Bool :=
  (l.map fun r => s.homeOf r.1).eraseDups.all fun n =>
    decide ((l.filter fun r => s.homeOf r.1 == n).foldl (fun k r => k + recBytes r.2.length) 0 ≤ s.ringFree n)

/-- The checks of SEQ_INGEST. -/
def ingestCheck (m : Msg) (s : State) : Check :=
  let l := (s.ingestOf m).getD []
  { nospt := decide (m.word 0 / 2 ^ 32 ≠ 0) || m.bufBad 1 || decide (ingestCount m = 0) || decide (4096 < ingestCount m)
      || decide (127 < ingestPlan m) || (s.planAt (ingestPlan m)).isNone
      || (m.dma.isSome && ((s.ingestOf m).isNone || !s.openFor (ingestPlan m) l))
    denied := none
    dma := m.dma.isNone
    gone := l.any fun r => s.stackGone (s.homeOf r.1)
    busy := (match s.planAt (ingestPlan m) with | some p => p.backpressured | none => false) || !s.ringsHold l
    limit := none }

/-- SEQ_INGEST: the journal writes begin in buffer order, and the last answers the command (R42). -/
def runIngest (m : Msg) (s : State) : State :=
  let l := (s.ingestOf m).getD []
  let recs : List JPend := (List.range l.length).map fun i =>
    let r := l.getD i (0, [])
    { record := { index := 0, seqSlot := r.1, arrival := 0, plan := ingestPlan m, source := 0, payload := r.2, home := s.homeOf r.1,
                  bad := false, consumedBy := none }
      answer := if i + 1 = l.length then some (m.mb, l.length) else none
      reply := none }
  { s.setMb m.mb { s.mbAt m.mb with served := true } with jpend := s.jpend ++ recs }

/-- SEQ_INGEST. -/
def cmdSeqIngest (m : Msg) : Cmd :=
  cmd 0x0104 3 (fun _ => grantAuth gIngest [] false) m (ingestCheck m) (runIngest m)

/-- SEQ_INGEST. -/
def execSeqIngest (m : Msg) (s : State) : Out := serveCmd (cmdSeqIngest m) s

/-! ## Layouts and pools (R171-R176) -/

/-- The layout a structure gives, if it is one of the table's (log 47). -/
def layoutOf (b : List Byte) : Option Layout :=
  let l : Layout := { headDim := field b 0 2, fmt := field b 2 1, heads := field b 3 1, gqa := field b 4 1 }
  if [64, 128, 256].contains l.headDim && decide (1 ≤ l.fmt) && decide (l.fmt ≤ 3) && decide (1 ≤ l.heads) && decide (l.heads ≤ 16)
      && [1, 2, 4, 8, 16].contains l.gqa && (slice b 5 11).all (fun x => x == 0) then some l else none

/-- Pools of the device, with those that commands of the tick create. -/
def State.allPools (s : State) : List (Nat × Pool) :=
  s.pools ++ s.changes.filterMap fun c => match c with | .poolCreate k p => some (k, p) | _ => none

/-- The layout slot of word 0. -/
def Msg.layoutSlot (m : Msg) : Nat := m.word 0 % 2 ^ 32

/-- What KV_LAYOUT_SET changes. -/
def layoutChange (m : Msg) (s : State) : List Change :=
  match layoutOf (structBytes m) with
  | some l => [.layout (m.word 0 % 2 ^ 32) l m.session.toNat (s.mbFn m.mb)]
  | none => []

/-- KV_LAYOUT_SET. -/
def cmdKvLayoutSet (m : Msg) : Cmd :=
  let slot := m.word 0 % 2 ^ 32
  cmd 0x0500 4 (fun s => grantAuth gSeq (match Tab.get s.layoutOwners slot with | some o => [o.1] | none => []) true) m
    (fun s =>
      { nospt := (m.objIn 8 256).isNone || structBad m || (m.dma.isSome && !(structFits m 16 && (layoutOf (structBytes m)).isSome))
        denied := none
        dma := m.dma.isNone
        gone := false
        busy := s.allPools.any fun e => e.2.layout == slot
        limit := none })
    (fun t => accept 0x0500 m (layoutChange m t) [] t)

/-- KV_LAYOUT_SET. -/
def execKvLayoutSet (m : Msg) (s : State) : Out := serveCmd (cmdKvLayoutSet m) s

/-- The pool a KV_POOL_CREATE asks for. -/
def poolOf (m : Msg) (s : State) : Pool :=
  { lcid := ordLc (m.word 0 % 2 ^ 32 / 16), layout := m.word 1, pageLog2 := m.word 2, base := m.word 3, frames := m.word 4, firstPfn := 0,
    free := [], count := 0, owner := m.session.toNat, fn := s.mbFn m.mb, low := false }

/-- Bytes the frames of a pool take. -/
def Pool.size (p : Pool) (s : State) : Nat :=
  match Tab.get s.layouts p.layout with
  | some l => p.frames * frameStride l p.pageLog2
  | none => 0

/-- KV_POOL_CREATE is malformed (R173). -/
def poolBad (m : Msg) (s : State) : Bool :=
  let p := poolOf m s
  let mine := s.allPools.filter fun e => decide (e.2.lcid = p.lcid)
  (m.objIn 7 76800).isNone || decide (255 < p.layout) || decide (p.pageLog2 < 4) || decide (12 < p.pageLog2) || decide (p.base % 2048 ≠ 0)
    || decide (p.frames = 0)
    || (match Tab.get s.layouts p.layout with | some l => decide (16 * 2 ^ 20 < pageBytes l p.pageLog2) | none => true)
    || decide (privateSize s.cfg.globalSteps < p.base + p.size s) || decide (16 ≤ mine.length)
    || mine.any fun e => decide (p.base < e.2.base + e.2.size s) && decide (e.2.base < p.base + p.size s)

/-- The state once the pool commands of the tick have committed, for the run of descriptors the next pool takes. -/
def State.poolsAhead (s : State) : State :=
  s.changes.foldl (fun t c => match c with | .poolCreate k p => applyPoolCreate k p t | .poolDestroy k => applyPoolDestroy k t | _ => t) s

/-- What KV_POOL_CREATE changes. -/
def poolChange (m : Msg) (s : State) : List Change := [.poolCreate (m.word 0 % 2 ^ 32) (poolOf m s)]

/-- KV_POOL_CREATE: words 1 to 4 the layout slot, the page size *k*, the base offset and the frame count. -/
def cmdKvPoolCreate (m : Msg) : Cmd :=
  let key := m.word 0 % 2 ^ 32
  cmd 0x0501 5 (fun _ => grantAuth gSeq [] true) m
    (fun s =>
      { nospt := poolBad m s
        denied := none
        dma := false
        gone := s.stackGone (lcStack (ordLc (key / 16))) || (s.serving (ordLc (key / 16))).isNone
        busy := s.allPools.any fun e => e.1 == key
        limit := if (s.poolsAhead.descRun (lcStack (ordLc (key / 16))) (m.word 4)).isNone then some 0 else none })
    (fun t => accept 0x0501 m (poolChange m t) [] t)

/-- KV_POOL_CREATE. -/
def execKvPoolCreate (m : Msg) (s : State) : Out := serveCmd (cmdKvPoolCreate m) s

/-- Frames of a pool that the tick has taken. -/
def State.takenOf (s : State) (p : Pool) : Bool := s.work.taken.any fun f => decide (p.firstPfn ≤ f) && decide (f < p.firstPfn + 20 * p.frames) && f % 20 == p.firstPfn % 20

/-- KV_POOL_DESTROY: a pool whose frames are all free. -/
def cmdKvPoolDestroy (m : Msg) : Cmd :=
  let key := m.word 0 % 2 ^ 32
  cmd 0x0502 1 (fun s => grantAuth gSeq (match Tab.get s.pools key with | some p => [p.owner] | none => []) false) m
    (fun s =>
      { formed ((m.objIn 7 76800).isSome && (Tab.get s.pools key).isSome) with
        gone := s.stackGone (lcStack (ordLc (key / 16)))
        busy := (match Tab.get s.pools key with | some p => decide (p.free.length ≠ p.frames) || s.takenOf p | none => false)
          || s.changes.any fun c => match c with | .poolDestroy k => k == key | _ => false })
    (fun t => accept 0x0502 m [.poolDestroy key] [] t)

/-- KV_POOL_DESTROY. -/
def execKvPoolDestroy (m : Msg) (s : State) : Out := serveCmd (cmdKvPoolDestroy m) s

/-! ## The table store (R186) -/

/-- The copies that changes of some pages of a group need: slot, group and leaf. -/
def copiesAt (slot g : Nat) (pages : List Nat) : List (Nat × Nat × Nat) := (pages.map fun n => (slot, g, n / 64)).eraseDups

/-- Pages of a group from position `lo` on, and up to position `hi` where one is given. -/
def State.pagesFrom (s : State) (g : Group) (lo : Nat) (hi : Option Nat) : List Nat :=
  ((s.pages g).filter fun e => decide (lo < (e.1 + 1) * 2 ^ g.pageLog2) && (match hi with | some h => decide (e.1 * 2 ^ g.pageLog2 < h) | none => true)).map Prod.fst

/-- The copies a change needs. -/
def State.copiesOf (s : State) (c : Change) : List (Nat × Nat × Nat) :=
  let all (slot src : Nat) (f : Group → List Nat) : List (Nat × Nat × Nat) :=
    (List.range (s.groupsOf src).length).flatMap fun i => match s.groupAt src i with | some g => copiesAt slot i (f g) | none => []
  match c with
  | .fork src dst len => all src src (fun g => s.pagesFrom g 0 (some len)) ++ all dst src fun g => s.pagesFrom g 0 (some len)
  | .truncate slot len => all slot slot fun g => if g.len ≤ len then [] else s.pagesFrom g (len - 1) none
  | .retirePages slot g lo n => copiesAt slot g ((List.range n).map fun i => lo + i)
  | .kvMap slot g page _ => copiesAt slot g [page]
  | .kvUnmap slot g page => copiesAt slot g [page]
  | _ => []

/-- The state with the copies a change needs in the shadows; none where the table store has no table for one. -/
def State.copied (s : State) (c : Change) : Option State :=
  (s.copiesOf c).foldl (fun t x => t.bind (copyLeaf false x.1 x.2.1 x.2.2)) (some s)

/-- An edit of a sequence's tables is accepted: its copies are made (R186). -/
def acceptEdit (op : Nat) (m : Msg) (c : Change) (t : State) : State := accept op m [c] [] ((t.copied c).getD t)

/-- The checks of an edit of a sequence's tables: LIMIT where the store lacks tables. -/
def editCheck (m : Msg) (bad : Bool) (denied : Option Nat) (c : Change) (s : State) : Check :=
  { nospt := m.seqBad || bad
    denied := match s.notOpen m.seqSlot with | some d => some d | none => denied
    dma := false
    gone := s.stackGone (s.homeOf m.seqSlot)
    busy := false
    limit := if (s.copied c).isNone then some 0 else none }

/-! ## Edits (R183, R185, R207) -/

/-- What KV_FORK changes. -/
def forkChange (m : Msg) : Change := .fork m.seqSlot (m.word 1) (m.word 2)

/-- The two sequences of a fork are unlike (R183). -/
def forkUnlike (s : State) (src dst : Nat) : Bool :=
  match s.seqAt src, s.seqAt dst with
  | some a, some b =>
    decide (src = dst) || a.home != b.home || a.groups.length != b.groups.length || s.closingSeq dst
      || (a.groups.zip b.groups).any fun p => p.1.layout != p.2.layout || p.1.pageLog2 != p.2.pageLog2 || p.2.len != 0
  | _, _ => true

/-- KV_FORK: word 1 the destination slot, word 2 the length. -/
def cmdKvFork (m : Msg) : Cmd :=
  cmd 0x0503 3 (seqAuth [m.seqSlot, m.word 1] false) m
    (fun s => editCheck m (decide (131072 ≤ m.word 1) || (s.groupsOf m.seqSlot).any fun g => decide (g.len < m.word 2))
      (if forkUnlike s m.seqSlot (m.word 1) then some 6 else none) (forkChange m) s)
    (acceptEdit 0x0503 m (forkChange m))

/-- KV_FORK. -/
def execKvFork (m : Msg) (s : State) : Out := serveCmd (cmdKvFork m) s

/-- KV_TRUNCATE: word 1 the length. -/
def cmdKvTruncate (m : Msg) : Cmd :=
  let c : Change := .truncate m.seqSlot (m.word 1)
  cmd 0x0504 2 (seqAuth [m.seqSlot] false) m
    (fun s => editCheck m ((s.seqAt m.seqSlot).isSome && (s.groupsOf m.seqSlot).all fun g => decide (g.len < m.word 1)) none c s)
    (acceptEdit 0x0504 m c)

/-- KV_TRUNCATE. -/
def execKvTruncate (m : Msg) (s : State) : Out := serveCmd (cmdKvTruncate m) s

/-- The group of word 1 is not one of the sequence's. -/
def groupBad (m : Msg) (s : State) : Bool :=
  decide (16 ≤ m.word 1) || ((s.seqAt m.seqSlot).isSome && decide ((s.groupsOf m.seqSlot).length ≤ m.word 1))

/-- KV_RETIRE_PAGES: word 1 the group, words 2 and 3 the first page and how many; pages hold positions below LENGTH (log 67). -/
def cmdKvRetirePages (m : Msg) : Cmd :=
  let c : Change := .retirePages m.seqSlot (m.word 1) (m.word 2) (m.word 3)
  cmd 0x0505 4 (seqAuth [m.seqSlot] false) m
    (fun s => editCheck m
      (groupBad m s || decide (4096 < m.word 2 + m.word 3)
        || (match s.groupAt m.seqSlot (m.word 1) with
            | some g => decide (ceilDiv g.len (2 ^ g.pageLog2) < m.word 2 + m.word 3)
            | none => false)) none c s)
    (acceptEdit 0x0505 m c)

/-- KV_RETIRE_PAGES. -/
def execKvRetirePages (m : Msg) (s : State) : Out := serveCmd (cmdKvRetirePages m) s

/-- A sequence that is not held: its tables may not be edited entry by entry (R207). -/
def notHeld (s : State) (slot : Nat) : Option Nat := match s.seqAt slot with | some r => if r.hold = 0 then some 6 else none | none => none

/-- The entry KV_MAP sets: word 3 is the PFN, and word 4 holds RETIRED, COW and SHARED from bit 0 (log 68). -/
def mapEntry (m : Msg) : Pte :=
  { retired := m.word 4 % 2 == 1, cow := m.word 4 / 2 % 2 == 1, shared := m.word 4 / 4 % 2 == 1, valid := true, pfn := m.word 3 }

/-- The frame of KV_MAP is of another stack, or not allocated to the group's layout. -/
def frameBad (m : Msg) (s : State) : Bool :=
  match s.groupAt m.seqSlot (m.word 1) with
  | none => false
  | some g => m.word 3 % 20 != s.homeOf m.seqSlot || (s.descOf (m.word 3)).st != .allocated || (s.descOf (m.word 3)).layout != g.layout

/-- KV_MAP: words 1 to 4 the group, the page, the PFN and flags. -/
def cmdKvMap (m : Msg) : Cmd :=
  let c : Change := .kvMap m.seqSlot (m.word 1) (m.word 2) (mapEntry m)
  cmd 0x0506 5 (seqAuth [m.seqSlot] true) m
    (fun s => editCheck m (groupBad m s || decide (4096 ≤ m.word 2) || decide (2 ^ 24 ≤ m.word 3) || decide (8 ≤ m.word 4) || frameBad m s)
      (notHeld s m.seqSlot) c s)
    (acceptEdit 0x0506 m c)

/-- KV_MAP. -/
def execKvMap (m : Msg) (s : State) : Out := serveCmd (cmdKvMap m) s

/-- KV_UNMAP: words 1 and 2 the group and the page. -/
def cmdKvUnmap (m : Msg) : Cmd :=
  let c : Change := .kvUnmap m.seqSlot (m.word 1) (m.word 2)
  cmd 0x0507 3 (seqAuth [m.seqSlot] false) m
    (fun s => editCheck m (groupBad m s || decide (4096 ≤ m.word 2)) (notHeld s m.seqSlot) c s)
    (acceptEdit 0x0507 m c)

/-- KV_UNMAP. -/
def execKvUnmap (m : Msg) (s : State) : Out := serveCmd (cmdKvUnmap m) s

/-! ## Reads (R187, R206) -/

/-- Items of a sequence: its record, then each group's directory and leaves. -/
def seqTables (s : State) (slot : Nat) : List (List Byte) :=
  seqBytes s slot :: (s.groupsOf slot).flatMap fun g =>
    match g.dir with
    | some d => (d :: (List.range 64).filterMap (s.leafOf g.home d)).map fun n => tableBytes s g.home n
    | none => []

/-- Items of a pool: its record, then its descriptors. -/
def poolItems (s : State) (key : Nat) : List (List Byte) :=
  match Tab.get s.pools key with
  | some p => poolBytes s key :: (List.range p.frames).map fun j => descBytes s (p.firstPfn + 20 * j)
  | none => []

/-- KV_READ: of a sequence or of a pool, by its object word; the start point counts items from 0 (log 60). -/
def cmdKvRead (m : Msg) : Cmd :=
  let n := m.word 0 % 2 ^ 32
  readCmd 0x0508 ⟨some gSeq, true, [], true⟩ m
    (fun s =>
      match m.obj 7 with
      | some _ => { formed (decide (n < 76800) && (Tab.get s.pools n).isSome) with gone := s.stackGone (n / 3840) }
      | none => { formed (!m.seqBad) with gone := s.stackGone (s.homeOf n) })
    (fun t => numbered (m.word 1) (match m.obj 7 with | some _ => poolItems t n | none => seqTables t n))

/-- KV_READ. -/
def execKvRead (m : Msg) (s : State) : Out := serveCmd (cmdKvRead m) s

/-- The places of the committed rows of a group, in the order a digest takes them: site, private offset and length. Positions that are
not kept contribute nothing. -/
def digestRows (s : State) (g : Group) (l : Layout) : List (Nat × Nat × Nat) :=
  (List.range g.len).flatMap fun t =>
    match s.keptAt g t with
    | some pfn =>
      let d := s.descOf pfn
      (List.range l.heads).flatMap fun h =>
        (l.rows (2 ^ g.pageLog2) h (t % 2 ^ g.pageLog2)).map fun r => (lcSite d.lcid, d.off + r.1, r.2)
    | none => []

/-- The rows a KV_DIGEST reads. -/
def digestOf (m : Msg) (s : State) : List (Nat × Nat × Nat) :=
  match s.groupAt m.seqSlot (m.word 1) with
  | some g => (match Tab.get s.layouts g.layout with | some l => digestRows s g l | none => [])
  | none => []

/-- What KV_DIGEST answers: POISON where a line read is poisoned. -/
def runDigest (m : Msg) (s : State) : State :=
  let l := digestOf m s
  let bad := l.any fun r => (s.privLines r.2.1 r.2.2).any fun x => s.linePoison r.1 x
  complete 0x050D m (if bad then .poison else .ok) 0 0 (bodyWords 4 (shake256 (l.flatMap fun r => s.privBytes r.1 r.2.1 r.2.2))) s

/-- KV_DIGEST: word 1 the group. -/
def cmdKvDigest (m : Msg) : Cmd :=
  cmd 0x050D 2 (fun s => { seqAuth [m.seqSlot] true s with replay := true }) m
    (fun s => { formed (!m.seqBad && !groupBad m s) with
                denied := s.notOpen m.seqSlot
                gone := s.stackGone (s.homeOf m.seqSlot) || (digestOf m s).any fun r => s.sliceGone r.1 })
    (runDigest m)

/-- KV_DIGEST. -/
def execKvDigest (m : Msg) (s : State) : Out := serveCmd (cmdKvDigest m) s

/-! ## Frames and moves (R189, R205) -/

/-- The spare frame that KV_RETIRE_FRAME gives an allocated frame's contents (R189). -/
def State.spareFor (s : State) (pfn : Nat) : Option Nat :=
  let d := s.descOf pfn
  match Tab.get s.pools (poolKey d) with
  | some p => if d.st = .free then none else s.poolFrame p
  | none => none

/-- What KV_RETIRE_FRAME changes. -/
def retireChange (m : Msg) (s : State) : Change := .retireFrame (m.word 1) (s.spareFor (m.word 1))

/-- KV_RETIRE_FRAME: word 1 the PFN. A frame retired already, being retired, or just taken by the tick is BUSY (log 76). -/
def cmdKvRetireFrame (m : Msg) : Cmd :=
  let pfn := m.word 1
  cmd 0x0509 2 (fun _ => grantAuth gSeq [] false) m
    (fun s =>
      let d := s.descOf pfn
      { nospt := decide (m.word 0 ≠ 0) || decide (2 ^ 24 ≤ pfn) || d.st == .unused || d.st == .retired
        denied := none
        dma := false
        gone := s.stackGone (pfn % 20)
        busy := s.frameTaken pfn
        limit := if d.st ≠ .free ∧ (s.spareFor pfn).isNone then some 0 else none })
    (fun t => accept 0x0509 m [retireChange m t] [] t)

/-- KV_RETIRE_FRAME. -/
def execKvRetireFrame (m : Msg) (s : State) : Out := serveCmd (cmdKvRetireFrame m) s

/-- A move of the sequence is under way, or a command of the tick starts one. -/
def State.moving (s : State) (slot : Nat) : Bool :=
  ((s.groupsOf slot).any fun g => g.move.isSome)
    || s.changes.any fun c => match c with | .kvMove i _ _ => i == slot | .kvRestore i _ => i == slot | _ => false

/-- The checks of a move. -/
def moveCheck (m : Msg) (bad gone : Bool) (limit : Bool) (s : State) : Check :=
  { nospt := m.seqBad || bad
    denied := s.notOpen m.seqSlot
    dma := false
    gone := s.stackGone (s.homeOf m.seqSlot) || gone
    busy := s.moving m.seqSlot
    limit := if limit then some 0 else none }

/-- What KV_REPAGE changes. -/
def repageChange (m : Msg) (s : State) : Change :=
  .kvMove m.seqSlot (some (m.word 1)) { kind := 0, pageLog2 := m.word 2, home := s.homeOf m.seqSlot, lcid := 0, done := 0, total := 0, data := [] }

/-- KV_REPAGE: word 1 the group, word 2 the page size *k*. -/
def cmdKvRepage (m : Msg) : Cmd :=
  cmd 0x050A 3 (seqAuth [m.seqSlot] false) m
    (fun s => moveCheck m (groupBad m s || decide (m.word 2 < 4) || decide (12 < m.word 2)) false
      (match s.groupAt m.seqSlot (m.word 1) with | some g => decide (4096 * 2 ^ m.word 2 < g.len) | none => false) s)
    (fun t => accept 0x050A m [repageChange m t] [] t)

/-- KV_REPAGE. -/
def execKvRepage (m : Msg) (s : State) : Out := serveCmd (cmdKvRepage m) s

/-- What KV_REHOME changes. -/
def rehomeChange (m : Msg) : Change :=
  .kvMove m.seqSlot none { kind := 1, pageLog2 := 8, home := m.word 1, lcid := 0, done := 0, total := 0, data := [] }

/-- KV_REHOME: word 1 the stack; each group is served there by the core of its own row and column (log 69). -/
def cmdKvRehome (m : Msg) : Cmd :=
  cmd 0x050B 2 (seqAuth [m.seqSlot] false) m
    (fun s => moveCheck m (decide (20 ≤ m.word 1))
      (s.stackGone (m.word 1) || (s.groupsOf m.seqSlot).any fun g => (s.serving (BitVec.ofNat 16 (256 * m.word 1 + g.lcid.toNat % 256))).isNone)
      false s)
    (fun t => accept 0x050B m [rehomeChange m] [] t)

/-- KV_REHOME. -/
def execKvRehome (m : Msg) (s : State) : Out := serveCmd (cmdKvRehome m) s

/-- Bytes of the contents that follow the record of a KV_RESTORE: each group's LENGTH times its token width. -/
def restoreBytes (s : State) (slot : Nat) (b : List Byte) : Nat :=
  (List.range (s.groupsOf slot).length).foldl
    (fun n i => n + (match s.groupAt slot i with
      | some g => (match Tab.get s.layouts g.layout with | some l => field b (68 + 16 * i) 4 * l.width | none => 0)
      | none => 0)) 0

/-- The record of a KV_RESTORE is malformed: it must be of the open sequence's groups, with legal lengths and page sizes.
Its reserved bytes are ignored: R207 asks for zeros of SEQ_OPEN's record only (log 34, DESIGN CHOICE). -/
def restoreBad (m : Msg) (s : State) : Bool :=
  let b := structBytes m
  match s.seqAt m.seqSlot with
  | none => false
  | some r =>
    !structFits m (512 + restoreBytes s m.seqSlot b) || field b 2 1 != r.groups.length
      || (List.range r.groups.length).any fun i =>
          let k := field b (67 + 16 * i) 1
          (match r.groups[i]? with | some g => field b (64 + 16 * i) 2 != g.lcid.toNat || field b (66 + 16 * i) 1 != g.layout | none => true)
            || decide (k < 4) || decide (12 < k) || decide (1048576 < field b (68 + 16 * i) 4)

/-- Frames are wanting for a KV_RESTORE, or a group's page size cannot hold its LENGTH. -/
def restoreLimit (m : Msg) (s : State) : Bool :=
  let b := structBytes m
  (List.range (s.groupsOf m.seqSlot).length).any fun i =>
    match s.groupAt m.seqSlot i with
    | some g =>
      let k := field b (67 + 16 * i) 1
      let len := field b (68 + 16 * i) 4
      decide (4096 * 2 ^ k < len) || (s.framesFor g.lcid g.layout k (ceilDiv len (2 ^ k))).isNone
    | none => false

/-- KV_RESTORE: the structure is the sequence record, then each group's contents as KV_DIGEST takes them (log 34). -/
def cmdKvRestore (m : Msg) : Cmd :=
  cmd 0x050C 4 (seqAuth [m.seqSlot] true) m
    (fun s => { moveCheck m (structBad m || (m.dma.isSome && restoreBad m s))
        ((s.groupsOf m.seqSlot).any fun g => (s.serving g.lcid).isNone) (restoreLimit m s) s with dma := m.dma.isNone })
    (fun t => accept 0x050C m [.kvRestore m.seqSlot (structBytes m)] [] t)

/-- KV_RESTORE. -/
def execKvRestore (m : Msg) (s : State) : Out := serveCmd (cmdKvRestore m) s

end Sys2Proof.Machine
end

