-- ==== Sys2Proof/Machine/PlanCmds.lean ====
section
/-! DEFINITION. Plan images and the PLAN_ commands (R16, R50-R54, R68, R168, R209, R220, R238, R240, R246, R260, R276, R412, R461). -/

namespace Sys2Proof.Machine

open Sys2Proof

/-! ## Sections (R50) -/

/-- Bytes of a range are zero. -/
def zeroAt (b : List Byte) (i n : Nat) : Bool := (slice b i n).all fun x => x == 0

/-- The sections of an image from an offset, each as long as its SECTION_LENGTH; none where one leaves the image. -/
def sections : Nat → List Byte → Option (List (List Byte))
  | 0, _ => some []
  | n + 1, b =>
    let len := field b 4 4
    if b.length < 8 ∨ len < 8 ∨ b.length < len then none else (sections n (b.drop len)).map fun l => b.take len :: l

/-- UNIT_CLASS of a section. -/
def unitClass (b : List Byte) : Nat := field b 2 1

/-- The logical core IDs of a list in a section. -/
def idsAt (b : List Byte) (i n : Nat) : List Lcid := (List.range n).map fun j => BitVec.ofNat 16 (field b (i + 2 * j) 2)

/-- Two ranges overlap. -/
def meets (a n b k : Nat) : Bool := decide (a < b + k) && decide (b < a + n)

/-- No two ranges of a list overlap. -/
def apart : List (Nat × Nat) → Bool
  | [] => true
  | r :: l => (l.all fun q => !meets r.1 r.2 q.1 q.2) && apart l

/-- A value in a range. -/
def within (lo v hi : Nat) : Bool := decide (lo ≤ v) && decide (v ≤ hi)

/-! ## Core sections (R68) -/

/-- A core section. -/
def coreOf (b : List Byte) : CoreSec :=
  { lcid := BitVec.ofNat 16 (field b 0 2), entry := field b 8 4, budget := field b 12 4,
    regions := (List.range (field b 16 4)).map fun i =>
      ⟨field b (32 + 16 * i) 4, field b (36 + 16 * i) 4, slice b (field b (40 + 16 * i) 8) (field b (36 + 16 * i) 4)⟩ }

/-- A range lies in one of some regions. -/
def inRegion (l : List Region) (a n : Nat) : Bool := l.any fun r => decide (r.base ≤ a) && decide (a + n ≤ r.base + r.len)

/-- A core section is well formed. -/
def coreOk (b : List Byte) : Bool :=
  let n := field b 16 4
  decide (32 ≤ b.length) && within 1 n 16 && decide (32 + 16 * n ≤ b.length) && zeroAt b 3 1 && zeroAt b 20 12
    && ((List.range n).all fun i =>
        let a := field b (32 + 16 * i) 4
        let len := field b (36 + 16 * i) 4
        decide (a % 64 = 0) && decide (len % 64 = 0) && decide (0 < len) && decide (a + len ≤ benchSize)
          && decide (field b (40 + 16 * i) 8 + len ≤ b.length))
    && (let c := coreOf b
        validLcid c.lcid && apart (c.regions.map fun r => (r.base, r.len)) && decide (c.entry % 8 = 0) && inRegion c.regions c.entry 8
          && decide (0 < c.budget))

/-! ## Crumb and evidence sections (R168, R209) -/

/-- A crumb section. -/
def crumbOf (b : List Byte) : CrumbSec :=
  { lcid := BitVec.ofNat 16 (field b 0 2), issuer := BitVec.ofNat 16 (field b 8 2), cycles := field b 12 4, layerCycles := field b 24 4,
    mask := BitVec.ofNat 48 (field b 16 6), prog := (List.range (field b 10 2)).map fun i => BitVec.ofNat 32 (field b (32 + 4 * i) 4) }

/-- A crumb section is well formed. -/
def crumbOk (b : List Byte) : Bool :=
  let c := crumbOf b
  decide (32 ≤ b.length) && within 1 (field b 10 2) 64 && decide (32 + 4 * field b 10 2 ≤ b.length) && validLcid c.lcid && validLcid c.issuer
    && lcStack c.lcid == lcStack c.issuer && decide (c.mask ≠ 0) && zeroAt b 3 1 && zeroAt b 22 2 && zeroAt b 28 4

/-- An evidence section. -/
def evdOf (b : List Byte) : EvdSec := { lcid := BitVec.ofNat 16 (field b 0 2), window := field b 8 4, maxReq := field b 12 2 }

/-- Bytes of an evidence window (R210). -/
def EvdSec.size (e : EvdSec) : Nat := 64 * (1 + e.maxReq)

/-- An evidence section is well formed, among the core sections of its plan. -/
def evdOk (cores : List CoreSec) (b : List Byte) : Bool :=
  let e := evdOf b
  b.length == 16 && zeroAt b 3 1 && zeroAt b 14 2 && validLcid e.lcid && within 1 e.maxReq 64 && decide (e.window % 64 = 0)
    && decide (e.window + e.size ≤ benchSize)
    && (match cores.find? fun c => decide (c.lcid = e.lcid) with
        | some c => c.regions.all fun r => !meets e.window e.size r.base r.len
        | none => false)

/-! ## Group sections (R240, R246) -/

/-- A group entry at an offset of its section. -/
def groupEntOf (b : List Byte) (o : Nat) : GroupEnt :=
  { group := field b o 1, multicast := field b (o + 1) 1 == 1, op := field b (o + 2) 1, capture := field b (o + 3) 1 % 2 == 1,
    dim := field b (o + 3) 1 / 2 % 4, root := BitVec.ofNat 16 (field b (o + 4) 2), xfer := field b (o + 6) 1, rows := field b (o + 7) 1,
    len := field b (o + 8) 4, members := idsAt b (field b (o + 16) 4) (field b (o + 12) 2), miss := field b (o + 20) 4 }

/-- The groups of a section. -/
def groupsIn (b : List Byte) : List GroupEnt := (List.range (field b 8 2)).map fun i => groupEntOf b (16 + 32 * i)

/-- The group's result is a merged partial. -/
def GroupEnt.merges (g : GroupEnt) : Bool := !g.multicast && g.op == 2

/-- Increasing logical ordinal, none repeated. -/
def rising : List Lcid → Bool
  | a :: b :: l => decide (lcOrd a < lcOrd b) && rising (b :: l)
  | _ => true

/-- LENGTH of an FSMERGE contribution (R246). -/
def GroupEnt.mergeLen (g : GroupEnt) : Nat := g.rows * (1 + 64 * 2 ^ g.dim / 16 + 2 * (if g.capture then 1 else 0)) * 64

/-- A fold finds its window at its root. -/
def foldWindow (nets : List NetSec) (g : GroupEnt) : Bool :=
  nets.any fun n => decide (n.lcid = g.root) && n.windows.any fun w => w.xfer == g.xfer && w.foldResult && w.len == g.len && w.srcs == g.members

/-- Every member of a multicast group has its window. -/
def castWindows (nets : List NetSec) (g : GroupEnt) : Bool :=
  g.members.all fun m => nets.any fun n => decide (n.lcid = m) && n.windows.any fun w => w.xfer == g.xfer && decide (g.len ≤ w.len)

/-- A group entry is well formed, among the network sections of its plan; which multicast groups are route targets the image does
not tell (log 23). -/
def groupOk (img : List Byte) (nets : List NetSec) (b : List Byte) (o : Nat) : Bool :=
  let g := groupEntOf b o
  let n := field b (o + 12) 2
  decide (field b (o + 1) 1 < 2) && decide (field b (o + 3) 1 < 8) && decide (g.dim < 3) && (!g.capture || g.merges)
    && (if g.multicast then g.op == 0 else decide (g.op < 5)) && (if g.merges then within 1 g.rows 64 else g.rows == 0)
    && decide (g.xfer < 64) && decide (0 < g.len) && decide (g.len % 64 = 0) && zeroAt b (o + 14) 2 && zeroAt b (o + 24) 8
    && (if g.multicast then within 1 n 256 else within 2 n 240) && decide (field b (o + 16) 4 + 2 * n ≤ b.length)
    && validLcid g.root && g.members.all validLcid
    && (if g.multicast then castWindows nets g || Config.routeTarget img g.group
        else rising g.members && (g.members.all fun m => lcStack m == lcStack g.root) && foldWindow nets g && (!g.merges || g.len == g.mergeLen))

/-- A group section is well formed. -/
def groupsOk (img : List Byte) (nets : List NetSec) (b : List Byte) : Bool :=
  let n := field b 8 2
  decide (16 ≤ b.length) && within 1 n 256 && decide (16 + 32 * n ≤ b.length) && zeroAt b 0 2 && zeroAt b 3 1 && zeroAt b 10 6
    && decide (((groupsIn b).map fun g => g.group).Nodup) && (List.range n).all fun i => groupOk img nets b (16 + 32 * i)

/-! ## Network sections (R238) -/

/-- A window entry at an offset of its section. -/
def windowOf (b : List Byte) (o : Nat) : Window :=
  { xfer := field b o 1, foldResult := field b (o + 1) 1 % 2 == 1, srcs := idsAt b (field b (o + 12) 4) (field b (o + 2) 2),
    base := field b (o + 4) 4, len := field b (o + 8) 4, miss := field b (o + 16) 4 }

/-- A network section. -/
def netOf (b : List Byte) : NetSec :=
  { lcid := BitVec.ofNat 16 (field b 0 2), stream := field b 3 1, windows := (List.range (field b 8 2)).map fun i => windowOf b (16 + 24 * i) }

/-- A window takes an FSMERGE result, so that its BASE is a partial descriptor. -/
def mergeWindow (groups : List GroupEnt) (c : Lcid) (w : Window) : Bool :=
  w.foldResult && groups.any fun g => g.merges && decide (g.root = c) && g.xfer == w.xfer

/-- The bench ranges a window holds: its own, or, for an FSMERGE result, those of the partial that the descriptor in a resident region
describes (R238, R239). -/
def windowRanges (groups : List GroupEnt) (regions : List Region) (c : Lcid) (w : Window) : List (Nat × Nat) :=
  match groups.find? fun g => g.merges && decide (g.root = c) && g.xfer == w.xfer, regions.find? fun r => meets w.base 16 r.base r.len with
  | some g, some r => if w.foldResult then (partD (slice r.bytes (w.base - r.base) 16)).ranges g.capture else [(w.base, w.len)]
  | _, _ => [(w.base, w.len)]

/-- A window entry is well formed, among the groups and regions of its core. -/
def windowOk (groups : List GroupEnt) (regions : List Region) (c : Lcid) (b : List Byte) (o : Nat) : Bool :=
  let w := windowOf b o
  let n := field b (o + 2) 2
  decide (w.xfer < 64) && decide (field b (o + 1) 1 < 2) && within 1 n 256 && decide (w.len % 64 = 0) && within 64 w.len 0x400000
    && decide (field b (o + 12) 4 + 2 * n ≤ b.length) && w.srcs.all validLcid && decide (w.miss % 32 = 0) && decide (w.miss + 32 ≤ benchSize)
    && zeroAt b (o + 20) 4
    && (if mergeWindow groups c w then decide (w.base % 16 = 0) && inRegion regions w.base 16 else decide (w.base % 64 = 0))
    && (windowRanges groups regions c w).all fun q => decide (q.1 + q.2 ≤ benchSize) && regions.all fun r => !meets q.1 q.2 r.base r.len

/-- A network section is well formed. -/
def netOk (groups : List GroupEnt) (cores : List CoreSec) (b : List Byte) : Bool :=
  let n := netOf b
  let regions := match cores.find? fun c => decide (c.lcid = n.lcid) with | some c => c.regions | none => []
  decide (16 ≤ b.length) && decide (field b 8 2 ≤ 64) && decide (16 + 24 * field b 8 2 ≤ b.length) && validLcid n.lcid
    && (decide (n.stream < 8) || n.stream == 255) && zeroAt b 10 6
    && ((List.range (field b 8 2)).all fun i => windowOk groups regions n.lcid b (16 + 24 * i))
    && decide ((n.windows.map fun w => w.xfer).Nodup)
    && apart (n.windows.flatMap (windowRanges groups regions n.lcid))

/-! ## Stream and TLink output sections (R260, R276) -/

/-- A stream section. -/
def streamOf (b : List Byte) : StreamSec :=
  { nearStack := field b 8 1, nearEngine := field b 9 1, farStack := field b 10 1, farEngine := field b 11 1, waves := field b 12 1,
    framesOut := field b 16 4, framesIn := field b 20 4 }

/-- A stream section is well formed. -/
def streamOk (b : List Byte) : Bool :=
  let x := streamOf b
  b.length == 32 && zeroAt b 0 2 && zeroAt b 3 1 && zeroAt b 13 3 && zeroAt b 24 8 && x.nearStack != x.farStack && decide (x.nearStack < 20)
    && decide (x.farStack < 20) && decide (x.nearEngine < 8) && decide (x.farEngine < 8) && within 1 x.waves 32

/-- A TLink output section. -/
def ringOf (b : List Byte) : RingSec :=
  { lcid := BitVec.ofNat 16 (field b 0 2), ring := field b 3 1, base := field b 8 4, entries := field b 12 4, entryBytes := field b 16 4,
    prod := field b 20 4, cons := field b 24 4 }

/-- A TLink output section is well formed; what it names lies in the private part of its slice (log 72). -/
def ringOk (size : Nat) (b : List Byte) : Bool :=
  let x := ringOf b
  b.length == 32 && validLcid x.lcid && decide (x.ring < 128) && decide (x.base % 2048 = 0) && within 1 x.entries 65536
    && decide (x.entryBytes % 64 = 0) && within 64 x.entryBytes 16448 && decide (x.prod % 64 = 0) && decide (x.cons % 64 = 0) && zeroAt b 28 4
    && decide (x.base + x.entries * x.entryBytes ≤ size) && decide (x.prod + 64 ≤ size) && decide (x.cons + 64 ≤ size)

/-! ## Images (R50, R51, R220) -/

/-- The image of a buffer, with the bytes beyond it zero and the buffer of its rounded length. -/
def planImage (b : List Byte) : Option (List Byte) :=
  let n := field b 0x28 8
  if n < 64 ∨ roundUp n 64 ≠ b.length ∨ (b.drop n).any (fun x => x != 0) then none else some (b.take n)

/-- The sections of an image. -/
def imageSections (img : List Byte) : Option (List (List Byte)) := sections (field img 0x24 4) (img.drop (field img 0x20 4))

/-- A plan image's header is well formed for the device. -/
def headerOk (s : State) (img : List Byte) : Bool :=
  field img 0 2 == 1 && field img 2 2 == s.fuses.stepping.toNat && decide (field img 4 1 ≤ 15) && decide (field img 5 1 < 2) && zeroAt img 6 2
    && zeroAt img 0x30 16 && decide (field img 8 4 ≤ field img 12 4) && decide (field img 16 4 ≤ 1048576) && within 1 (field img 20 4) 16384
    && decide (field img 24 4 + field img 28 4 ≤ img.length) && decide (field img 32 4 ≤ img.length)
    && (field img 5 1 == 0 || decide (field img 16 4 * roundUp (field img 20 4 + 32) 64 + 3000 * 32 ≤ field img 8 4 * 32))

/-- The plan of an image, as loaded. -/
def planOf (img : List Byte) (l : List (List Byte)) (owner fn : Nat) : Plan :=
  let of {α : Type} (k : Nat) (f : List Byte → α) : List α := (l.filter fun b => unitClass b == k).map f
  { st := .loaded, hash := shake256 img, priority := field img 4 1, retain := field img 5 1 == 1, periodMin := field img 8 4,
    periodMax := field img 12 4, maxInputs := field img 16 4, maxInputBytes := field img 20 4, image := img, cores := of 1 coreOf,
    crumbs := of 2 crumbOf, evds := of 3 evdOf, nets := of 4 netOf, groups := (of 5 groupsIn).flatten, streams := of 6 streamOf,
    rings := of 7 ringOf
    costs := (Config.decodeCosts (slice img (field img 24 4) (field img 28 4))).map fun c => ⟨c.1, c.2.1, c.2.2⟩
    routes := Config.decodeRoutes (slice img (field img 24 4) (field img 28 4))
    globals := Config.decodeGlobals (slice img (field img 24 4) (field img 28 4))
    capture := true, order := 0, owner := owner, fn := fn, backpressured := false, consume := 0 }

/-- A section is well formed, in the plan it belongs to; other unit classes are reserved. -/
def sectionOk (s : State) (img : List Byte) (p : Plan) (b : List Byte) : Bool :=
  match unitClass b with
  | 1 => coreOk b
  | 2 => crumbOk b
  | 3 => evdOk p.cores b
  | 4 => netOk p.groups p.cores b
  | 5 => groupsOk img p.nets b
  | 6 => streamOk b
  | 7 => ringOk (privateSize s.cfg.globalSteps) b
  | _ => false

/-- No unit has two sections of a class, and no engine or ring of the plan two claims. -/
def Plan.once (p : Plan) (l : List (List Byte)) : Bool :=
  decide ((p.cores.map fun c => c.lcid).Nodup) && decide ((p.crumbs.map fun c => c.lcid).Nodup) && decide ((p.evds.map fun c => c.lcid).Nodup)
    && decide ((p.nets.map fun c => c.lcid).Nodup) && decide ((l.filter fun b => unitClass b == 5).length ≤ 1)
    && decide ((p.streams.flatMap fun x => [(x.nearStack, x.nearEngine), (x.farStack, x.farEngine)]).Nodup)
    && decide ((p.rings.map fun r => r.ring).Nodup)

/-- The plan of a buffer, where PLAN_LOAD takes it. -/
def loadOf (s : State) (owner fn : Nat) (b : List Byte) : Option Plan :=
  match planImage b with
  | none => none
  | some img =>
    match imageSections img with
    | none => none
    | some l =>
      let p := planOf img l owner fn
      if headerOk s img && (l.all fun x => sectionOk s img p x) && p.once l then some p else none

/-! ## PLAN_ commands -/

/-- What PLAN_LOAD changes. -/
def planLoadChange (m : Msg) (s : State) : List Change :=
  match loadOf s m.session.toNat (s.mbFn m.mb) (m.buf (m.bufLen 1)) with
  | some p => [.planLoad (m.word 0 % 2 ^ 16) p]
  | none => []

/-- The plan hash that answers PLAN_LOAD. -/
def planHash (m : Msg) : List W64 := match planImage (m.buf (m.bufLen 1)) with | some img => bodyWords 4 (shake256 img) | none => []

/-- PLAN_LOAD: SLOT and the image buffer; answers the plan hash. A slot that another PLAN_LOAD of the tick fills is BUSY (log 103, DESIGN
CHOICE). -/
def cmdPlanLoad (m : Msg) : Cmd :=
  let slot := m.word 0 % 2 ^ 16
  cmd 0x0200 3 (fun _ => grantAuth gPlan [] true) m
    (fun s =>
      { nospt := decide (127 < m.word 0) || m.bufBad 1 || (m.dma.isSome && (loadOf s 0 0 (m.buf (m.bufLen 1))).isNone)
        denied := none
        dma := m.dma.isNone
        gone := false
        busy := (s.planAt slot).isSome || s.changes.any fun c => match c with | .planLoad i _ => i == slot | _ => false
        limit := none })
    (fun t => accept 0x0200 m (planLoadChange m t) (planHash m) t)

/-- PLAN_LOAD. -/
def execPlanLoad (m : Msg) (s : State) : Out := serveCmd (cmdPlanLoad m) s

/-- The plan slot of word 0. -/
def Msg.planSlot (m : Msg) : Nat := m.word 0 % 2 ^ 32

/-- PLAN_ commands on a loaded plan: the grant, and its owner. -/
def planAuth (m : Msg) (replay : Bool) (s : State) : Auth :=
  grantAuth gPlan (match s.planAt (m.word 0 % 2 ^ 32) with | some p => [p.owner] | none => []) replay

/-- No plan is in the slot of word 0. -/
def planBad (m : Msg) (s : State) : Bool := (m.objIn 1 128).isNone || (s.planAt (m.word 0 % 2 ^ 32)).isNone

/-- A plan is in use: admitted, to be admitted, or named by an open sequence, or its records are being journalled (log 73). -/
def State.planInUse (s : State) (slot : Nat) : Bool :=
  (s.willAdmit.any fun e => e.1 == slot) || (match s.planAt slot with | some p => decide (p.st = .admitted) | none => false)
    || (s.openSeqs.any fun e => e.2.plan == slot) || s.jpend.any fun j => j.record.plan == slot

/-- PLAN_UNLOAD. A slot that another PLAN_UNLOAD of the tick empties is BUSY (log 103, DESIGN CHOICE). -/
def cmdPlanUnload (m : Msg) : Cmd :=
  let slot := m.word 0 % 2 ^ 32
  cmd 0x0201 1 (planAuth m true) m
    (fun s => { formed (!planBad m s) with
                busy := s.planInUse slot || s.changes.any fun c => match c with | .planUnload i => i == slot | _ => false })
    (fun t => accept 0x0201 m [.planUnload slot] [] t)

/-- PLAN_UNLOAD. -/
def execPlanUnload (m : Msg) (s : State) : Out := serveCmd (cmdPlanUnload m) s

/-- The check that an outcome of admission gives, in the order of R461. A slot that a PLAN_UNLOAD of the tick empties is BUSY (log 103,
DESIGN CHOICE). -/
def admitCheck (m : Msg) (s : State) : Check :=
  let slot := m.word 0 % 2 ^ 32
  let r := admitOutcome s slot
  { nospt := planBad m s || decide (r.1 = .nospt)
    denied := if s.mram.life = .blank then some 4 else none
    dma := false
    gone := decide (r.1 = .unavail)
    busy := decide (r.1 = .busy) || s.changes.any fun c => match c with | .planUnload i => i == slot | _ => false
    limit := if r.1 = .limit then some r.2 else none }

/-- An admission that passed its checks: of a plan already admitted it changes nothing. -/
def runAdmit (op : Nat) (m : Msg) (t : State) : State :=
  let slot := m.word 0 % 2 ^ 32
  if t.willAdmit.any fun e => e.1 == slot then complete op m .ok 0 0 [] t else accept op m [.planAdmit slot] [] t

/-- PLAN_ADMIT; in Blank no plan is admitted (R412). -/
def cmdPlanAdmit (m : Msg) : Cmd := cmd 0x0202 1 (planAuth m true) m (admitCheck m) (runAdmit 0x0202 m)

/-- PLAN_ADMIT. -/
def execPlanAdmit (m : Msg) (s : State) : Out := serveCmd (cmdPlanAdmit m) s

/-- PLAN_RESUME: the same admission. -/
def cmdPlanResume (m : Msg) : Cmd := cmd 0x0204 1 (planAuth m true) m (admitCheck m) (runAdmit 0x0204 m)

/-- PLAN_RESUME. -/
def execPlanResume (m : Msg) (s : State) : Out := serveCmd (cmdPlanResume m) s

/-- The plan of a slot is admitted or suspended, or a command of the tick admits it. -/
def State.planRan (s : State) (slot : Nat) : Bool :=
  (s.willAdmit.any fun e => e.1 == slot) || match s.planAt slot with | some p => decide (p.st ≠ .loaded) | none => false

/-- A suspension by command, cause 2; of a plan already suspended it changes nothing. -/
def runSuspend (m : Msg) (t : State) : State :=
  let slot := m.word 0 % 2 ^ 32
  if t.willAdmit.any fun e => e.1 == slot then accept 0x0203 m [.planSuspend slot 2] [] t else complete 0x0203 m .ok 0 0 [] t

/-- PLAN_SUSPEND. -/
def cmdPlanSuspend (m : Msg) : Cmd :=
  let slot := m.word 0 % 2 ^ 32
  cmd 0x0203 1 (planAuth m true) m (fun s => formed (!planBad m s && s.planRan slot)) (runSuspend m)

/-- PLAN_SUSPEND. -/
def execPlanSuspend (m : Msg) (s : State) : Out := serveCmd (cmdPlanSuspend m) s

/-- Plans as items: slot, state and hash (log 60). -/
def planItems (s : State) : List (List Byte) :=
  s.plans.map fun e => leBytes 2 e.1 ++ leBytes 1 (match e.2.st with | .loaded => 0 | .admitted => 1 | .suspended => 2)
    ++ [0, 0, 0, 0, 0] ++ e.2.hash

/-- PLAN_READ: of a slot, or of every loaded plan where word 0 is zero. -/
def cmdPlanRead (m : Msg) : Cmd :=
  readCmd 0x0205 readAuth m (fun s => formed (decide (m.word 0 = 0) || !planBad m s))
    (fun t => numbered (m.word 1)
      (if m.word 0 = 0 then planItems t else planItems { t with plans := t.plans.filter fun e => e.1 == m.word 0 % 2 ^ 32 }))

/-- PLAN_READ. -/
def execPlanRead (m : Msg) (s : State) : Out := serveCmd (cmdPlanRead m) s

end Sys2Proof.Machine
end

