-- ==== Sys2Proof/Machine/EvdCmds.lean ====
section
/-! DEFINITION. EVD_ commands and replay (R40, R43, R46, R213, R215, R216, R219, R221-R226). -/

namespace Sys2Proof.Machine

open Sys2Proof

/-- EVD_ commands that change state. -/
def evdAuth (owners : List Nat) (replay : Bool) : Auth := grantAuth gEvd owners replay

/-- EVD_ commands that read. -/
def evdReadAuth : Auth := ⟨some gEvd, true, [], true⟩

/-- The owner of the plan of word 0. -/
def planOwner (m : Msg) (s : State) : List Nat := match s.planAt (m.word 0 % 2 ^ 32) with | some p => [p.owner] | none => []

/-! ## Capture, seals and acknowledgement (R215, R221-R223) -/

/-- A change of capture; none where the setting stays. -/
def runCapture (m : Msg) (t : State) : State :=
  let slot := m.word 0 % 2 ^ 32
  accept 0x0600 m [.capture slot (decide (m.word 1 = 1))] [] t

/-- EVD_CAPTURE: word 1 is 1 for on. -/
def cmdEvdCapture (m : Msg) : Cmd :=
  cmd 0x0600 2 (fun s => evdAuth (planOwner m s) false) m (fun s => formed (!planBad m s && decide (m.word 1 < 2))) (runCapture m)

/-- EVD_CAPTURE. -/
def execEvdCapture (m : Msg) (s : State) : Out := serveCmd (cmdEvdCapture m) s

/-- Marks the response of the command just accepted by a mailbox. -/
def answerWith (mb : Nat) (st : Status) (t : State) : State :=
  { t with answers := t.answers.map fun a => if a.mb = mb ∧ a.sent = false then { a with resp := { a.resp with status := st } } else a }

/-- EVD_SEAL: the next commit makes a seal, and where the device cannot sign the command completes with LIMIT (R222, R408). -/
def cmdEvdSeal (m : Msg) : Cmd :=
  cmd 0x0601 1 (fun _ => evdAuth [] false) m
    (fun s => { formed (decide (m.word 0 = 0)) with busy := decide (4 ≤ s.sealsPending) })
    (fun t => let u := accept 0x0601 m [.seal] [] t; if t.canSign then u else answerWith m.mb .limit u)

/-- EVD_SEAL. -/
def execEvdSeal (m : Msg) (s : State) : Out := serveCmd (cmdEvdSeal m) s

/-- The classes EVD_ACK names: bits 0 to 2 are attribution records, links and retained journal records. -/
def ackChanges (m : Msg) : List Change :=
  ([0, 1, 2].filter fun k => m.word 1 / 2 ^ k % 2 == 1).map fun k => .ack k (m.word 2)

/-- EVD_ACK: word 1 the classes, word 2 the tick (log 71). -/
def cmdEvdAck (m : Msg) : Cmd :=
  cmd 0x0605 3 (fun _ => evdAuth [] true) m
    (fun s => formed (decide (m.word 0 = 0) && decide (m.word 1 < 8) && decide (m.word 2 ≤ s.seqr.lastCommitted)))
    (fun t => accept 0x0605 m (ackChanges m) [] t)

/-- EVD_ACK. -/
def execEvdAck (m : Msg) (s : State) : Out := serveCmd (cmdEvdAck m) s

/-! ## Reads (R223) -/

/-- An item of evidence: whether a completed seal covers it, its bytes, and the start point after it (R223). -/
abbrev EvdItem := Bool × List Byte × Nat

/-- A read of evidence completes: its items go to the host buffer as they are stored, and the response flags those a completed seal
covers (log 71). -/
def readFlagged (op : Nat) (m : Msg) (items : List EvdItem) (s : State) : State :=
  let t := readItems op m (items.map Prod.snd) s
  let b := t.mbAt m.mb
  t.setMb m.mb { b with resp := b.resp.map fun r => { r with covered := (items.map Prod.fst).take r.progress } }

/-- A read of evidence: what word 0 must meet, and the items. -/
def evdReadCmd (op : Nat) (m : Msg) (c : State → Check) (items : State → List EvdItem) : Cmd :=
  cmd op 4 (fun _ => evdReadAuth) m (fun s => let k := c s; { k with nospt := k.nospt || m.bufBad 2 })
    (fun t => readFlagged op m (items t) t)

/-- A tick of the device's own lies below a completed seal of this boot. -/
def State.tickSealed (s : State) (tick : Nat) : Bool := match s.sealed with | some x => decide (tick ≤ x.1) | none => false

/-- EVD_READ: the stack of word 0, from TICK in bits [63:20] and ORDINAL in bits [19:0] of the start point (log 71). -/
def cmdEvdRead (m : Msg) : Cmd :=
  let n := m.word 0 % 2 ^ 32
  let key (r : ARec) : Nat := r.tick * 2 ^ 20 + r.ordinal
  evdReadCmd 0x0602 m (fun s => { formed (m.objIn 3 20).isSome with gone := s.reserveGone n })
    (fun t => ((Tab.getD t.records n []).filter fun r => decide (m.word 1 ≤ key r)).map fun r => (!r.replay && t.tickSealed r.tick, r.bytes, key r + 1))

/-- EVD_READ. -/
def execEvdRead (m : Msg) (s : State) : Out := serveCmd (cmdEvdRead m) s

/-- A completed seal covers a link. -/
def State.linkSealed (s : State) (n : Nat) : Bool := match s.sealed with | some x => decide (n ≤ x.2) | none => false

/-- Link numbers at which there is something to return: a link, a command record, or a signed seal (R223). -/
def State.linkKeys (s : State) : List Nat :=
  (s.links.map (fun l => l.number) ++ s.cmdLog.map (fun c => c.link)
    ++ (s.seals.filter fun x => x.sig.isSome && x.boot == s.mram.bootCount).map fun x => x.link).eraseDups.insertionSort fun a b => a ≤ b

/-- The items at a link number: its record unless acknowledged, the command records of its tick, or of the replay ticks that followed it,
and the seal over it when it is signed. The start point passes the number with the last of them (log 71). -/
def linkItems (s : State) (n : Nat) : List EvdItem :=
  let parts := ((s.links.filter fun l => l.number == n).map fun l => (s.linkSealed n, l.bytes))
    ++ ((s.cmdLog.filter fun c => c.link == n).map fun c => (!c.replay && s.linkSealed n, c.record))
    ++ (s.seals.filter fun x => x.link == n && x.boot == s.mram.bootCount && x.sig.isSome).map fun x => (true, x.bytes)
  ((List.range parts.length).zip parts).map fun p => (p.2.1, p.2.2, if p.1 + 1 = parts.length then n + 1 else n)

/-- EVD_LINKS: from LINK_NUMBER. -/
def cmdEvdLinks (m : Msg) : Cmd :=
  evdReadCmd 0x0603 m (fun s => { formed (decide (m.word 0 = 0)) with gone := s.mirrorGone })
    (fun t => (t.linkKeys.filter fun n => decide (m.word 1 ≤ n)).flatMap (linkItems t))

/-- EVD_LINKS. -/
def execEvdLinks (m : Msg) (s : State) : Out := serveCmd (cmdEvdLinks m) s

/-- The retained journal records of a plan. -/
def State.retained (s : State) (slot : Nat) : List JRec := s.journal.filter fun r => r.plan == slot && r.consumedBy.isSome

/-- EVD_JOURNAL_READ: of the plan slot of word 0, loaded or not, from INDEX. -/
def cmdEvdJournalRead (m : Msg) : Cmd :=
  let slot := m.word 0 % 2 ^ 32
  evdReadCmd 0x0604 m
    (fun s => { formed (m.objIn 1 128).isSome with gone := (s.retained slot).any fun r => s.reserveGone r.home })
    (fun t => ((t.retained slot).filter fun r => decide (m.word 1 ≤ r.index)).map fun r =>
      ((match r.consumedBy with | some n => t.tickSealed n | none => false), r.bytes, r.index + 1))

/-- EVD_JOURNAL_READ. -/
def execEvdJournalRead (m : Msg) (s : State) : Out := serveCmd (cmdEvdJournalRead m) s

/-- What EVD_STATUS returns: free space of each area, pending seals, SEAL_NUMBER, LINK_NUMBER and the head (log 71). -/
def statusItem (s : State) : List Byte :=
  ((List.range 20).flatMap fun n => leBytes 8 (s.evdFree n)) ++ leBytes 8 s.sealsPending ++ leBytes 8 s.mram.sealNumber
    ++ leBytes 8 (s.linkCount - 1) ++ s.chain

/-- EVD_STATUS. -/
def cmdEvdStatus (m : Msg) : Cmd :=
  readCmd 0x0606 evdReadAuth m (fun _ => formed (decide (m.word 0 = 0))) (fun t => numbered (m.word 1) [statusItem t])

/-- EVD_STATUS. -/
def execEvdStatus (m : Msg) (s : State) : Out := serveCmd (cmdEvdStatus m) s

/-! ## Replay (R225, R226) -/

/-- The base head of EVD_REPLAY_BEGIN: words 2 to 5. -/
def baseHead (m : Msg) : List Byte := (List.range 4).flatMap fun i => leBytes 8 (m.word (2 + i))

/-- EVD_REPLAY_BEGIN: word 1 the base tick, words 2 to 5 the base head. Replay mode already begun gives BUSY (log 70). -/
def cmdEvdReplayBegin (m : Msg) : Cmd :=
  cmd 0x0607 6 (fun _ => evdAuth [] true) m
    (fun s => { formed (decide (m.word 0 = 0)) with
                busy := !s.willAdmit.isEmpty || !s.admitted.isEmpty || !s.openSeqs.isEmpty || s.replay.isSome
                  || s.changes.any fun c => match c with | .replayBegin _ _ => true | _ => false })
    (fun t => accept 0x0607 m [.replayBegin (m.word 1) (baseHead m)] [] t)

/-- EVD_REPLAY_BEGIN. -/
def execEvdReplayBegin (m : Msg) (s : State) : Out := serveCmd (cmdEvdReplayBegin m) s

/-- A recorded tick waits or runs. -/
def State.replayBusy (s : State) : Bool := match s.replay with | some r => r.running.isSome || r.next.isSome | none => false

/-- A command of the tick ends replay mode. -/
def State.replayEnding (s : State) : Bool := s.changes.any fun c => match c with | .replayEnd => true | _ => false

/-- Out of replay mode, EVD_REPLAY_TICK and EVD_REPLAY_END are DENIED (log 70). -/
def notReplay (s : State) : Option Nat := if s.replay.isSome && !s.replayEnding then none else some 6

/-- Journal records back to back, as they are stored. -/
def journalOf : Nat → List Byte → Option (List JRec × List Byte)
  | 0, b => some ([], b)
  | n + 1, b =>
    let len := field b 0 4
    let size := recBytes len
    let r : JRec := { index := field b 16 8, seqSlot := field b 4 4, arrival := field b 8 8, plan := field b 24 2, source := field b 26 1,
                      payload := slice b 32 len, home := 0, bad := false, consumedBy := none }
    if len = 0 ∨ 16384 < len ∨ b.length < size ∨ b.take size ≠ r.bytes then none
    else (journalOf n (b.drop size)).map fun x => (r :: x.1, x.2)

/-- Command records back to back, up to the zero bytes that fill the buffer; `n` bounds their number. -/
def cmdsOf : Nat → List Byte → Option (List CmdRec)
  | 0, b => if b.all fun x => x == 0 then some [] else none
  | n + 1, b =>
    if b.all fun x => x == 0 then some []
    else
      let len := field b 8 4
      if b.length < 16 + len ∨ len < 32 ∨ field b 14 2 ≠ 0 then none
      else (cmdsOf n (b.drop (16 + len))).map fun l => { tick := field b 0 8, mb := field b 12 2, bytes := slice b 16 len } :: l

/-- What EVD_REPLAY_TICK supplies: the ledger record, the link record, the journal records and the command records, back to back in
this order (log 70). -/
structure ReplayIn where
  tick : Nat
  content : List Byte
  digest : List Byte
  records : List JRec
  cmds : List CmdRec
deriving DecidableEq, Repr

/-- INPUT_COUNT of each plan entry of a ledger record. -/
def ledgerCounts (b : List Byte) : List (Nat × Nat × Nat) :=
  (List.range (field b 30 2)).map fun i => (field b (32 + 16 * i) 2, field b (36 + 16 * i) 4, field b (40 + 16 * i) 8)

/-- INDEX rises along records. -/
def indexRises : List JRec → Bool
  | a :: b :: l => decide (a.index < b.index) && indexRises (b :: l)
  | _ => true

/-- The records supplied are those that the ledger entries name. -/
def recordsMatch (tick : Nat) (l : List (Nat × Nat × Nat)) (rs : List JRec) : Bool :=
  (rs.all fun r => decide (r.arrival < tick) && l.any fun e => e.1 == r.plan)
    && l.all fun e =>
        let mine := rs.filter fun r => r.plan == e.1
        mine.length == e.2.1 && indexRises mine && firstIndex mine == e.2.2

/-- The structure of EVD_REPLAY_TICK; none where it is malformed or its records do not match the ledger entry. -/
def replayOf (b : List Byte) : Option ReplayIn :=
  let size := 32 + 16 * field b 30 2
  let counts := ledgerCounts b
  let link := (b.drop size).take 128
  if b.length < size + 128 then none
  else
    match journalOf (counts.foldl (fun n e => n + e.2.1) 0) (b.drop (size + 128)) with
    | none => none
    | some (rs, rest) =>
      match cmdsOf (rest.length / 48) rest with
      | none => none
      | some cs =>
        let tick := field b 0 8
        if field link 0 8 = tick ∧ field link 0x74 1 = 0 ∧ slice link 0x50 32 = shake256 (b.take size) ∧ recordsMatch tick counts rs
            ∧ cs.all (fun c => c.tick == tick) then
          some ⟨tick, slice link 0x10 32, slice link 0x50 32, rs, cs⟩
        else none

/-- A command record as a message of the replaying mailbox and session. The host buffer it names, from word `i`, is not in the
record, so its bytes are free (log 74). -/
def recMsg (m : Msg) (k i : Nat) (c : CmdRec) : Msg :=
  let w := bodyWords ((field c.bytes 2 2 + 7) / 8) (c.bytes.drop 32)
  let r : Msg := { m with words := w, dma := none }
  { r with dma := some ((List.range (r.bufLen i)).map (Config.freeByte k)) }

/-- The changes a command record makes again: those of commands whose effect a replay must match, and of the rates and periods that
it need not (R227, log 74). -/
def replayed (m : Msg) (k : Nat) (c : CmdRec) (s : State) : List Change :=
  let a := recMsg m k 2 c
  let n := a.word 0 % 2 ^ 32
  match field c.bytes 0 2 with
  | 0x0100 => seqOpenChange a s
  | 0x0101 => [.seqClose n]
  | 0x0102 => [.seqHold n]
  | 0x0103 => [.seqRelease n]
  | 0x0200 => planLoadChange (recMsg m k 1 c) s
  | 0x0201 => [.planUnload n]
  | 0x0202 => [.planAdmit n]
  | 0x0203 => [.planSuspend n 2]
  | 0x0204 => [.planAdmit n]
  | 0x0300 => [.period (a.word 1)]
  | 0x0304 => [.wrapEn (BitVec.ofNat 9 (a.word 1))]
  | 0x0401 => (let b := recMsg m k 1 c; if b.bufLen 1 = 0 then [] else [.memWrite 255 (b.word 0) (b.buf (b.bufLen 1))])
  | 0x0403 => [.globalSteps (a.word 1)]
  | 0x0500 => layoutChange a s
  | 0x0501 => poolChange a s
  | 0x0502 => [.poolDestroy n]
  | 0x0503 => [forkChange a]
  | 0x0504 => [.truncate n (a.word 1)]
  | 0x0505 => [.retirePages n (a.word 1) (a.word 2) (a.word 3)]
  | 0x0506 => [.kvMap n (a.word 1) (a.word 2) (mapEntry a)]
  | 0x0507 => [.kvUnmap n (a.word 1) (a.word 2)]
  | 0x0509 => [retireChange a s]
  | 0x050A => [repageChange a s]
  | 0x050B => [rehomeChange a]
  | 0x050C => [.kvRestore n (structBytes a)]
  | 0x0600 => [.capture n (decide (a.word 1 = 1))]
  | 0x0803 => [.globalWaves (a.word 1)]
  | 0x1000 => [.rate n false (a.word 1)]
  | 0x1001 => [.rate n true (a.word 1)]
  | 0x1002 => [.budget (a.word 1)]
  | _ => []

/-- The recorded tick waits to run: it is the next that starts, and its command records change what they changed at its commit. -/
def runReplayTick (m : Msg) (t : State) : State :=
  match replayOf (structBytes m), t.replay with
  | some x, some r =>
    let (k, u) := draw (accept 0x0608 m [] [] t)
    { u with
      replay := some { r with next := some (x.tick, m.mb, 0, x.content, x.digest), records := x.records, cmds := x.cmds }
      replayChanges := x.cmds.flatMap fun c => replayed m k c t }
  | _, _ => t

/-- EVD_REPLAY_TICK; while another waits or runs, BUSY (log 70). -/
def cmdEvdReplayTick (m : Msg) : Cmd :=
  cmd 0x0608 4 (fun _ => evdAuth [] true) m
    (fun s =>
      { nospt := decide (m.word 0 ≠ 0) || structBad m || (m.dma.isSome && (replayOf (structBytes m)).isNone)
        denied := notReplay s
        dma := m.dma.isNone
        gone := false
        busy := s.replayBusy
        limit := none })
    (runReplayTick m)

/-- EVD_REPLAY_TICK. -/
def execEvdReplayTick (m : Msg) (s : State) : Out := serveCmd (cmdEvdReplayTick m) s

/-- EVD_REPLAY_END. -/
def cmdEvdReplayEnd (m : Msg) : Cmd :=
  cmd 0x0609 1 (fun _ => evdAuth [] true) m
    (fun s => { formed (decide (m.word 0 = 0)) with denied := notReplay s, busy := s.replayBusy })
    (fun t => accept 0x0609 m [.replayEnd] [] t)

/-- EVD_REPLAY_END. -/
def execEvdReplayEnd (m : Msg) (s : State) : Out := serveCmd (cmdEvdReplayEnd m) s

end Sys2Proof.Machine
end

