-- ==== Sys2Proof/Machine/Recover.lean ====
section
/-! DEFINITION. Between attempts: abandonment of an attempt (R48, R298) and the spare shift (R301-R303). -/

namespace Sys2Proof.Machine

open Sys2Proof

/-- Slots of plans with a core that has not reported completion. -/
def State.unreported (s : State) : List Nat :=
  ((s.cores.filter fun e => decide (e.2.run ≠ .idle) && !e.2.reported).map fun e => e.2.slot).eraseDups

/-- ATTEMPT_ABANDON: at the fourth boundary after the attempt started it is abandoned, a fault in the tick (R48). When the
attempt before it was abandoned too, the plans that had not completed are suspended and left out (R298). -/
def execAttemptAbandon (s : State) : Out :=
  if s.seqr.phase = .executing ∧ 4 ≤ s.seqr.boundaries then
    let n := s.seqr.attempt
    let again := decide (0 < s.seqr.abandoned) && decide (s.seqr.abandoned + 1 = n)
    let t := if again then s.unreported.foldl (fun t i => suspendPlan i 5 (leaveOut i t)) s else s
    .next (failAttempt { t with seqr := { t.seqr with abandoned := n } })
  else skip s

/-- What a physical core's bench memory holds: that of the logical core it serves, or nothing (R301). -/
def State.benchAt (s : State) (site : Nat) : List Host.Cell × List Nat :=
  match s.servedAt site with
  | some c => ((s.core c).bench, (s.core c).benchPoison)
  | none => ([], [])

/-- Each logical core of a row takes the bench scratch of the physical core that serves it after a shift: scratch does not
move (R301). -/
def moveScratch (row : Nat) (before after : State) : State :=
  (List.range 15).foldl
    (fun t col =>
      let c : Lcid := BitVec.ofNat 16 (16 * row + col)
      match after.serving c with
      | none => t
      | some p =>
        let b := before.benchAt p
        t.setCore c { (after.core c).rest with bench := b.1, benchPoison := b.2 }) after

/-- The shift itself (R301, steps 1 to 5): the mapping of R19, its record and its event. -/
def shiftRow (j : ShiftJob) (s : State) : State :=
  let key := 16 * j.stack + j.row
  let old := 256 * j.stack + 16 * j.row + j.col
  let t := moveScratch key s { s with newRows := Tab.set s.newRows key ((s.rowAt key).fail j.col).1 }
  let to_ := match s.servedAt old with | some c => t.serving c | none => none
  let rec_ := { faultRec 7 2 j.stack (16 * j.row + j.col) 1 0 with flags := 2, detail := j.col, gen := s.fpGen + 1 }
  let t := post { event .coreSpared (objWord 3 j.stack) [] with log := some t.logNext } (logFault rec_ t)
  devInc .shift 1
    { t with lastPass := { t.lastPass with shifted := Tab.set t.lastPass.shifted key s.seqr.tick }, seqr := { t.seqr with
        shift := none
        fpChanged := true
        shiftedTo := match to_, s.seqr.prevFault with
          | some n, some f => some { f with site := n % 256 }
          | _, _ => none } }

/-- A core that fails its patrol after the shift is a lasting fault, acted on under R20 (R301); `pass` is the tick of its last pass,
before the shift. -/
def patrolFailed (pass : Nat) (f : FaultSite) (s : State) : State :=
  let n := 256 * f.stack + f.site
  let t := post { event .faultLasting (objWord 3 f.stack) [] with log := some s.logNext } s
  let t := post { event .patrolFail (objWord 3 f.stack) [pass, s.seqr.tick, servedNo s f] with log := some s.logNext } t
  let t := logFault { siteRec f 1 s.seqr.attempt false with addr := pass } t
  let t := devInc .lasting 1 (countCheck f t)
  let lost := s.slotsOf fun _ p => match s.servedAt n with | some c => p.onCore c | none => false
  lose lost (raiseDrain 0 n { t with
    newRows := Tab.set t.newRows (n / 16) ((t.rowAt (n / 16)).setSite (n % 16) 2)
    faultMap := { t.faultMap with failed := n :: t.faultMap.failed.filter (fun x => x != n) }
    mapDirty := true })

/-- SPARE_SHIFT: the shift that a lasting core fault decided is made while the device is stopped between attempts; its last
step waits for a sudden stop to clear (R301, R335). `patrolFail` names the column of a core that fails its patrol. -/
def execSpareShift (patrolFail : Option Nat) (s : State) : Out :=
  match s.seqr.shift with
  | none => skip s
  | some j =>
    if s.seqr.phase = .executing ∨ s.power.coolantStop then skip s
    else
      let t := shiftRow j s
      match patrolFail with
      | none => .next t
      | some col =>
        let n := 256 * j.stack + 16 * j.row + col
        .next (if j.col < col ∧ (t.servedAt n).isSome then
            patrolFailed (s.lastPassOf ⟨j.stack, 16 * j.row + col, .core, 0, 5⟩) ⟨j.stack, 16 * j.row + col, .core, 0, 5⟩ t else t)

end Sys2Proof.Machine
end

