-- ==== Sys2Proof/Machine/Dispatch.lean ====
section
/-! DEFINITION. One arm per command: a direct call of its meaning. -/

namespace Sys2Proof.Machine

open Sys2Proof

/-- The effect of a command on everything but the queue. -/
def exec (i : Instr) (s : State) : Host.Outcome State Fault Refusal :=
  match i with
  | .internalBoundary e => Sys2Proof.Machine.execInternalBoundary e s
  | .tickInEdge dt high e => Sys2Proof.Machine.execTickInEdge dt high e s
  | .flywheelBoundary e => Sys2Proof.Machine.execFlywheelBoundary e s
  | .tickSourceLost => Sys2Proof.Machine.execTickSourceLost s
  | .attemptAbandon => Sys2Proof.Machine.execAttemptAbandon s
  | .coreCompletionReport c => Sys2Proof.Machine.execCoreCompletionReport c s
  | .collectionReport stack => Sys2Proof.Machine.execCollectionReport stack s
  | .faultReport f => Sys2Proof.Machine.execFaultReport f s
  | .spareShift patrolFail => Sys2Proof.Machine.execSpareShift patrolFail s
  | .nop c o => Sys2Proof.Machine.execNop c o s
  | .add c o => Sys2Proof.Machine.execAdd c o s
  | .sub c o => Sys2Proof.Machine.execSub c o s
  | .mul c o => Sys2Proof.Machine.execMul c o s
  | .and c o => Sys2Proof.Machine.execAnd c o s
  | .or c o => Sys2Proof.Machine.execOr c o s
  | .xor c o => Sys2Proof.Machine.execXor c o s
  | .shl c o => Sys2Proof.Machine.execShl c o s
  | .shr c o => Sys2Proof.Machine.execShr c o s
  | .sra c o => Sys2Proof.Machine.execSra c o s
  | .cmp c o => Sys2Proof.Machine.execCmp c o s
  | .li c o => Sys2Proof.Machine.execLi c o s
  | .ld c o => Sys2Proof.Machine.execLd c o s
  | .st c o => Sys2Proof.Machine.execSt c o s
  | .br c o => Sys2Proof.Machine.execBr c o s
  | .call c o => Sys2Proof.Machine.execCall c o s
  | .ret c o => Sys2Proof.Machine.execRet c o s
  | .loop c o => Sys2Proof.Machine.execLoop c o s
  | .halt c o => Sys2Proof.Machine.execHalt c o s
  | .rdcsr c o => Sys2Proof.Machine.execRdcsr c o s
  | .wrcsr c o => Sys2Proof.Machine.execWrcsr c o s
  | .dset c o => Sys2Proof.Machine.execDset c o s
  | .dmod c o => Sys2Proof.Machine.execDmod c o s
  | .tload c o => Sys2Proof.Machine.execTload c o s
  | .tstore c o => Sys2Proof.Machine.execTstore c o s
  | .sliceTransferDone c => Sys2Proof.Machine.execSliceTransferDone c s
  | .tcopy c o => Sys2Proof.Machine.execTcopy c o s
  | .tzero c o => Sys2Proof.Machine.execTzero c o s
  | .aload c o => Sys2Proof.Machine.execAload c o s
  | .astore c o => Sys2Proof.Machine.execAstore c o s
  | .azero c o => Sys2Proof.Machine.execAzero c o s
  | .sld c o => Sys2Proof.Machine.execSld c o s
  | .mma c o => Sys2Proof.Machine.execMma c o s
  | .aadd c o => Sys2Proof.Machine.execAadd c o s
  | .amov c o => Sys2Proof.Machine.execAmov c o s
  | .ascale c o => Sys2Proof.Machine.execAscale c o s
  | .vadd c o => Sys2Proof.Machine.execVadd c o s
  | .vsub c o => Sys2Proof.Machine.execVsub c o s
  | .vmul c o => Sys2Proof.Machine.execVmul c o s
  | .vfma c o => Sys2Proof.Machine.execVfma c o s
  | .vmax c o => Sys2Proof.Machine.execVmax c o s
  | .vmin c o => Sys2Proof.Machine.execVmin c o s
  | .vscale c o => Sys2Proof.Machine.execVscale c o s
  | .vadds c o => Sys2Proof.Machine.execVadds c o s
  | .vfunc c o => Sys2Proof.Machine.execVfunc c o s
  | .vrsum c o => Sys2Proof.Machine.execVrsum c o s
  | .vrmax c o => Sys2Proof.Machine.execVrmax c o s
  | .vbadd c o => Sys2Proof.Machine.execVbadd c o s
  | .vbmul c o => Sys2Proof.Machine.execVbmul c o s
  | .vcmul c o => Sys2Proof.Machine.execVcmul c o s
  | .tcount c o => Sys2Proof.Machine.execTcount c o s
  | .tin c o => Sys2Proof.Machine.execTin c o s
  | .rcfg c o => Sys2Proof.Machine.execRcfg c o s
  | .rgate c o => Sys2Proof.Machine.execRgate c o s
  | .rsend c o => Sys2Proof.Machine.execRsend c o s
  | .rrecv c o => Sys2Proof.Machine.execRrecv c o s
  | .rret c o => Sys2Proof.Machine.execRret c o s
  | .rcomb c o => Sys2Proof.Machine.execRcomb c o s
  | .rexit c o => Sys2Proof.Machine.execRexit c o s
  | .rcompact c o => Sys2Proof.Machine.execRcompact c o s
  | .rstat c o => Sys2Proof.Machine.execRstat c o s
  | .scfg c o => Sys2Proof.Machine.execScfg c o s
  | .swalk c o => Sys2Proof.Machine.execSwalk c o s
  | .sappend c o => Sys2Proof.Machine.execSappend c o s
  | .smerge c o => Sys2Proof.Machine.execSmerge c o s
  | .snorm c o => Sys2Proof.Machine.execSnorm c o s
  | .slen c o => Sys2Proof.Machine.execSlen c o s
  | .sstat c o => Sys2Proof.Machine.execSstat c o s
  | .cvec c o => Sys2Proof.Machine.execCvec c o s
  | .cissue c o => Sys2Proof.Machine.execCissue c o s
  | .crumbProgramStart u => Sys2Proof.Machine.execCrumbProgramStart u s
  | .crumbGrant slice => Sys2Proof.Machine.execCrumbGrant slice s
  | .fenceCrumb c o => Sys2Proof.Machine.execFenceCrumb c o s
  | .cstat c o => Sys2Proof.Machine.execCstat c o s
  | .endProgram u o => Sys2Proof.Machine.execEndProgram u o s
  | .ldi u o => Sys2Proof.Machine.execLdi u o s
  | .addi u o => Sys2Proof.Machine.execAddi u o s
  | .crumbAdd u o => Sys2Proof.Machine.execCrumbAdd u o s
  | .crumbSub u o => Sys2Proof.Machine.execCrumbSub u o s
  | .fmt u o => Sys2Proof.Machine.execFmt u o s
  | .mv u o => Sys2Proof.Machine.execMv u o s
  | .clra u o => Sys2Proof.Machine.execClra u o s
  | .retv u o => Sys2Proof.Machine.execRetv u o s
  | .stv u o => Sys2Proof.Machine.execStv u o s
  | .crumbLoop u o => Sys2Proof.Machine.execCrumbLoop u o s
  | .nput c o => Sys2Proof.Machine.execNput c o s
  | .mcast c o => Sys2Proof.Machine.execMcast c o s
  | .mcastAbandon c n => Sys2Proof.Machine.execMcastAbandon c n s
  | .fold c o => Sys2Proof.Machine.execFold c o s
  | .nwait c o => Sys2Proof.Machine.execNwait c o s
  | .nsync c o => Sys2Proof.Machine.execNsync c o s
  | .stsend c o => Sys2Proof.Machine.execStsend c o s
  | .nstat c o => Sys2Proof.Machine.execNstat c o s
  | .networkTransferDone c n => Sys2Proof.Machine.execNetworkTransferDone c n s
  | .windowComplete c xfer => Sys2Proof.Machine.execWindowComplete c xfer s
  | .flitReadReq f bad => Sys2Proof.Machine.execFlitReadReq f bad s
  | .flitReadData f bad => Sys2Proof.Machine.execFlitReadData f bad s
  | .flitWrite f bad => Sys2Proof.Machine.execFlitWrite f bad s
  | .flitPut f bad => Sys2Proof.Machine.execFlitPut f bad s
  | .flitMcast f bad full => Sys2Proof.Machine.execFlitMcast f bad full s
  | .flitFold f bad => Sys2Proof.Machine.execFlitFold f bad s
  | .flitRoute f bad => Sys2Proof.Machine.execFlitRoute f bad s
  | .flitCrumb f bad => Sys2Proof.Machine.execFlitCrumb f bad s
  | .flitNack f bad => Sys2Proof.Machine.execFlitNack f bad s
  | .flitComplete f bad => Sys2Proof.Machine.execFlitComplete f bad s
  | .flitCredit f bad => Sys2Proof.Machine.execFlitCredit f bad s
  | .flitCtrl f bad => Sys2Proof.Machine.execFlitCtrl f bad s
  | .frameDescriptor f bad => Sys2Proof.Machine.execFrameDescriptor f bad s
  | .frameData f bad => Sys2Proof.Machine.execFrameData f bad s
  | .frameComplete f bad => Sys2Proof.Machine.execFrameComplete f bad s
  | .frameCredit f bad => Sys2Proof.Machine.execFrameCredit f bad s
  | .frameReplayReq f bad => Sys2Proof.Machine.execFrameReplayReq f bad s
  | .frameIdle f bad => Sys2Proof.Machine.execFrameIdle f bad s
  | .bundleFrameTimeout stack => Sys2Proof.Machine.execBundleFrameTimeout stack s
  | .ioDieFrameTimeout stack => Sys2Proof.Machine.execIoDieFrameTimeout stack s
  | .stackReset stack => Sys2Proof.Machine.execStackReset stack s
  | .laneMarginSample ln replays failing => Sys2Proof.Machine.execLaneMarginSample ln replays failing s
  | .laneSwap ln => Sys2Proof.Machine.execLaneSwap ln s
  | .laserLoss => Sys2Proof.Machine.execLaserLoss s
  | .tlinkInput port p bad => Sys2Proof.Machine.execTlinkInput port p bad s
  | .tlinkAck port p bad => Sys2Proof.Machine.execTlinkAck port p bad s
  | .tlinkHold port p bad => Sys2Proof.Machine.execTlinkHold port p bad s
  | .tlinkRelease port p bad => Sys2Proof.Machine.execTlinkRelease port p bad s
  | .tlinkMgmt port p bad => Sys2Proof.Machine.execTlinkMgmt port p bad s
  | .tlinkLinkUp port peer => Sys2Proof.Machine.execTlinkLinkUp port peer s
  | .tlinkStale ring => Sys2Proof.Machine.execTlinkStale ring s
  | .journalWrite => Sys2Proof.Machine.execJournalWrite s
  | .sensorSample r => Sys2Proof.Machine.execSensorSample r s
  | .refreshBandFall quad => Sys2Proof.Machine.execRefreshBandFall quad s
  | .sensorSplitClear quad => Sys2Proof.Machine.execSensorSplitClear quad s
  | .rackRestart => Sys2Proof.Machine.execRackRestart s
  | .suddenStop flow => Sys2Proof.Machine.execSuddenStop flow s
  | .suddenStopClear => Sys2Proof.Machine.execSuddenStopClear s
  | .coolantReportLost => Sys2Proof.Machine.execCoolantReportLost s
  | .coolingDegraded => Sys2Proof.Machine.execCoolingDegraded s
  | .coolingDegradedStep => Sys2Proof.Machine.execCoolingDegradedStep s
  | .coolingRestored => Sys2Proof.Machine.execCoolingRestored s
  | .throttleCapRaise => Sys2Proof.Machine.execThrottleCapRaise s
  | .refresh slice => Sys2Proof.Machine.execRefresh slice s
  | .patrolScrub slice errs => Sys2Proof.Machine.execPatrolScrub slice errs s
  | .scrubPauseExpiry => Sys2Proof.Machine.execScrubPauseExpiry s
  | .scrubPositionSave => Sys2Proof.Machine.execScrubPositionSave s
  | .dramRetrain slice => Sys2Proof.Machine.execDramRetrain slice s
  | .rewriteReread word again => Sys2Proof.Machine.execRewriteReread word again s
  | .faultLogCopy => Sys2Proof.Machine.execFaultLogCopy s
  | .faultMapWrite => Sys2Proof.Machine.execFaultMapWrite s
  | .hearthWatchdogExpiry => Sys2Proof.Machine.execHearthWatchdogExpiry s
  | .sealSignatureDone => Sys2Proof.Machine.execSealSignatureDone s
  | .quoteSigned => Sys2Proof.Machine.execQuoteSigned s
  | .debugLevelLapse session => Sys2Proof.Machine.execDebugLevelLapse session s
  | .nonceExpiry fn => Sys2Proof.Machine.execNonceExpiry fn s
  | .fwStagingExpiry => Sys2Proof.Machine.execFwStagingExpiry s
  | .firmwareHandover ok => Sys2Proof.Machine.execFirmwareHandover ok s
  | .zeroingDone => Sys2Proof.Machine.execZeroingDone s
  | .quadrantReady quad => Sys2Proof.Machine.execQuadrantReady quad s
  | .powerStateEntry => Sys2Proof.Machine.execPowerStateEntry s
  | .perstNRelease e => Sys2Proof.Machine.execPerstNRelease e s
  | .perstNAssert => Sys2Proof.Machine.execPerstNAssert s
  | .stageP0 ok => Sys2Proof.Machine.execStageP0 ok s
  | .stageP1 ok => Sys2Proof.Machine.execStageP1 ok s
  | .stageP2 r => Sys2Proof.Machine.execStageP2 r s
  | .stageP3 r => Sys2Proof.Machine.execStageP3 r s
  | .stageP4 scope r => Sys2Proof.Machine.execStageP4 scope r s
  | .stageP5 scope r => Sys2Proof.Machine.execStageP5 scope r s
  | .stageP6 scope => Sys2Proof.Machine.execStageP6 scope s
  | .stageP7 => Sys2Proof.Machine.execStageP7 s
  | .stageP8 failed => Sys2Proof.Machine.execStageP8 failed s
  | .stageP9 => Sys2Proof.Machine.execStageP9 s
  | .stageTimeout scope => Sys2Proof.Machine.execStageTimeout scope s
  | .p4ColdWaitTimeout stack => Sys2Proof.Machine.execP4ColdWaitTimeout stack s
  | .p5ColdTimeout quad => Sys2Proof.Machine.execP5ColdTimeout quad s
  | .supplyFault rail => Sys2Proof.Machine.execSupplyFault rail s
  | .vcoreRestore => Sys2Proof.Machine.execVcoreRestore s
  | .referenceClockLoss clk => Sys2Proof.Machine.execReferenceClockLoss clk s
  | .functionLevelReset fn => Sys2Proof.Machine.execFunctionLevelReset fn s
  | .configRequest => Sys2Proof.Machine.execConfigRequest s
  | .bar2Read off len => Sys2Proof.Machine.execBar2Read off len s
  | .bar2Write off data poisoned => Sys2Proof.Machine.execBar2Write off data poisoned s
  | .mailboxGo mb v => Sys2Proof.Machine.execMailboxGo mb v s
  | .evTailWrite mb v => Sys2Proof.Machine.execEvTailWrite mb v s
  | .counterClear off v => Sys2Proof.Machine.execCounterClear off v s
  | .periodNsWrite v => Sys2Proof.Machine.execPeriodNsWrite v s
  | .sourceWrite v => Sys2Proof.Machine.execSourceWrite v s
  | .wrapEnWrite v => Sys2Proof.Machine.execWrapEnWrite v s
  | .rateWrite quad stream v => Sys2Proof.Machine.execRateWrite quad stream v s
  | .globalStepsWrite v => Sys2Proof.Machine.execGlobalStepsWrite v s
  | .budgetWrite v => Sys2Proof.Machine.execBudgetWrite v s
  | .globalWavesWrite v => Sys2Proof.Machine.execGlobalWavesWrite v s
  | .bar2BaseWrite v => Sys2Proof.Machine.execBar2BaseWrite v s
  | .thermalConfigWrite off v => Sys2Proof.Machine.execThermalConfigWrite off v s
  | .maxRecoveryNsRead => Sys2Proof.Machine.execMaxRecoveryNsRead s
  | .registerWrite off size v => Sys2Proof.Machine.execRegisterWrite off size v s
  | .sidebandReport inlet flow => Sys2Proof.Machine.execSidebandReport inlet flow s
  | .sidebandWake => Sys2Proof.Machine.execSidebandWake s
  | .i3cDynamicAddress a => Sys2Proof.Machine.execI3cDynamicAddress a s
  | .idcode => Sys2Proof.Machine.execIdcode s
  | .samplePreload => Sys2Proof.Machine.execSamplePreload s
  | .extest => Sys2Proof.Machine.execExtest s
  | .extestPulse => Sys2Proof.Machine.execExtestPulse s
  | .extestTrain => Sys2Proof.Machine.execExtestTrain s
  | .dbgAccess a w => Sys2Proof.Machine.execDbgAccess a w s
  | .bypass => Sys2Proof.Machine.execBypass s
  | .tapReset por => Sys2Proof.Machine.execTapReset por s
  | .seqOpen m => Sys2Proof.Machine.execSeqOpen m s
  | .seqClose m => Sys2Proof.Machine.execSeqClose m s
  | .seqHold m => Sys2Proof.Machine.execSeqHold m s
  | .seqRelease m => Sys2Proof.Machine.execSeqRelease m s
  | .seqIngest m => Sys2Proof.Machine.execSeqIngest m s
  | .seqRead m => Sys2Proof.Machine.execSeqRead m s
  | .planLoad m => Sys2Proof.Machine.execPlanLoad m s
  | .planUnload m => Sys2Proof.Machine.execPlanUnload m s
  | .planAdmit m => Sys2Proof.Machine.execPlanAdmit m s
  | .planSuspend m => Sys2Proof.Machine.execPlanSuspend m s
  | .planResume m => Sys2Proof.Machine.execPlanResume m s
  | .planRead m => Sys2Proof.Machine.execPlanRead m s
  | .tickSetPeriod m => Sys2Proof.Machine.execTickSetPeriod m s
  | .tickSetSource m => Sys2Proof.Machine.execTickSetSource m s
  | .tickRead m => Sys2Proof.Machine.execTickRead m s
  | .tickCntClear m => Sys2Proof.Machine.execTickCntClear m s
  | .tickWrapEn m => Sys2Proof.Machine.execTickWrapEn m s
  | .memRead m => Sys2Proof.Machine.execMemRead m s
  | .memWrite m => Sys2Proof.Machine.execMemWrite m s
  | .memFence m => Sys2Proof.Machine.execMemFence m s
  | .memConfig m => Sys2Proof.Machine.execMemConfig m s
  | .memWindowSet m => Sys2Proof.Machine.execMemWindowSet m s
  | .kvLayoutSet m => Sys2Proof.Machine.execKvLayoutSet m s
  | .kvPoolCreate m => Sys2Proof.Machine.execKvPoolCreate m s
  | .kvPoolDestroy m => Sys2Proof.Machine.execKvPoolDestroy m s
  | .kvFork m => Sys2Proof.Machine.execKvFork m s
  | .kvTruncate m => Sys2Proof.Machine.execKvTruncate m s
  | .kvRetirePages m => Sys2Proof.Machine.execKvRetirePages m s
  | .kvMap m => Sys2Proof.Machine.execKvMap m s
  | .kvUnmap m => Sys2Proof.Machine.execKvUnmap m s
  | .kvRead m => Sys2Proof.Machine.execKvRead m s
  | .kvRetireFrame m => Sys2Proof.Machine.execKvRetireFrame m s
  | .kvRepage m => Sys2Proof.Machine.execKvRepage m s
  | .kvRehome m => Sys2Proof.Machine.execKvRehome m s
  | .kvRestore m => Sys2Proof.Machine.execKvRestore m s
  | .kvDigest m => Sys2Proof.Machine.execKvDigest m s
  | .evdCapture m => Sys2Proof.Machine.execEvdCapture m s
  | .evdSeal m => Sys2Proof.Machine.execEvdSeal m s
  | .evdRead m => Sys2Proof.Machine.execEvdRead m s
  | .evdLinks m => Sys2Proof.Machine.execEvdLinks m s
  | .evdJournalRead m => Sys2Proof.Machine.execEvdJournalRead m s
  | .evdAck m => Sys2Proof.Machine.execEvdAck m s
  | .evdStatus m => Sys2Proof.Machine.execEvdStatus m s
  | .evdReplayBegin m => Sys2Proof.Machine.execEvdReplayBegin m s
  | .evdReplayTick m => Sys2Proof.Machine.execEvdReplayTick m s
  | .evdReplayEnd m => Sys2Proof.Machine.execEvdReplayEnd m s
  | .netRead m => Sys2Proof.Machine.execNetRead m s
  | .netCntClear m => Sys2Proof.Machine.execNetCntClear m s
  | .linkSetAddr m => Sys2Proof.Machine.execLinkSetAddr m s
  | .linkRetrain m => Sys2Proof.Machine.execLinkRetrain m s
  | .linkRejoin m => Sys2Proof.Machine.execLinkRejoin m s
  | .linkGlobalWaves m => Sys2Proof.Machine.execLinkGlobalWaves m s
  | .linkRead m => Sys2Proof.Machine.execLinkRead m s
  | .thermRead m => Sys2Proof.Machine.execThermRead m s
  | .thermTelemetryRead m => Sys2Proof.Machine.execThermTelemetryRead m s
  | .thermCalibrate m => Sys2Proof.Machine.execThermCalibrate m s
  | .thermFlowMin m => Sys2Proof.Machine.execThermFlowMin m s
  | .thermWarmup m => Sys2Proof.Machine.execThermWarmup m s
  | .pwrState m => Sys2Proof.Machine.execPwrState m s
  | .pwrGate m => Sys2Proof.Machine.execPwrGate m s
  | .pwrUngate m => Sys2Proof.Machine.execPwrUngate m s
  | .pwrClockHalf m => Sys2Proof.Machine.execPwrClockHalf m s
  | .pwrStackOff m => Sys2Proof.Machine.execPwrStackOff m s
  | .pwrStackOn m => Sys2Proof.Machine.execPwrStackOn m s
  | .pwrRead m => Sys2Proof.Machine.execPwrRead m s
  | .faultLogRead m => Sys2Proof.Machine.execFaultLogRead m s
  | .faultMapRead m => Sys2Proof.Machine.execFaultMapRead m s
  | .faultRetire m => Sys2Proof.Machine.execFaultRetire m s
  | .faultScrub m => Sys2Proof.Machine.execFaultScrub m s
  | .faultInject m => Sys2Proof.Machine.execFaultInject m s
  | .faultDramFuse m => Sys2Proof.Machine.execFaultDramFuse m s
  | .secSessionOpen m => Sys2Proof.Machine.execSecSessionOpen m s
  | .secSessionClose m => Sys2Proof.Machine.execSecSessionClose m s
  | .secSessionAdopt m => Sys2Proof.Machine.execSecSessionAdopt m s
  | .secSessionRead m => Sys2Proof.Machine.execSecSessionRead m s
  | .secFunctionLimit m => Sys2Proof.Machine.execSecFunctionLimit m s
  | .secMailboxAssign m => Sys2Proof.Machine.execSecMailboxAssign m s
  | .secExpertOpen m => Sys2Proof.Machine.execSecExpertOpen m s
  | .secExpertClose m => Sys2Proof.Machine.execSecExpertClose m s
  | .secNonce m => Sys2Proof.Machine.execSecNonce m s
  | .secQuote m => Sys2Proof.Machine.execSecQuote m s
  | .secCertRead m => Sys2Proof.Machine.execSecCertRead m s
  | .secProvision m => Sys2Proof.Machine.execSecProvision m s
  | .secCertInstall m => Sys2Proof.Machine.execSecCertInstall m s
  | .secDeploy m => Sys2Proof.Machine.execSecDeploy m s
  | .secReturn m => Sys2Proof.Machine.execSecReturn m s
  | .secSvnCommit m => Sys2Proof.Machine.execSecSvnCommit m s
  | .dbgRead m => Sys2Proof.Machine.execDbgRead m s
  | .dbgWrite m => Sys2Proof.Machine.execDbgWrite m s
  | .dbgScan m => Sys2Proof.Machine.execDbgScan m s
  | .dbgTapOpen m => Sys2Proof.Machine.execDbgTapOpen m s
  | .dbgClose m => Sys2Proof.Machine.execDbgClose m s
  | .fwLoad m => Sys2Proof.Machine.execFwLoad m s
  | .fwReplace m => Sys2Proof.Machine.execFwReplace m s
  | .fwActivate m => Sys2Proof.Machine.execFwActivate m s
  | .fwStatus m => Sys2Proof.Machine.execFwStatus m s
  | .capRead m => Sys2Proof.Machine.execCapRead m s
  | .capEventRead m => Sys2Proof.Machine.execCapEventRead m s
  | .capStatus m => Sys2Proof.Machine.execCapStatus m s
  | .quotaSliceSet m => Sys2Proof.Machine.execQuotaSliceSet m s
  | .quotaStreamSet m => Sys2Proof.Machine.execQuotaStreamSet m s
  | .quotaCrumbSet m => Sys2Proof.Machine.execQuotaCrumbSet m s
  | .quotaRead m => Sys2Proof.Machine.execQuotaRead m s
  | .tlinkPortDown port => Sys2Proof.Machine.execTlinkPortDown port s
  | .stackResetRelease stack r => Sys2Proof.Machine.execStackResetRelease stack r s
  | .stackClockRegained stack r => Sys2Proof.Machine.execStackClockRegained stack r s
  | .serialSupplyReturn => Sys2Proof.Machine.execSerialSupplyReturn s
  | .referenceClockReturn clk => Sys2Proof.Machine.execReferenceClockReturn clk s

end Sys2Proof.Machine
end

