-- ==== Sys2Proof/Certificates/Slice0/Obligations.lean ====
section
/-! DEFINITION. The statements for the provers, with the terms they share. -/

namespace Sys2Proof.Claims

open Sys2Proof Sys2Proof.Machine

/-! ## Terms of the statements: tile programs -/

/-- A computation goes through. -/
def passes {α : Type} (r : Tr α) : Bool := match r with | .ok _ => true | .error _ => false

/-- A core has fetched an instruction's word in an executing tick, its fields are legal, no load it depends on is under way, and
its cycles stay within CYCLE_BUDGET. -/
def issued (c : Lcid) (op : BitVec 8) (h : Shape) (o : Op) (s : State) : Bool :=
  validLcid c && issues s c op o && passes (checkFields h o) && !(s.core c).fieldPending h o
    && decide (max (s.core c).cycles o.cyc ≤ (s.core c).budget)

/-- The core as an instruction finds it, its cycles counted. -/
def found (c : Lcid) (o : Op) (s : State) : CoreCtx := { s.core c with cycles := max (s.core c).cycles o.cyc }

/-- An instruction that changes its core alone completes with what its operation gives, at the next instruction. -/
def Completes (mk : Lcid → Op → Instr) (op : BitVec 8) (h : Op → Shape) (body : Lcid → Op → State → CoreCtx → Tr CoreCtx) : Prop :=
  ∀ c o s k, issued c op (h o) o s = true → body c o s (found c o s) = .ok k → exec (mk c o) s = .next (endInstr c k.step s)

/-- An instruction that also changes the rest of the state completes with what its operation gives. -/
def CompletesWith (mk : Lcid → Op → Instr) (op : BitVec 8) (h : Op → Shape)
    (body : Lcid → Op → State → CoreCtx → Tr (CoreCtx × State)) : Prop :=
  ∀ c o s k t, issued c op (h o) o s = true → body c o s (found c o s) = .ok (k, t) → exec (mk c o) s = .next (endInstr c k t)

/-- sd = f(sa, sb or IMM), poisoned by a poisoned operand, and nothing else but the pc, the count of poison and the cycles. -/
def Arithmetic (mk : Lcid → Op → Instr) (op : BitVec 8) (f : W64 → W64 → W64) : Prop :=
  ∀ c o s, issued c op arithShape o s = true →
    let k := found c o s
    let y := if o.mod.getLsbD 8 then o.imm.signExtend 64 else k.sreg o.b
    let bad := k.sbad o.a || (!o.mod.getLsbD 8 && k.sbad o.b)
    exec (mk c o) s = .next (endInstr c ((k.sset o.dst (f (k.sreg o.a) y) bad).eat bad).step s)

/-- The condition a code of CMP names: equal, not equal, and signed and unsigned less and not less. -/
def condition (code : Nat) (x y : W64) : Bool :=
  match code with
  | 0 => decide (x = y) | 1 => decide (x ≠ y) | 2 => decide (x.toInt < y.toInt) | 3 => decide (y.toInt ≤ x.toInt)
  | 4 => decide (x.toNat < y.toNat) | _ => decide (y.toNat ≤ x.toNat)

/-- A bench range lies in bench memory, and no window, unfenced return or transfer under way holds it. -/
def reachable (k : CoreCtx) (a n : Nat) : Bool :=
  decide (a + n ≤ 0x400000) && !k.inWindow a n && !k.inReturn a n && !k.inFlight a n

/-- The bench address sa + sext(IMM). -/
def benchAddr (k : CoreCtx) (o : Op) : Nat := (k.sreg o.a + o.imm.signExtend 64).toNat

/-! ## Terms of the statements: crumb programs -/

/-- A unit that holds its slot has fetched a crumb instruction's word in an executing tick, for a program in progress, its slice is
there, and the fields it does not use are zero. -/
def crumbIssued (u : UnitId) (op : BitVec 6) (d a b : Bool) (imms : BitVec 17) (o : CrumbOp) (s : State) : Bool :=
  let v := s.crumbAt u
  validUnit u && v.running && !v.waiting && decide (s.seqr.phase = .executing) && decide (v.prog[v.pc]? = some (crumbWord op o))
    && !s.sliceDead u.slice && (d || decide (o.qd = 0)) && (a || decide (o.qa = 0)) && (b || decide (o.qb = 0))
    && decide (o.imm &&& ~~~imms = 0)

/-- The program a unit runs. -/
def inProgress (u : UnitId) (s : State) : Option (Lcid × CrumbJob) := s.jobWhere u fun j => j.started && !j.ended

/-- The end of a crumb instruction: its cycles are counted, and a fetch that finds no instruction breaks the program. -/
def crumbDone (u : UnitId) (c : Lcid) (j : CrumbJob) (v : CrumbUnit) (n : Nat) (t : State) : State :=
  let t := incP .crumbCycles n (t.setCrumb u v)
  if v.running && v.fetchBad then breakProgram c u j t else t

/-- A crumb instruction that changes its unit alone completes in one cycle with what its operation gives. -/
def CrumbCompletes (mk : UnitId → CrumbOp → Instr) (op : BitVec 6) (d a b : Bool) (imms : BitVec 17)
    (body : CrumbOp → CrumbUnit → CrumbUnit) : Prop :=
  ∀ u o s c j, crumbIssued u op d a b imms o s = true → inProgress u s = some (c, j) →
    exec (mk u o) s = .next (crumbDone u c j (body o (s.crumbAt u)).next 1 s)

/-- A crumb instruction completes with what its operation gives. -/
def CrumbCompletesWith (mk : UnitId → CrumbOp → Instr) (op : BitVec 6) (d a b : Bool) (imms : BitVec 17)
    (body : UnitId → CrumbOp → State → Lcid → CrumbJob → CrumbUnit → Except CStop (CrumbUnit × Nat × State)) : Prop :=
  ∀ u o s c j v n t, crumbIssued u op d a b imms o s = true → inProgress u s = some (c, j) →
    body u o s c j (s.crumbAt u) = .ok (v, n, t) → exec (mk u o) s = .next (crumbDone u c j v n t)

/-! ## Terms of the statements: flits and frames -/

/-- A flit of a kind is the next to arrive at its router, in an executing tick or for the device's own logic. -/
def arrived (kind : BitVec 4) (f : NetFlit) (s : State) : Bool :=
  validStack f.stack && decide (f.kind = kind) && s.flitFirst f && (f.sys || decide (s.seqr.phase = .executing))

/-- A flit has reached the port by which it leaves its die. -/
def leaving (f : NetFlit) : Bool := match f.far with | some w => w.stack != f.stack | none => false

/-- The state once a flit has been taken off the mesh, and counted by the routers that forward it. -/
def flitTaken (f : NetFlit) (s : State) : State :=
  incP (.flits f.stack) (s.forwards f) { s with flits := s.flits.erase f }

/-- A frame of a kind is the next to arrive on its edge, in an executing tick or for the device's own logic. -/
def frameIn (kind : BitVec 4) (f : NetFrame) (s : State) : Bool :=
  validStack f.src && validStack f.dst && decide (f.kind = kind) && s.frameFirst f
    && (f.flit.sys || decide (s.seqr.phase = .executing))

/-- An open TLink port takes a packet for this device whose tag is in range, with no replay before it. -/
def packetHere (port : Nat) (p : Packet) (s : State) : Bool :=
  validPort port && s.portOpen port && decide (p.destDev.toNat % 512 = s.cfg.devAddr.toNat) && (tagAge s.seqr.count p.tag).isSome
    && decide ((s.portAt port).replays < 8)

/-- The state once a port has taken a packet. -/
def portIn (port : Nat) (s : State) : State := s.setPort port { s.portAt port with replays := 0 }

/-! ## Terms of the statements: mailbox commands -/

/-- A command is the next the Hearth serves, and no check stops it. -/
def served (c : Cmd) (s : State) : Bool := c.taken s && decide (c.refusal s = none)

/-- A command that changes state: accepted, with its changes staged for the commit and its answer held (R39, R216). -/
def Stages (mk : Msg → Instr) (c : Msg → Cmd) (op : Nat) (cs : Msg → State → List Change) (body : Msg → List W64) : Prop :=
  ∀ m s, served (c m) s = true → exec (mk m) s = .next (accept op m (cs m ((c m).served s)) (body m) ((c m).served s))

/-- A command that reads: answered at once with COUNT, NEXT and the items its buffer takes whole. -/
def Reads (mk : Msg → Instr) (c : Msg → Cmd) (op : Nat) (items : Msg → State → Items) : Prop :=
  ∀ m s, served (c m) s = true → exec (mk m) s = .next (readItems op m (items m ((c m).served s)) ((c m).served s))

/-- A command that waits for the next commit to take a register's value. -/
def Pends (mk : Msg → Instr) (c : Msg → Cmd) (op : Nat) (ch : Msg → Change) : Prop :=
  ∀ m s, served (c m) s = true → exec (mk m) s = .next (accept op m [ch m] [] (markPending (ch m) ((c m).served s)))

/-- A command that edits a sequence's tables: accepted, with its change staged and the tables it changes copied (R186). -/
def Edits (mk : Msg → Instr) (c : Msg → Cmd) (op : Nat) (ch : Msg → Change) : Prop :=
  ∀ m s, served (c m) s = true → exec (mk m) s = .next (acceptEdit op m (ch m) ((c m).served s))

/-- A command has the effect given on the state in which its mailbox has been served. -/
def Does (mk : Msg → Instr) (c : Msg → Cmd) (f : Msg → State → State) : Prop :=
  ∀ m s, served (c m) s = true → exec (mk m) s = .next (f m ((c m).served s))

end Sys2Proof.Claims

open Sys2Proof Sys2Proof.Machine Sys2Proof.Claims

/-! ## The machine -/

/-- A step runs the command at the front of the queue on the state with the queue's rest; on an empty queue the block idles (log 2). -/
def Obligations.StepRunsFrontCommand : Prop :=
  (∀ (c : Instr) (rest : List Instr) (s : State), s.pending = c :: rest → step s = exec c { s with pending := rest })
  ∧ ∀ s : State, s.pending = [] → step s = .next s

/-- What reset leaves, where the spec gives it: the registers of the tick sequencer (R58), crumb control (R170), the device's memory,
link, thermal and power registers (R136, R279, R346), no session, no object, an empty queue. -/
def Obligations.ResetLeaves : Prop :=
  let s := State.reset
  s.pending = [] ∧ s.dram = [] ∧ s.seqr.period = 200000 ∧ s.seqr.external = false ∧ s.seqr.count = 0 ∧ s.seqr.time = 0
  ∧ s.seqr.lateEvtEn = true ∧ s.seqr.wrapEn = 0 ∧ s.seqr.maxRecovery = 0 ∧ s.cfg.budget = 4 ∧ s.cfg.globalSteps = 2 ∧ s.cfg.globalWaves = 8
  ∧ s.cfg.devAddr = 0 ∧ s.cfg.dims = 0 ∧ s.cfg.storeLowWater = 0x4000 ∧ s.cfg.poolLowWater = 0x10 ∧ s.power.flowMin = 0xC8
  ∧ s.power.capW = 600 ∧ s.power.throttleCapW = 600 ∧ s.power.degradedCapW = 600 ∧ s.power.forecastCapW = 600 ∧ s.power.warmupEn = true
  ∧ s.power.state = .active ∧ s.host.bar2Base = 0 ∧ s.sessions = [] ∧ s.plans = [] ∧ s.seqs = [] ∧ s.changes = []
  ∧ (∀ n, (s.mbAt n).busy = false ∧ (s.mbAt n).done = false ∧ (s.mbAt n).overrun = false) ∧ (∀ c, (s.core c).run = .idle)
  ∧ s.boot.released = false ∧ s.boot.st = .running ∧ s.ticking = false

/-- The invariant of device memory at reset: its canonical form, addresses rising and no zero byte listed. -/
def Obligations.MemoryCanonicalAtReset : Prop := Mem.wf State.reset.dram = true

/-- Every step keeps device memory in its canonical form, from every state that has it. -/
def Obligations.MemoryStaysCanonical : Prop := ∀ s t : State, Mem.wf s.dram = true → step s = .next t → Mem.wf t.dram = true

/-- R380, R411: no command touches the queue, blows a fuse back, lowers SVN_FLOOR, takes back a boot count or a seal number, or
unmakes the identity key. -/
def Obligations.NothingUndoesTheFloor : Prop :=
  ∀ (i : Instr) (s t : State), exec i s = .next t →
    t.pending = s.pending ∧ t.fuses.serial = s.fuses.serial ∧ t.fuses.fwDigest = s.fuses.fwDigest
    ∧ (s.fuses.erased = true → t.fuses.erased = true) ∧ s.mram.svnFloor ≤ t.mram.svnFloor ∧ s.mram.bootCount ≤ t.mram.bootCount
    ∧ s.mram.sealNumber ≤ t.mram.sealNumber ∧ (s.mram.identity.isSome = true → t.mram.identity.isSome = true)

/-- Every command whose units exist answers a next state, whatever the state; one that names a unit that does not exist faults. That a
command that cannot take place leaves the state as it was is the model's choice (log 1). -/
def Obligations.WellFormedCommandsRun : Prop :=
  ∀ (i : Instr) (s : State), (i.wf = true → ∃ t, exec i s = .next t) ∧ (i.wf = false → exec i s = .fault .noSuchUnit)

/-! ## Tile programs -/

/-- R81: NOP and the arithmetic of 64-bit two's complement registers. -/
def Obligations.ScalarArithmeticResults : Prop :=
  (∀ c o s, issued c 0x00 ⟨.no, .no, .no, 0, 0, false⟩ o s = true → exec (.nop c o) s = .next (endInstr c (found c o s).step s))
  ∧ Arithmetic .add 0x01 (fun x y => x + y) ∧ Arithmetic .sub 0x02 (fun x y => x - y) ∧ Arithmetic .mul 0x03 (fun x y => x * y)
  ∧ Arithmetic .and 0x04 (fun x y => x &&& y) ∧ Arithmetic .or 0x05 (fun x y => x ||| y) ∧ Arithmetic .xor 0x06 (fun x y => x ^^^ y)
  ∧ Arithmetic .shl 0x07 (fun x y => x <<< (y.toNat % 64)) ∧ Arithmetic .shr 0x08 (fun x y => x >>> (y.toNat % 64))
  ∧ Arithmetic .sra 0x09 (fun x y => x.sshiftRight (y.toNat % 64))

/-- R81: CMP by its six conditions, and LI of a whole register or of its high half. -/
def Obligations.CompareAndLoadImmediate : Prop :=
  (∀ c o s, issued c 0x0A ⟨.s, .s, .s, 7, 0, true⟩ o s = true → o.mod.toNat % 8 ≤ 5 →
    let k := found c o s
    let x := k.sreg o.a
    let y := (k.opb o).1
    let bad := k.sbad o.a || (k.opb o).2
    exec (.cmp c o) s = .next (endInstr c ((k.sset o.dst (if condition (o.mod.toNat % 8) x y then 1 else 0) bad).eat bad).step s))
  ∧ (∀ c o s, issued c 0x0B ⟨.s, .no, .no, 1, 0xFFFFFFFF, false⟩ o s = true → o.mod.getLsbD 0 = false →
    exec (.li c o) s = .next (endInstr c ((found c o s).sset o.dst (o.imm.signExtend 64) false).step s))
  ∧ (∀ c o s, issued c 0x0B ⟨.s, .no, .no, 1, 0xFFFFFFFF, false⟩ o s = true → o.mod.getLsbD 0 = true →
    let k := found c o s
    let low : W32 := (k.sreg o.dst).setWidth 32
    exec (.li c o) s = .next (endInstr c ((k.sset o.dst (o.imm ++ low) (k.sbad o.dst)).eat (k.sbad o.dst)).step s))

/-- R81, R82: where BR, CALL, RET and LOOP go, outside a loop body. -/
def Obligations.ControlFlowResults : Prop :=
  (∀ c o s, issued c 0x10 ⟨.no, if o.mod.toNat % 4 = 0 then .no else .s, .no, 3, 0xFFFFFFFF, false⟩ o s = true →
    o.mod.toNat % 4 ≠ 3 → (o.mod.toNat % 4 = 0 ∨ (s.core c).sbad o.a = false) →
    let k := found c o s
    let taken := o.mod.toNat % 4 = 0 ∨ (o.mod.toNat % 4 = 1 ∧ k.sreg o.a = 0) ∨ (o.mod.toNat % 4 = 2 ∧ k.sreg o.a ≠ 0)
    (¬ taken → exec (.br c o) s = .next (endInstr c k.step s))
    ∧ (taken → k.loops = [] →
        exec (.br c o) s = .next (endInstr c { k with pc := (BitVec.ofNat 64 k.pc + 8 * o.imm.signExtend 64).toNat } s)))
  ∧ (∀ c o s, issued c 0x11 ⟨.no, .no, .no, 0, 0xFFFFFFFF, false⟩ o s = true → (s.core c).regPending 31 = false →
    (s.core c).loops = [] →
    let k := found c o s
    exec (.call c o) s = .next (endInstr c
      { k.sset 31 (BitVec.ofNat 64 (k.pc + 8)) false with pc := (BitVec.ofNat 64 k.pc + 8 * o.imm.signExtend 64).toNat } s))
  ∧ (∀ c o s, issued c 0x12 ⟨.no, .no, .no, 0, 0, false⟩ o s = true → (s.core c).regPending 31 = false →
    (s.core c).loops = [] → (s.core c).sbad 31 = false → ((s.core c).sreg 31).toNat % 8 = 0 →
    exec (.ret c o) s = .next (endInstr c { found c o s with pc := ((s.core c).sreg 31).toNat } s))
  ∧ (∀ c o s, issued c 0x13 ⟨.no, .s, .no, 0, 0xFFF, false⟩ o s = true → (s.core c).sbad o.a = false → o.imm.toNat % 4096 ≠ 0 →
    let k := found c o s
    let n := (k.sreg o.a).toNat
    let last := k.pc + 8 * (o.imm.toNat % 4096)
    (n = 0 → exec (.loop c o) s = .next (endInstr c { k with pc := (loopBack last k.loops).1, loops := (loopBack last k.loops).2 } s))
    ∧ (n ≠ 0 → k.loops.length < 4 →
        exec (.loop c o) s = .next (endInstr c { k with pc := k.pc + 8, loops := ⟨k.pc + 8, last, n - 1⟩ :: k.loops } s)))

/-- R61, R65, R81, R90: LD and ST of 64 bits at an aligned bench address; poison goes with the data, and a store into a range that a
network transfer has yet to send waits. -/
def Obligations.BenchLoadAndStore : Prop :=
  (∀ c o s, issued c 0x0C ⟨.s, .s, .no, 0, 0xFFFFFFFF, false⟩ o s = true → (s.core c).sbad o.a = false →
    let k := found c o s
    let a := benchAddr k o
    a % 8 = 0 → reachable k a 8 = true →
    exec (.ld c o) s
      = .next (endInstr c ((k.sset o.dst (BitVec.ofNat 64 (leNat (Mem.read k.bench a 8))) (k.dirty a 8)).eat (k.dirty a 8)).step s))
  ∧ (∀ c o s, issued c 0x0D ⟨.no, .s, .s, 0, 0xFFFFFFFF, false⟩ o s = true → (s.core c).sbad o.a = false →
    let k := found c o s
    let a := benchAddr k o
    a % 8 = 0 → reachable k a 8 = true → k.isResident a 8 = false →
    (k.reading a 8 = false →
      exec (.st c o) s
        = .next (endInstr c ((k.put (runOf a (leBytes 8 (k.sreg o.b).toNat) (k.sbad o.b))).eat (k.sbad o.b)).step s))
    ∧ (k.reading a 8 = true → exec (.st c o) s = .next s))

/-- R83: RDCSR reads LCID, TICK, PLAN_SLOT or FLAGS; WRCSR writes FLAGS, whose reserved bits stay zero. Both wait for loads that have
yet to fold their status into FLAGS. The wait of FLAGS for loads is the model's reading (log 83). -/
def Obligations.ControlRegisterAccess : Prop :=
  (∀ c o s, issued c 0x15 ⟨.s, .no, .no, 0, 0xFFF, false⟩ o s = true → o.imm.toNat ≤ 3 →
    (o.imm.toNat = 3 → (s.core c).loadsOut = false) →
    let k := found c o s
    let v : W64 := match o.imm.toNat with
      | 0 => c.setWidth 64 | 1 => BitVec.ofNat 64 s.tickCsr | 2 => BitVec.ofNat 64 k.slot | _ => k.flags
    exec (.rdcsr c o) s = .next (endInstr c (k.sset o.dst v false).step s))
  ∧ (∀ c o s, issued c 0x16 ⟨.no, .s, .no, 0, 0xFFF, false⟩ o s = true → o.imm.toNat = 3 → (s.core c).loadsOut = false →
    let k := found c o s
    exec (.wrcsr c o) s = .next (endInstr c { k.eat (k.sbad o.a) with flags := k.sreg o.a &&& 0xFF0F }.step s))

/-- R80: s0 reads as zero and ignores writes; a write of another scalar register is read back there, with its poison, and changes no
other register, descriptor, accumulator, flag or byte of bench memory. An instruction that changes its core alone, where the next
fetch finds a legal instruction, leaves every other core and all the rest of the state as it was. -/
def Obligations.RegisterAndCoreFrames : Prop :=
  (
    ∀ (k : CoreCtx) (r q : BitVec 5) (v : W64) (p : Bool),
      k.sreg 0 = 0 ∧ k.sset 0 v p = k
      ∧ (r ≠ 0 → (k.sset r v p).sreg r = v ∧ (k.sset r v p).sbad r = p)
      ∧ (q ≠ r → (k.sset r v p).sreg q = k.sreg q ∧ (k.sset r v p).sbad q = k.sbad q)
      ∧ (k.sset r v p).d = k.d ∧ (k.sset r v p).acc = k.acc ∧ (k.sset r v p).flags = k.flags ∧ (k.sset r v p).bench = k.bench
      ∧ (k.sset r v p).benchPoison = k.benchPoison ∧ (k.sset r v p).pc = k.pc ∧ (k.sset r v p).loops = k.loops)
  ∧ (
    ∀ (s : State) (c : Lcid) (k : CoreCtx), k.fetchTrap = none →
      (endInstr c k s).core c = k ∧ (∀ d : Lcid, d ≠ c → (endInstr c k s).core d = s.core d)
      ∧ endInstr c k s = { s with cores := (endInstr c k s).cores })

/-- R80: an instruction with a nonzero field that it does not use faults its core with RESERVED_FIELD, before any other check of it,
and one that names no register of its file with REG_RANGE. -/
def Obligations.ReservedFieldsFault : Prop :=
  (∀ c o s, validLcid c = true → issues s c 0x01 o = true → o.mod &&& 0x0FF ≠ 0 → exec (.add c o) s = .next (coreFault c 2 s))
  ∧ (∀ c o s, validLcid c = true → issues s c 0x42 o = true → o.b = 0 → o.mod = 0 → o.imm = 0 → (8 ≤ o.dst.toNat ∨ 8 ≤ o.a.toNat) →
      exec (.amov c o) s = .next (coreFault c 3 s))

/-- R84: DSET loads a descriptor; DMOD sets a field to sb or adds sb to it, keeping the other fields. R84: TCOPY, TZERO, ALOAD and
ASTORE complete where their tiles may be read and written. -/
def Obligations.DescriptorAndTileMoves : Prop :=
  (
    (∀ c o s, issued c 0x20 ⟨.d, .s, .no, 0, 0xFFFFFFFF, false⟩ o s = true → (s.core c).sbad o.a = false →
      let k := found c o s
      let a := benchAddr k o
      a % 16 = 0 → reachable k a 16 = true → k.dirty a 16 = false →
      exec (.dset c o) s = .next (endInstr c { k with d := Tab.set k.d o.dst.toNat (BitVec.ofNat 128 (leNat (Mem.read k.bench a 16))) }.step s))
    ∧ (∀ c o s, issued c 0x21 ⟨.d, .no, .s, 0x0F, 0, true⟩ o s = true → ((s.core c).opb o).2 = false → o.mod.toNat % 8 ≤ 4 →
      let k := found c o s
      let d := k.dreg o.dst
      let p : Nat × Nat := match o.mod.toNat % 8 with | 0 => (0, 22) | 1 => (76, 22) | 2 => (98, 22) | 3 => (48, 16) | _ => (32, 16)
      let v := if o.mod.getLsbD 3 then (d >>> p.1).setWidth 64 + (k.opb o).1 else (k.opb o).1
      exec (.dmod c o) s = .next (endInstr c { k with d := Tab.set k.d o.dst.toNat (setField d p.1 p.2 v) }.step s)))
  ∧ (
    Completes .tcopy 0x24 (fun _ => ⟨.d, .d, .no, 0, 0, false⟩) (fun _ o _ => bodyTcopy o)
    ∧ (∀ c o s, issued c 0x25 ⟨.d, .no, .no, 0, 0, false⟩ o s = true →
        let k := found c o s
        let d := tileD (k.dreg o.dst)
        passes (d.canWrite k) = true →
        exec (.tzero c o) s = .next (endInstr c (k.put ((d.touched false).flatMap fun r => runOf r.1 (List.replicate r.2 0) false)).step s))
    ∧ Completes .aload 0x26 (fun _ => ⟨.acc, .d, .no, 0, 0, false⟩) (fun _ o _ => bodyAload o)
    ∧ Completes .astore 0x27 (fun _ => ⟨.d, .acc, .no, 0, 0, false⟩) (fun _ o _ => bodyAstore o))

/-- R84, R86: AZERO clears an accumulator and sets its type, AMOV copies one with its type and poison, AADD adds two of one type
element by element, ASCALE multiplies an FP32 one by sb; MMA completes where its operands agree. -/
def Obligations.AccumulatorInstructions : Prop :=
  (∀ c o s, issued c 0x28 ⟨.acc, .no, .no, 1, 0, false⟩ o s = true →
    exec (.azero c o) s = .next (endInstr c ((found c o s).aset o.dst ⟨o.mod.getLsbD 0, false, []⟩).step s))
  ∧ (∀ c o s, issued c 0x42 ⟨.acc, .acc, .no, 0, 0, false⟩ o s = true →
    let k := found c o s
    exec (.amov c o) s = .next (endInstr c ((k.aset o.dst (k.areg o.a)).eat (k.areg o.a).poison).step s))
  ∧ (∀ c o s, issued c 0x41 ⟨.acc, .acc, .acc, 0, 0, false⟩ o s = true → ((s.core c).areg o.a).int = ((s.core c).areg o.b).int →
    let k := found c o s
    let x (n : Nat) : W32 := Tab.getD (k.areg o.a).elems n 0
    let y (n : Nat) : W32 := Tab.getD (k.areg o.b).elems n 0
    let r (n : Nat) : W32 × Fl := if (k.areg o.a).int then satInt 32 ((x n).toInt + (y n).toInt) else fadd (x n) (y n)
    let bad := (k.areg o.a).poison || (k.areg o.b).poison
    exec (.aadd c o) s = .next (endInstr c
      (((k.aset o.dst ⟨(k.areg o.a).int, bad, (List.range 512).map fun n => (n, (r n).1)⟩).orFlags
        ((List.range 512).foldl (fun f n => f ||| (r n).2) 0)).eat bad).step s))
  ∧ (∀ c o s, issued c 0x43 ⟨.acc, .acc, .s, 0, 0, false⟩ o s = true → ((s.core c).areg o.a).int = false →
    let k := found c o s
    let r (n : Nat) : W32 × Fl := fmul (Tab.getD (k.areg o.a).elems n 0) ((k.sreg o.b).setWidth 32)
    let bad := (k.areg o.a).poison || k.sbad o.b
    exec (.ascale c o) s = .next (endInstr c
      (((k.aset o.dst ⟨false, bad, (List.range 512).map fun n => (n, (r n).1)⟩).orFlags
        ((List.range 512).foldl (fun f n => f ||| (r n).2) 0)).eat bad).step s))
  ∧ Completes .mma 0x40 (fun _ => ⟨.acc, .d, .d, 3, 0, false⟩) (fun _ o _ => bodyMma o)

/-- R73: an element of an INT8 or INT4 product, of whole blocks of 32, takes the exact sum of each block in increasing block order,
saturating each time: the last block is added, with saturation, to the element as the blocks before it left it. -/
def Obligations.IntegerProductBlocks : Prop :=
  ∀ (k : CoreCtx) (a b : TileD) (skip : Nat → Bool) (i j n : Nat) (c : W32), b.rows = 32 * (n + 1) →
    let before := mmaElem k a { b with rows := 32 * n } 2 skip i j c
    b.sparse = 0 → b.stride ≠ 0 → (∀ q, skip q = false) →
    (mmaElem k a b 2 skip i j c).1
      = (satInt 32 (before.1.toInt + (List.range 32).foldl (fun v q =>
          v + codeInt a.fmt (a.code k i (32 * n + q)) * codeInt b.fmt (b.code k (32 * n + q) j)) 0)).1

/-- R88, R89: the vector instructions complete where their operands may be read, their shapes agree and their destination may be
written. -/
def Obligations.VectorInstructionsComplete : Prop :=
  let two (o : Op) : Shape := vShape o (if o.mod.getLsbD 7 then .acc else .d) 0x1C0
  Completes .vadd 0x60 two (fun _ o _ => vbinBody (fun x y => (val32 x).add (val32 y)) (some fun x y => x + y) o)
  ∧ Completes .vsub 0x61 two (fun _ o _ => vbinBody (fun x y => (val32 x).add (val32 y).neg) (some fun x y => x - y) o)
  ∧ Completes .vmul 0x62 two (fun _ o _ => vbinBody (fun x y => (val32 x).mul (val32 y)) none o)
  ∧ Completes .vfma 0x63 two (fun _ o _ => bodyVfma o)
  ∧ Completes .vmax 0x64 two (fun _ o _ => vbinBody (fun x y => (val32 (fmax x y), 0)) (some fun x y => max x y) o)
  ∧ Completes .vmin 0x65 two (fun _ o _ => vbinBody (fun x y => (val32 (fmin x y), 0)) (some fun x y => min x y) o)
  ∧ Completes .vscale 0x66 (fun o => vShape o .s 0x140) (fun _ o _ => vscalBody (fun x y => (val32 x).mul (val32 y)) o)
  ∧ Completes .vadds 0x67 (fun o => vShape o .s 0x140) (fun _ o _ => vscalBody (fun x y => (val32 x).add (val32 y)) o)
  ∧ Completes .vfunc 0x68 (fun o => vShape o .no 0x14F) (fun _ o _ => bodyVfunc o)
  ∧ Completes .vrsum 0x69 (fun o => ⟨.d, if o.mod.getLsbD 8 then .acc else .d, .no, 0x100, 0, false⟩) (fun _ o _ => vreduceBody fadd o)
  ∧ Completes .vrmax 0x6A (fun o => ⟨.d, if o.mod.getLsbD 8 then .acc else .d, .no, 0x100, 0, false⟩)
      (fun _ o _ => vreduceBody (fun x y => (fmax x y, 0)) o)
  ∧ Completes .vbadd 0x6B (fun o => vShape o .d 0x140) (fun _ o _ => vbcastBody true (fun x y => (val32 x).add (val32 y)) o)
  ∧ Completes .vbmul 0x6C (fun o => vShape o .d 0x140) (fun _ o _ => vbcastBody true (fun x y => (val32 x).mul (val32 y)) o)
  ∧ Completes .vcmul 0x6D (fun o => vShape o .d 0x140) (fun _ o _ => vbcastBody false (fun x y => (val32 x).mul (val32 y)) o)

/-- R60, R84, R117, R137: slice transfers start where they may, TCOUNT gives INPUT_COUNT, and the oldest transfer of a core completes
once its pieces have issued and every line has come. R60: TIN of an ordinal at or above INPUT_COUNT writes no memory and gives all
ones. That a poisoned ordinal does not pass is the model's reading (log 25). -/
def Obligations.SliceTransfersComplete : Prop :=
  (
    CompletesWith .tload 0x22 (fun _ => ⟨.s, .s, .s, 1, 0, false⟩) bodyTload
    ∧ CompletesWith .tstore 0x23 (fun _ => ⟨.s, .s, .s, 0, 0, false⟩) bodyTstore
    ∧ CompletesWith .sld 0x29 (fun _ => ⟨.s, .s, .no, 0, 0xFFFFFFFF, false⟩) bodySld
    ∧ (∀ c o s, issued c 0xC0 ⟨.s, .no, .no, 0, 0, false⟩ o s = true →
        let k := found c o s
        exec (.tcount c o) s = .next (endInstr c (k.sset o.dst (BitVec.ofNat 64 (Tab.getD s.work.inputs k.slot []).length) false).step s))
    ∧ CompletesWith .tin 0xC1 (fun _ => ⟨.s, .s, .s, 0, 0, false⟩) (fun _ => bodyTin)
    ∧ (∀ c s x l, validLcid c = true → (s.core c).xfers = x :: l → s.seqr.phase = .executing → x.todo = [] → x.away = 0 →
        exec (.sliceTransferDone c) s = .next (finishXfer c x s)))
  ∧ (
    ∀ c o s, issued c 0xC1 ⟨.s, .s, .s, 0, 0, false⟩ o s = true → (s.core c).sbad o.a = false → (s.core c).sbad o.b = false →
      ((s.core c).sreg o.a).toNat % 64 = 0 → (s.inputsOf (s.core c).slot).length ≤ ((s.core c).sreg o.b).toNat % 2 ^ 32 →
      exec (.tin c o) s = .next (endInstr c ((found c o s).sset o.dst (BitVec.allOnes 64) false).step s))

/-- R95-R110: the routing instructions complete where their contexts, lists and tiles are in order. R193-R202: the scoring
instructions complete where their contexts, sequences and partials are in order. -/
def Obligations.RoutingAndScoringComplete : Prop :=
  (
    Completes .rcfg 0x90 (fun _ => ⟨.no, .s, .s, 3, 0xFFFFFFFF, false⟩) bodyRcfg
    ∧ CompletesWith .rgate 0x91 (fun _ => ⟨.s, .d, .no, 3, 0, false⟩) bodyRgate
    ∧ CompletesWith .rsend 0x92 (fun _ => ⟨.no, .d, .no, 7, 0, false⟩) bodyRsend
    ∧ Completes .rrecv 0x93 (fun _ => ⟨.ds, .s, .no, 0, 0, false⟩) (fun _ => bodyRrecv)
    ∧ CompletesWith .rret 0x94 (fun _ => ⟨.no, .ds, .no, 0, 0, false⟩) bodyRret
    ∧ Completes .rcomb 0x95 (fun _ => ⟨.d, .d, .d, 3, 0, false⟩) (fun _ o _ => bodyRcomb o)
    ∧ CompletesWith .rexit 0x96 (fun _ => ⟨.s, .d, .s, 0, 0, false⟩) (fun _ => bodyRexit)
    ∧ Completes .rcompact 0x97 (fun _ => ⟨.ds, .d, .s, 0, 0xFFFFFFFF, false⟩) (fun _ o _ => bodyRcompact o)
    ∧ Completes .rstat 0x98 (fun _ => ⟨.s, .no, .no, 3, 7, false⟩) (fun _ o _ => bodyRstat o))
  ∧ (
    Completes .scfg 0x80 (fun _ => ⟨.no, .s, .no, 3, 0, false⟩) (fun _ => bodyScfg)
    ∧ CompletesWith .swalk 0x81 (fun _ => ⟨.s, .s, .no, 3, 0, false⟩) bodySwalk
    ∧ CompletesWith .sappend 0x82 (fun _ => ⟨.s, .s, .no, 3, 0, false⟩) bodySappend
    ∧ Completes .smerge 0x83 (fun _ => ⟨.no, .s, .s, 4, 0, false⟩) (fun _ o _ => bodySmerge o)
    ∧ Completes .snorm 0x84 (fun _ => ⟨.d, .s, .no, 4, 0, false⟩) (fun _ o _ => bodySnorm o)
    ∧ Completes .slen 0x85 (fun _ => ⟨.s, .s, .no, 0, 15, false⟩) (fun _ => bodySlen)
    ∧ Completes .sstat 0x86 (fun _ => ⟨.s, .no, .no, 0, 7, false⟩) (fun _ o _ => bodySstat o))

/-! ## Crumb programs -/

/-- R149-R151: CVEC, CISSUE, FENCE.CRUMB and CSTAT complete where no crumb program of the core has broken a rule. R150, R155, R156:
the next program of a unit starts with its parameters in q0-q7 and its flags clear, and waits where it finds no slot; pending units of
a slice take free slots in layer order from layer (5 · tick) mod 12. -/
def Obligations.CrumbClassCompletes : Prop :=
  (
    CompletesWith .cvec 0xB0 (fun _ => ⟨.s, .s, .s, 0, 0xFFFFFFFF, false⟩) bodyCvec
    ∧ CompletesWith .cissue 0xB1 (fun _ => ⟨.s, .s, .s, 0, 0xFFFF003F, false⟩) bodyCissue
    ∧ (∀ c o s k, issued c 0xB2 ⟨.no, .no, .no, 0, 0, false⟩ o s = true → (s.core c).crumbFault = none →
        bodyFenceCrumb (found c o s) = .ok k → exec (.fenceCrumb c o) s = .next (endInstr c k.step s))
    ∧ Completes .cstat 0xB3 (fun _ => ⟨.s, .no, .no, 0, 0, false⟩) (fun _ o _ => bodyCstat o))
  ∧ (
    (∀ u s c j, validUnit u = true → s.jobWhere u (fun x => !x.ended) = some (c, j) → j.started = false → s.seqr.phase = .executing →
      ((s.core c).outbound.any fun x => x.kind == 7 && decide (x.xfer % 4 ≠ 2) && decide (x.id ≤ j.order)
        && (BitVec.ofNat 48 x.group).getLsbD u.bank) = false →
      s.sliceDead u.slice = false →
      let v : CrumbUnit := { s.crumbAt u with
        q := (List.range 8).map fun i => (i, j.params.getD i 0), pc := j.start, flags := 0, loop := none, running := true,
        waiting := !s.slotFree u }
      v.fetchBad = false →
      exec (.crumbProgramStart u) s = .next ((modJob c j (fun x => { x with started := true }) s).setCrumb u v))
    ∧ (∀ n s, validSite n = true →
      exec (.crumbGrant n) s = .next ((s.pendingBanks n (5 * s.seqr.tick % 12)).foldl
        (fun t b => if t.slotFree ⟨n, b⟩ then t.setCrumb ⟨n, b⟩ { t.crumbAt ⟨n, b⟩ with waiting := false } else t) s)))

/-- R146, R159: the other instructions of a crumb program complete where its rules hold; END ends the program and gives up the slot.
R145, R146: the register instructions of a crumb program: LDI, ADDI, ADD and SUB of 32-bit registers. Corners of the crumb rules are
the model's readings (log 84). -/
def Obligations.CrumbProgramInstructions : Prop :=
  (
    (∀ u o s c j, crumbIssued u 0x00 false false false 0 o s = true → inProgress u s = some (c, j) →
        exec (.endProgram u o) s = .next (crumbDone u c j (s.crumbAt u).stop 1
          (modJob c j (fun x => { x with ended := true, flags := (s.crumbAt u).flags }) s)))
    ∧ (∀ u o s c j v, crumbIssued u 0x05 false true true 0xF o s = true → inProgress u s = some (c, j) →
        bodyFmt o (s.crumbAt u) = .ok v → exec (.fmt u o) s = .next (crumbDone u c j v.next 1 s))
    ∧ CrumbCompletesWith .mv 0x06 true true true 1 bodyMv
    ∧ CrumbCompletesWith .clra 0x07 false true true 1 (fun _ => bodyClra)
    ∧ CrumbCompletesWith .retv 0x08 true true true 1 bodyRetv
    ∧ CrumbCompletesWith .stv 0x09 true true true 0 bodyStv
    ∧ CrumbCompletesWith .crumbLoop 0x0A false true false 0xF (fun _ => bodyCrumbLoop))
  ∧ (
    CrumbCompletes .ldi 0x01 true false false 0x1FFFF (fun o v => v.setReg o.qd (o.imm.setWidth 32))
    ∧ CrumbCompletes .addi 0x02 true true false 0x1FFFF (fun o v => v.setReg o.qd (v.reg o.qa + o.imm.signExtend 32))
    ∧ CrumbCompletes .crumbAdd 0x03 true true true 0 (fun o v => v.setReg o.qd (v.reg o.qa + v.reg o.qb))
    ∧ CrumbCompletes .crumbSub 0x04 true true true 0 (fun o v => v.setReg o.qd (v.reg o.qa - v.reg o.qb)))

/-! ## Network: instructions, flits and frames -/

/-- R250-R252, R262: the network instructions complete where their windows, groups and streams are in order; NSTAT gives a count.
R250: NSYNC waits until no transfer of the core is out, gives their first status, and forgets it. -/
def Obligations.NetworkInstructionsComplete : Prop :=
  (
    CompletesWith .nput 0xA0 (fun _ => ⟨.s, .s, .s, 0, 0x3F, false⟩) bodyNput
    ∧ CompletesWith .mcast 0xA1 (fun _ => ⟨.s, .s, .s, 0, 0xFF, false⟩) bodyMcast
    ∧ CompletesWith .fold 0xA2 (fun _ => ⟨.no, .s, .s, 0, 0xFF, false⟩) bodyFold
    ∧ CompletesWith .stsend 0xA5 (fun _ => ⟨.s, .s, .s, 0, 0x3F07, false⟩) bodyStsend
    ∧ (∀ c o s, issued c 0xA6 ⟨.s, .no, .no, 0, 7, false⟩ o s = true → o.imm.toNat ≤ 5 →
        let k := found c o s
        exec (.nstat c o) s = .next (endInstr c (k.sset o.dst (BitVec.ofNat 64 (Tab.getD k.netCounts o.imm.toNat 0)) false).step s)))
  ∧ (
    (∀ c o s, issued c 0xA4 ⟨.s, .no, .no, 0, 0, false⟩ o s = true → (s.core c).netFault = false → (s.core c).netOut = [] →
      let k := found c o s
      exec (.nsync c o) s = .next (endInstr c
        ({ k with syncStatus := .ok, outbound := k.outbound.filter fun x => !x.done }.sset o.dst (BitVec.ofNat 64 k.syncStatus.code) false).step s))
    ∧ (∀ c o s, issued c 0xA4 ⟨.s, .no, .no, 0, 0, false⟩ o s = true → (s.core c).netFault = false → (s.core c).netOut ≠ [] →
      exec (.nsync c o) s = .next s))

/-- R251: what NWAIT writes to sd once the window has completed, and that the window is then retired. -/
def Obligations.NwaitResult : Prop :=
  ∀ c o s w, issued c 0xA3 ⟨.s, .no, .no, 0, 0x3F, false⟩ o s = true → (s.core c).win o.imm.toNat = some w →
    w.retired = false → w.complete = true → w.conflict = false →
    let k := found c o s
    let poison := w.landed.any fun l => l.2.2.2.2
    let st := Status.first w.status (if poison then .poison else .ok)
    let v := st.code + (if w.missing = [] then 0 else 256) + 65536 * w.missing.length
    exec (.nwait c o) s
      = .next (endInstr c (((k.modWin w.xfer fun x => { x with retired := true }).orFlags w.flags).sset o.dst (BitVec.ofNat 64 v) false).step s)

/-- R241, R242, R248: a transfer that every destination has answered completes, its status folded into what NSYNC gives; a multicast
with members that lack flits is abandoned with LIMIT, a fault in the tick; a window completes when its lines have landed. Corners of
windows are the model's readings (log 77). -/
def Obligations.NetworkCompletion : Prop :=
  (∀ c n s x, validLcid c = true → s.netOf c n = some x → x.kind.toNat ≤ 5 → x.done = false → netReady s c x = true →
    exec (.networkTransferDone c n) s = .next (completeNet c x s))
  ∧ (∀ c n s x, validLcid c = true → s.netOf c n = some x → x.kind = 4 → x.done = false →
      ((List.range x.dests.length).any fun d => !x.reported.contains d && !x.missing.contains d) = true →
      let t := notifyLacking c n x ((List.range x.dests.length).filter fun d => !x.reported.contains d && !x.missing.contains d) s
      ∀ y, t.netOf c n = some y →
        exec (.mcastAbandon c n) s = .next (if y.status = .limit then failAttempt (devInc (.mcastLimit (lcStack c)) 1 (completeNet c y t))
          else completeNet c y t))
  ∧ (∀ c n s w, validLcid c = true → (s.core c).win n = some w → w.complete = false → w.landed.length = w.lines →
      lostSources s w = [] → exec (.windowComplete c n) s = .next (s.setCore c ((s.core c).modWin n winLanded)))
  ∧ (∀ c n s w, validLcid c = true → (s.core c).win n = some w → w.complete = false → w.landed.length ≠ w.lines →
      lostSources s w ≠ [] → exec (.windowComplete c n) s = .next (winLost c w (lostSources s w) s))

/-- R235, R236, R241, R242, R263: what the arrival of a flit without a CRC mismatch does, of every kind but FOLD and CREDIT, at the
die it is bound for. R104-R106: with the last flit of a row message the whole message lands at the core it is bound for. R243-R248: a
fold flit at the root of its group lands in the root's window; at a node it waits for its partner, or goes on without one that is
missing; a credit lets its sender's next flits go. -/
def Obligations.FlitArrivals : Prop :=
  (
    (∀ f s, arrived 0 f s = true → leaving f = false → s.noSlice f = false →
        exec (.flitReadReq f []) s = .next { flitTaken f s with flits := (flitTaken f s).flits ++ readData (flitTaken f s) f })
    ∧ (∀ f s, arrived 1 f s = true → leaving f = false →
        exec (.flitReadData f []) s
          = .next (modXfer (BitVec.ofNat 16 f.node.1) f.node.2 (fun x => { x with away := x.away - 1 }) (flitTaken f s)))
    ∧ (∀ f s, arrived 2 f s = true → leaving f = false → s.noSlice f = false →
        exec (.flitWrite f []) s
          = .next (modXfer (BitVec.ofNat 16 f.node.1) f.node.2 (fun x => { x with away := x.away - 1 }) (flitTaken f s)))
    ∧ (∀ f s m, arrived 3 f s = true → leaving f = false → s.siteDown f = false → s.memberAt f = some m →
        exec (.flitPut f []) s = .next (tookFlit f (landIn m f (plainPlace f) (flitTaken f s))))
    ∧ (∀ f s m x, arrived 4 f s = true → leaving f = false → s.siteDown f = false → s.memberAt f = some m →
        s.netOf (BitVec.ofNat 16 f.node.1) f.node.2 = some x →
        exec (.flitMcast f [] false) s
          = .next (tookFlit f (landIn m { f with group := BitVec.ofNat 8 x.xfer }
              (plainPlace { f with group := BitVec.ofNat 8 x.xfer }) (flitTaken f s))))
    ∧ (∀ f s m, arrived 4 f s = true → leaving f = false → s.siteDown f = false → s.memberAt f = some m →
        exec (.flitMcast f [] true) s = .next (sendCtl (answerFlit (flitTaken f s) f 8 .busy) (flitTaken f s)))
    ∧ (∀ f s m, arrived 6 f s = true → leaving f = false → s.siteDown f = false → s.memberAt f = some m → f.last = false →
        let t := flitTaken f s
        exec (.flitRoute f []) s = .next (tookFlit f (t.setCore m { t.core m with part := (t.core m).part ++ [f] })))
    ∧ (∀ f s x, arrived 7 f s = true → s.netOf (BitVec.ofNat 16 f.node.1) f.node.2 = some x → s.noSlice f = false → x.xfer % 4 = 0 →
        exec (.flitCrumb f []) s
          = .next (tookFlit f (putVec (256 * f.stack + f.dest.toNat) (maskBanks (BitVec.ofNat 48 x.group)) (x.xfer / 4 + f.offset.toNat)
              (f.payload.map fun b => (b, f.poison)) (flitTaken f s))))
    ∧ (∀ f s, arrived 8 f s = true → leaving f = false → exec (.flitNack f []) s = .next (nackArrives f (flitTaken f s)))
    ∧ (∀ f s, arrived 9 f s = true → leaving f = false →
        exec (.flitComplete f []) s = .next (settle (BitVec.ofNat 16 f.node.1) f.node.2 (reportDone f (flitTaken f s))))
    ∧ (∀ f s, arrived 0xB f s = true → f.sys = true → exec (.flitCtrl f []) s = .next (flushStack f.stack (flitTaken f s))))
  ∧ (
    ∀ f s m, arrived 6 f s = true → leaving f = false → s.siteDown f = false → s.memberAt f = some m → f.last = true →
      let t := flitTaken f s
      let mine (h : NetFlit) : Bool := h.node == f.node && h.kind == 6
      let k := t.core m
      let back := match s.netOf (BitVec.ofNat 16 f.node.1) f.node.2 with | some x => x.xfer == 1 | none => false
      exec (.flitRoute f []) s
        = .next (tookFlit f (rowLands m back (k.part.filter mine ++ [f]) (t.setCore m { k with part := k.part.filter fun h => !mine h }))))
  ∧ (
    (∀ f s p g, arrived 5 f s = true → s.planAt (f.node.1 / 256) = some p → (p.groups.find? fun x => x.group == f.group.toNat) = some g →
      foldLive g.members.length (f.node.1 % 256) ≤ 1 → s.siteDown f = false →
      exec (.flitFold f []) s
        = .next (landIn g.root { f with group := BitVec.ofNat 8 g.xfer } (foldPlace g f) (flitTaken f s)))
    ∧ (∀ f s p g, arrived 5 f s = true → s.planAt (f.node.1 / 256) = some p → (p.groups.find? fun x => x.group == f.group.toNat) = some g →
      1 < foldLive g.members.length (f.node.1 % 256) → s.subtreeGone g (f.node.1 % 256) f.node.2 = false →
      let t := flitTaken f s
      exec (.flitFold f []) s
        = .next (tryNode (f.node.1 / 256) f.stack (f.node.1 % 256) (f.node.2 / 2) g { t with foldBuf := t.foldBuf ++ [f] }))
    ∧ (∀ f s p g m x, arrived 0xA f s = true → s.planAt (f.node.1 / 256) = some p →
      (p.groups.find? fun x => x.group == f.group.toNat) = some g →
      (g.members.findSome? fun m => ((s.core m).outbound.find? fun x => x.kind == 5 && x.group == g.group
        && (match x.unsent with | h :: _ => h.node == f.node | [] => false)).map fun x => (m, x)) = some (m, x) →
      exec (.flitCredit f []) s
        = .next (modNet m x.id (fun y => { y with unsent := (sendFold m g x.unsent (flitTaken f s)).2 }) (sendFold m g x.unsent (flitTaken f s)).1)))

/-- R237: a flit whose CRC two routers of its path find wrong is discarded, counted, and a fault in the tick at the second, whatever its
kind; one mismatch is only replayed and counted. R236: a reserved TYPE is discarded and counted. R257: the first CRC mismatch of a frame
is counted and answered with REPLAY_REQ, the frame kept; the second is a fault in the tick at its engine. -/
def Obligations.CrcMismatches : Prop :=
  (
    ∀ f bad q r rest s, (bad.filter fun n => (s.pathOf f).contains n) = q :: r :: rest → validStack f.stack = true → s.flitFirst f = true →
      let t := reportFault (routerSite f.stack r)
        (devInc (.crcFail f.stack) 1 (devInc (.crcReplay f.stack) 1 { s with flits := s.flits.erase f }))
      (f.kind = 0 → exec (.flitReadReq f bad) s = .next t) ∧ (f.kind = 1 → exec (.flitReadData f bad) s = .next t)
      ∧ (f.kind = 2 → exec (.flitWrite f bad) s = .next t) ∧ (f.kind = 3 → exec (.flitPut f bad) s = .next t)
      ∧ (f.kind = 4 → ∀ full, exec (.flitMcast f bad full) s = .next t) ∧ (f.kind = 5 → exec (.flitFold f bad) s = .next t)
      ∧ (f.kind = 6 → exec (.flitRoute f bad) s = .next t) ∧ (f.kind = 7 → exec (.flitCrumb f bad) s = .next t)
      ∧ (f.kind = 8 → exec (.flitNack f bad) s = .next t) ∧ (f.kind = 9 → exec (.flitComplete f bad) s = .next t)
      ∧ (f.kind = 0xA → exec (.flitCredit f bad) s = .next t) ∧ (f.kind = 0xB → exec (.flitCtrl f bad) s = .next t))
  ∧ (
    (∀ f bad q s, (bad.filter fun n => (s.pathOf f).contains n) = [q] → arrived 9 f s = true → leaving f = false →
      let t := incP (.flits f.stack) (s.forwards f) (devInc (.crcReplay f.stack) 1 { s with flits := s.flits.erase f })
      exec (.flitComplete f bad) s = .next (settle (BitVec.ofNat 16 f.node.1) f.node.2 (reportDone f t)))
    ∧ (∀ f bad s, validStack f.stack = true → s.flitFirst f = true → 0xC ≤ f.kind.toNat →
      exec (.flitPut f bad) s = .next (devInc (.crcFail f.stack) 1 { s with flits := s.flits.erase f })))
  ∧ (
    ∀ f bad s, 0 < bad → validStack f.src = true → validStack f.dst = true → f.kind = 1 → s.frameFirst f = true →
      (f.tries = 0 → exec (.frameData f bad) s = .next (answerFrame f 4 f.flit (devInc (.frameReplay f.src) 1
          { s with frames := s.frames.map fun g => if g = f then { f with tries := 1, held := true } else g })))
      ∧ (f.tries ≠ 0 → exec (.frameData f bad) s
          = .next (reportFault (engineSite s f) (devInc (.frameFail f.src) 1 { s with frames := s.frames.erase f }))))

/-- R257, R258, R262, R263, R270: what the arrival of a frame without a CRC mismatch does, and that a stack that is gone refuses it. R257:
an IDLE frame changes nothing; its first CRC mismatch is counted, its second a fault at its stack, which site is the model's reading
(log 77). -/
def Obligations.FrameArrivals : Prop :=
  (∀ f s, frameIn 0 f s = true → s.refusing f.dst = false → f.flit.kind = 0 →
      let t : State := { s with frames := s.frames.erase f }
      exec (.frameDescriptor f 0) s = .next { t with flits := t.flits ++ farFlits t f })
  ∧ (∀ f s, frameIn 0 f s = true → s.refusing f.dst = false → f.flit.kind ≠ 0 →
      exec (.frameDescriptor f 0) s = .next { s with frames := s.frames.erase f })
  ∧ (∀ f s, frameIn 0 f s = true → s.refusing f.dst = true →
      exec (.frameDescriptor f 0) s = .next (frameRefused f { s with frames := s.frames.erase f }))
  ∧ (∀ f s, frameIn 1 f s = true → s.refusing f.dst = false →
      let t := answerFrame f 3 { f.flit with payload := [] } { s with frames := s.frames.erase f }
      exec (.frameData f 0) s = .next { t with flits := t.flits ++ farFlits t f })
  ∧ (∀ f s, frameIn 2 f s = true →
      let t : State := { s with frames := s.frames.erase f }
      exec (.frameComplete f 0) s = .next (if f.flit.kind = 8 then nackArrives f.flit t
        else settle (BitVec.ofNat 16 f.flit.node.1) f.flit.node.2 (reportDone f.flit t)))
  ∧ (∀ f s, frameIn 3 f s = true →
      let t : State := { s with frames := s.frames.erase f }
      let key := edgeKey f.dst ⟨f.src, f.peer.toNat, f.engine.toNat⟩
      exec (.frameCredit f 0) s = .next { t with edgeCredits := Tab.set t.edgeCredits key (Tab.getD t.edgeCredits key 0 - 1) })
  ∧ (∀ f s, frameIn 4 f s = true →
      exec (.frameReplayReq f 0) s = .next { s with frames := (s.frames.erase f).map fun g =>
        if g.src = f.dst ∧ g.dst = f.src ∧ g.engine = f.peer then { g with held := false } else g })
  ∧ (∀ f s bad, validStack f.src = true → f.kind = 5 →
      (bad = 0 → exec (.frameIdle f bad) s = .next s)
      ∧ (bad = 1 → exec (.frameIdle f bad) s = .next (devInc (.frameReplay f.src) 1 s))
      ∧ (2 ≤ bad → exec (.frameIdle f bad) s
          = .next (reportFault ⟨f.src, 0x07, .ioDie, 0, 6⟩ (devInc (.frameFail f.src) 1 (devInc (.frameReplay f.src) 1 s)))))

/-! ## Ticks, reports and recovery -/

/-- R29, R31, R32, R446: when each boundary is taken, and what a missed, an early and a lost edge leave. The moment a new source acts
and the flywheel's rounding are the model's readings (logs 15 and 80). -/
def Obligations.TickBoundaries : Prop :=
  (∀ e s, s.ticking = true → s.seqr.external = false → s.seqr.awaitEdge = false → s.seqr.flywheelRun < 16 →
    exec (.internalBoundary e) s = .next (takeBoundary s.seqr.placed false e s))
  ∧ (∀ dt high e s, s.ticking = true → (s.seqr.external = true ∨ s.seqr.awaitEdge = true) → s.seqr.flywheelRun < 16 → 16 ≤ high →
    (50 * dt < 49 * s.seqr.placed → exec (.tickInEdge dt high e) s = .next (devInc .earlyEdge 1 s))
    ∧ (49 * s.seqr.placed ≤ 50 * dt → 50 * dt ≤ (if s.seqr.awaitEdge then 101 * s.seqr.placed else 51 * s.seqr.placed) →
        exec (.tickInEdge dt high e) s = .next (takeBoundary dt false e { s with seqr := { s.seqr with flywheelRun := 0 } })))
  ∧ (∀ e s, s.ticking = true → s.seqr.external = true → s.seqr.awaitEdge = false → s.seqr.flywheelRun < 16 →
    exec (.flywheelBoundary e) s
      = .next (takeBoundary (51 * s.seqr.placed / 50) true e
          (let t := if s.seqr.flywheelRun = 0 then post (event .tickEdgeMissed none []) (devInc .missedEdge 1 s) else devInc .missedEdge 1 s
           { t with seqr := { t.seqr with flywheelRun := s.seqr.flywheelRun + 1 } })))
  ∧ (∀ e s, s.ticking = true → s.seqr.awaitEdge = true → s.seqr.flywheelRun < 16 →
    exec (.flywheelBoundary e) s
      = .next (takeBoundary (101 * s.seqr.placed / 50) true e
          (let t := devInc .missedEdge 1 s
           { t with seqr := { t.seqr with sourcePend := none, awaitEdge := false, flywheelRun := 16 } })))
  ∧ (∀ s, 16 ≤ s.seqr.flywheelRun →
    exec .tickSourceLost s = .next (post (event .tickSourceLost none [])
      { s with seqr := { s.seqr with sourceLost := true, external := false, awaitEdge := false, sourcePend := none, flywheelRun := 0 } }))

/-- R29, R33: every boundary taken advances the tick counter by one, pulses TICK_OUT once, and moves the time on by what has passed. -/
def Obligations.BoundaryCounts : Prop :=
  ∀ dt fly e s, (takeBoundary dt fly e s).seqr.count = s.seqr.count + 1 ∧ (takeBoundary dt fly e s).seqr.tickOut = s.seqr.tickOut + 1
    ∧ (takeBoundary dt fly e s).seqr.time = s.seqr.time + dt

/-- R35, R82: a halted core reports once its transfers have completed; a stack reports once its cores have, and with the last stack
the tick has completed. R210-R213, R215: HALT of a core with an evidence section makes the records of its window, which are kept while
capture is on. The order of the checks of capture is the model's reading (log 31). -/
def Obligations.CompletionReports : Prop :=
  (
    (∀ c s, validLcid c = true → s.seqr.phase = .executing → (s.core c).run = .halting → (s.core c).drained = true →
      (s.core c).crumbFault = none → (s.core c).netFault = false →
      exec (.coreCompletionReport c) s = .next (s.setCore c { s.core c with run := .halted, reported := true }))
    ∧ (∀ n s, validStack n = true → s.seqr.phase = .executing → s.seqr.boundaries < 4 → n ∈ s.online → n ∉ s.work.reported →
      s.stackDone n = true →
      ∃ t, exec (.collectionReport n) s = .next t ∧ t.work.reported = n :: s.work.reported
        ∧ (t.seqr.phase = .completed ↔ ∀ m ∈ s.online, m = n ∨ m ∈ s.work.reported))
    ∧ (∀ c o s, issued c 0x14 ⟨.no, .no, .no, 0, 0, false⟩ o s = true → (s.core c).crumbFault = none → (s.core c).netFault = false →
      s.evdOf c = none →
      exec (.halt c o) s = .next (endInstr c { found c o s with run := .halting } s)))
  ∧ (
    ∀ c o s e l p, issued c 0x14 ⟨.no, .no, .no, 0, 0, false⟩ o s = true → (s.core c).crumbFault = none → (s.core c).netFault = false →
      s.evdOf c = some e → captureAll c (found c o s) s.tickCsr e = .ok l → s.planAt (s.core c).slot = some p →
      exec (.halt c o) s = .next (endInstr c { found c o s with run := .halting }
        { s with work := { s.work with records := s.work.records ++ (if p.capture then l else []) } }))

/-- R48, R297, R301: an attempt is abandoned at its fourth boundary; a check's report is a fault in the tick; a spare shift is made
between attempts, and a patrol failure after it is a lasting fault. The check of a fault is the model's reading (log 24). -/
def Obligations.FaultsAndShifts : Prop :=
  (∀ s, s.seqr.phase = .executing → 4 ≤ s.seqr.boundaries →
    ∃ t, exec .attemptAbandon s = .next t ∧ t.seqr.phase = .rerun ∧ t.seqr.attempt = s.seqr.attempt + 1
      ∧ t.seqr.abandoned = s.seqr.attempt)
  ∧ (∀ f s, validFault f = true → exec (.faultReport f) s = .next (reportFault f s))
  ∧ (∀ s j, s.seqr.shift = some j → s.seqr.phase ≠ .executing → s.power.coolantStop = false →
    exec (.spareShift none) s = .next (shiftRow j s)
    ∧ ∀ col, exec (.spareShift (some col)) s = .next
        (if j.col < col ∧ ((shiftRow j s).servedAt (256 * j.stack + 16 * j.row + col)).isSome then
          patrolFailed (s.lastPassOf ⟨j.stack, 16 * j.row + col, .core, 0, 5⟩) ⟨j.stack, 16 * j.row + col, .core, 0, 5⟩ (shiftRow j s)
        else shiftRow j s))

/-- R49, R299: a failed attempt discards the tick's staged stores and new pages, keeps its inputs, and the tick runs again with
ATTEMPT one higher; a failed eighth attempt suspends every admitted plan and drains with cause ATTEMPTS. What a rerun keeps is the
model's reading of R49 (log 32). -/
def Obligations.FailedAttempt : Prop :=
  ∀ s, (failAttempt s).seqr.phase = .rerun ∧ (failAttempt s).seqr.attempt = s.seqr.attempt + 1
    ∧ (failAttempt s).work.staged = [] ∧ (failAttempt s).work.newPages = [] ∧ (failAttempt s).work.records = []
    ∧ (failAttempt s).work.inputs = s.work.inputs ∧ (failAttempt s).dram = s.dram ∧ (failAttempt s).seqs = s.seqs
    ∧ (s.seqr.attempt = 8 →
        (∀ p ∈ s.admitted, p.1 ∈ (failAttempt s).seqr.leftOut ∧ ∃ q ∈ (failAttempt s).seqr.suspend, q.1 = p.1)
        ∧ (8, 0, true) ∈ (failAttempt s).drainPend)

/-! ## The floor plan, addresses and counters -/

/-- R19, R20: on a row as it is built, whatever single failures follow, no two logical cores are served by one physical site, and none
by a hole or a field-failed site. -/
def Obligations.ServingIsInjective : Prop :=
  ∀ (r : FpRow) (ks : List Nat), r.shifted = false → (∀ k ∈ ks, k < 16) →
    let t := ks.foldl (fun q k => if q.site k = 0 then (q.fail k).1 else q) r
    (∀ i j p, i < 15 → j < 15 → t.physCol i = some p → t.physCol j = some p → i = j)
    ∧ (∀ i p, i < 15 → t.physCol i = some p → p < 16 ∧ t.site p ≠ 1 ∧ t.site p ≠ 2)

/-- R115: two private offsets of a slice never share storage, and each lies in one of its private banks. R134: two global addresses
never share storage, each lies in a global bank of a user slice. -/
def Obligations.StorageIsDistinct : Prop :=
  (
    ∀ n a b, n ≤ 6 → a < privateSize n → b < privateSize n →
      (privLoc n a = privLoc n b → a = b) ∧ privLoc n a / 0x400000 ∈ privateBanks n)
  ∧ (
    ∀ n a b, 1 ≤ n → n ≤ 6 → a < globalSize n → b < globalSize n →
      (globLoc n a = globLoc n b → a = b)
      ∧ (globLoc n a).2 / 0x400000 ∈ globalBanks n ∧ (globLoc n a).1 / 256 < 20 ∧ (globLoc n a).1 % 16 < 15)

/-- R6: a 32-bit counter counts exactly until it would pass 0xFFFF_FFFF; there it stops and its overflow bit is set, and it never
counts down. -/
def Obligations.CountersSaturate : Prop :=
  ∀ (v : CtrVal) (n : Nat),
    (v.val.toNat + n ≤ 0xFFFFFFFF → (v.bump n).val.toNat = v.val.toNat + n ∧ (v.bump n).ovf = v.ovf)
    ∧ (0xFFFFFFFF < v.val.toNat + n → (v.bump n).val = 0xFFFFFFFF ∧ (v.bump n).ovf = true)

/-! ## Links -/

/-- R266, R267, R268, R269: what the events of stacks, lanes and lasers do. R269: isolating a stack marks it isolated with its
trigger, once: a stack already isolated keeps the first. When a deaf stack returns, and what an idle failing lane leaves, are the
model's readings (logs 86 and 96). -/
def Obligations.StackAndLaneEvents : Prop :=
  (
    (∀ n s, validStack n = true → s.stackUp n = true → (s.stackAt n).inReset = false →
      exec (.bundleFrameTimeout n) s = .next ((isolate n 1 s).setStack n { (isolate n 1 s).stackAt n with inReset := true }))
    ∧ (∀ n s, validStack n = true → s.stackUp n = true →
      ∃ t, exec (.ioDieFrameTimeout n) s = .next t ∧ (t.stackAt n).deaf = true ∧ t.seqr = s.seqr ∧ t.dram = s.dram
        ∧ ∀ e ∈ t.cores, e.1 / 256 = n → e.2.run = .idle ∨ e.2.run = .stopped 0)
    ∧ (∀ n s, validStack n = true → s.stackUp n = true →
      exec (.stackReset n) s = .next ((isolate n 2 s).setStack n { (isolate n 2 s).stackAt n with inReset := true }))
    ∧ (∀ n r s, validStack n = true → (s.stackAt n).inReset = true → s.stackUp n = true →
      exec (.stackResetRelease n r) s = .next ((retest n r s).setStack n { (retest n r s).stackAt n with inReset := false }))
    ∧ (∀ n r s, validStack n = true → (s.stackAt n).inReset = true → s.stackUp n = true →
      exec (.stackClockRegained n r) s
        = .next ((retest n r s).setStack n { (retest n r s).stackAt n with inReset := false, refreshOk := false }))
    ∧ (∀ l replays failing s, validLane l = true → (failing = true ∨ 16 < replays) → l.link < 3 → s.stackUp l.stack = true →
      exec (.laneMarginSample l replays failing) s = .next (failLane l s))
    ∧ (∀ l replays failing s, validLane l = true → (failing = true ∨ 16 < replays) → 3 ≤ l.link →
      exec (.laneMarginSample l replays failing) s = .next (failPortLane l s))
    ∧ (∀ l s, validLane l = true → 3 ≤ l.link →
      let p := s.portAt (l.link - 3)
      let mine (w : Bool × Nat × Nat) : Bool := w.1 == l.rx && w.2.1 == l.lane
      p.swaps.any mine = true →
      exec (.laneSwap l) s = .next (post (event .laneSpared (objWord 6 (l.link - 3)) [l.lane])
        (s.setPort (l.link - 3) { p.mark l.rx l.lane with swaps := p.swaps.filter fun w => !mine w })))
    ∧ (∀ l s, validLane l = true → l.link < 3 →
      let k := s.stackAt l.stack
      let mine (w : Nat × Bool × Nat × Nat) : Bool := w.1 == l.link && w.2.1 == l.rx && w.2.2.1 == l.lane
      k.swaps.any mine = true →
      exec (.laneSwap l) s = .next (devInc (.laneSwap l.stack) 1 (post (event .laneSpared (objWord 3 l.stack) [l.link, l.lane])
        (s.setStack l.stack { k.setLink l.link ((k.link l.link).mark l.rx l.lane) with swaps := k.swaps.filter fun w => !mine w }))))
    ∧ (∀ s, s.pins.laserSpareOk = false → s.drain.getLsbD 6 = false → (∀ p ∈ s.drainPend, p.1 ≠ 6) →
      exec .laserLoss s = .next (raiseDrain 6 s.pins.laserActive (((List.range 20).filter fun n => s.stackUp n).foldl (fun t n => darken n t) s)))
    ∧ (∀ s, s.pins.laserSpareOk = true →
      ∃ t, exec .laserLoss s = .next t ∧ t.pins.laserActive = 1 - s.pins.laserActive ∧ t.pins.laserSpareOk = false
        ∧ t.stk = s.stk ∧ t.drainPend = s.drainPend))
  ∧ (
    ∀ n trigger s, ((s.stackAt n).isolated = none → ((isolate n trigger s).stackAt n).isolated = some trigger)
      ∧ (∀ k, (s.stackAt n).isolated = some k → ((isolate n trigger s).stackAt n).isolated = some k))

/-- R273, R277: a packet for this device that an open port takes without a replay, with a tag in range, is acted on by its kind. R42,
R277: an input is accepted only with the SRC_INDEX next after the last of its source and ring, the first being 0; then it waits for
the journal with the packet to answer, where its plan is admitted, its sequence open and its ring has room; R270: a sequence whose home
stack is gone holds its inputs at their source. The first SRC_INDEX and the forms of acknowledgement are the model's readings (log
81). -/
def Obligations.TlinkPackets : Prop :=
  (
    (∀ port p s, packetHere port p s = true → exec (.tlinkInput port p 0) s = .next (takeInput port p (portIn port s)))
    ∧ (∀ port p s, packetHere port p s = true → exec (.tlinkAck port p 0) s = .next (takeAck p (portIn port s)))
    ∧ (∀ port p s, packetHere port p s = true →
        let k := holdKey (p.srcDev.toNat % 512) p.plan.toNat
        exec (.tlinkHold port p 0) s = .next { portIn port s with
          heldAway := if s.heldAway.contains k then s.heldAway else k :: s.heldAway })
    ∧ (∀ port p s, packetHere port p s = true → exec (.tlinkRelease port p 0) s = .next (takeRelease p (portIn port s)))
    ∧ (∀ port p s, packetHere port p s = true →
        let t := portIn port s
        exec (.tlinkMgmt port p 0) s = .next (reroute t { t with cfg := { t.cfg with linkMapDown := Config.mgmtMap s.cfg.linkMapDown p.payload } })))
  ∧ (
    (∀ port p s, s.nextFrom p = false → takeInput port p s = s)
    ∧ (∀ port p s x q, s.nextFrom p = true → s.planAt p.plan.toNat = some x → s.seqAt (p.seq.toNat % 2 ^ 17) = some q →
        q.plan = p.plan.toNat → s.replay = none → s.stackGone q.home = true → takeInput port p s = holdSource port p s)
    ∧ (∀ port p s x q, s.nextFrom p = true → s.planAt p.plan.toNat = some x → s.seqAt (p.seq.toNat % 2 ^ 17) = some q →
        x.st = .admitted → q.plan = p.plan.toNat → s.replay = none → x.backpressured = false → s.stackGone q.home = false →
        recBytes p.payload.length ≤ s.ringFree q.home →
        let t := takeInput port p s
        t.accepted = Tab.set s.accepted (sourceKey p) p.srcIndex
        ∧ ∃ j, t.jpend = s.jpend ++ [j] ∧ j.record.payload = p.payload ∧ j.record.plan = p.plan.toNat ∧ j.record.source = port + 1
            ∧ j.reply = some (port, p)))

/-- R274, R275, R277: a port comes up with its peer, goes down, and an entry whose tag has gone stale is dropped and counted. R42: the
oldest journal write completes: its record takes the next INDEX and the tick under way, and is the newest of the journal. -/
def Obligations.TlinkPortsAndJournal : Prop :=
  (
    (∀ n peer s, validPort n = true → ((s.portAt n).up = false ∨ (s.portAt n).retraining = true) → s.portGated n = false →
      s.serialOk = true → s.ticking = true → 3 ≤ s.boot.stage → exec (.tlinkLinkUp n peer) s = .next (linkUp n peer s))
    ∧ (∀ n s, validPort n = true → (s.portAt n).up = true →
      exec (.tlinkPortDown n) s = .next (sendMgmt (reroute s (markLink n true
        (s.setPort n { s.portAt n with up := false, width := 0, retraining := false, swaps := [] })))))
    ∧ (∀ n s r x, n < 128 → Tab.get s.rings n = some r → (r.unacked.find? fun x => (tagAge s.seqr.count x.tag).isNone) = some x →
      exec (.tlinkStale n) s = .next (devInc .tlStale 1 (post (event .tlinkStale (objWord 1 r.plan) [])
        { s with rings := Tab.set s.rings n { r with unacked := r.unacked.filter fun y => y.index != x.index } }))))
  ∧ (
    ∀ s j rest, s.jpend = j :: rest → s.stackGone j.record.home = false → j.answer = none →
      ∃ t, exec .journalWrite s = .next t
        ∧ t.journal = s.journal ++ [{ j.record with index := s.nextJournal, arrival := s.seqr.count }]
        ∧ t.nextJournal = s.nextJournal + 1 ∧ t.jpend = rest)

/-! ## Heat and power -/

/-- R318, R320, R325: a sample of the 240 sensors is taken; with a reading at a trip limit, once ticks run, the device is in Rack with
THERMTRIP_N low. Ticks start only after the first P9 (log 88). -/
def Obligations.SensorSampleTaken : Prop :=
  ∀ r s, r.length = 80 → s.boot.off = false →
    let u := (List.range 20).foldl (sampleStack r) { s with power := { s.power with samples := s.power.samples + 1 } }
    ∃ t, exec (.sensorSample r) s = .next t
      ∧ (u.tooHot = true → s.ticking = true → t.power.state = .rack ∧ t.pins.thermtrip = true)
      ∧ (u.tooHot = false → t.power.state = s.power.state ∧ t.pins.thermtrip = s.pins.thermtrip ∧ t.power.samples = s.power.samples + 1)

/-- R322, R329, R332: a lost report, the steps of cooling degraded, and the caps that rise after 100 ms. R125, R318: after 20,000
close samples a split pair is one again; after 2,000 cool samples the refresh band falls at the next commit. -/
def Obligations.CoolingEvents : Prop :=
  (
    (∀ s, s.power.reportLost = false → s.ticking = true →
      exec .coolantReportLost s = .next (post (event .coolantReportLost none []) { s with power := { s.power with reportLost := true } }))
    ∧ (∀ s, s.power.degraded = false → s.degradeTrigger = true →
      exec .coolingDegraded s = .next { s with power := { s.power with coolPend := s.power.coolPend ++ [0] } })
    ∧ (∀ s, s.power.degraded = true → s.degradeTrigger = true →
      exec .coolingDegradedStep s = .next { s with power := { s.power with coolPend := s.power.coolPend ++ [1] } })
    ∧ (∀ s, s.power.degraded = true → s.degradeClear = true →
      exec .coolingRestored s = .next { s with power := { s.power with coolPend := s.power.coolPend ++ [2] } })
    ∧ (∀ s, exec .throttleCapRaise s
        = .next { s with power := { s.power with thr := s.power.thr.rise s.seqr.time, fc := s.power.fc.rise s.seqr.time } }))
  ∧ (
    (∀ q s, validQuad q = true → (s.thermAt q).split = true → 20000 ≤ (s.thermAt q).close →
      exec (.sensorSplitClear q) s = .next (s.setTherm q { s.thermAt q with split := false, apart := 0 }))
    ∧ (∀ q s, validQuad q = true → 0 < (s.thermAt q).band → 2000 ≤ (s.thermAt q).cool → .bandFall q ∉ s.regWrites →
      exec (.refreshBandFall q) s = .next { s with regWrites := s.regWrites ++ [.bandFall q] }))

/-- R327, R333, R334, R335: the restart from Rack, the sudden stop and its end. R337, R339: a state is entered, and an ungated
quadrant waits for the commit at which it joins. Which states run ticks is the model's reading (log 90). -/
def Obligations.StopsRestartAndPower : Prop :=
  (
    (∀ s, s.power.state = .rack → 200000 ≤ s.power.coolSamples → s.power.coolantStop = false → s.power.rackLatch = false →
      s.boot.st ≠ .halted → s.power.vcoreOk = true →
      ∃ t, exec .rackRestart s = .next t ∧ t.pins.thermtrip = false ∧ t.boot.kind = .rackRestart ∧ t.boot.st = .running
        ∧ t.boot.stage = (if s.boot.readyIndex = none ∧ s.boot.stage < 5 then 2 else 5) ∧ t.power.state = .rack)
    ∧ (∀ s, s.boot.off = false → s.power.flowFault = false → s.ticking = true → s.power.coolantStop = false →
      ∃ t, exec (.suddenStop true) s = .next t ∧ t.power.coolantStop = true ∧ t.power.flowFault = true
        ∧ (s.seqr.phase = .executing → t.seqr.phase = .stopped ∧ t.seqr.attempt = s.seqr.attempt ∧ t.work.staged = []) ∧ t.dram = s.dram)
    ∧ (∀ s, s.power.coolantStop = true →
      exec .suddenStopClear s = .next (enterDegraded (post (event .coolantRestored none [])
        { s with power := { s.power with coolantStop := false, flowFault := false } }))))
  ∧ (
    (∀ s x, s.power.entering = some x → (x = .active → s.power.coolantStop = false) →
      ∃ t, exec .powerStateEntry s = .next t ∧ t.power.state = x ∧ t.power.entering = none
        ∧ (x = .dormant → ∀ d, d < 100 → d ∈ t.power.off) ∧ (x = .active → ∀ d ∈ t.power.off, 100 ≤ d ∧ d < 122) ∧ t.dram = s.dram)
    ∧ (∀ q s, validQuad q = true → q ∈ s.power.ungating →
      ∃ t, exec (.quadrantReady q) s = .next t ∧ q ∉ t.power.ungating ∧ t.power.joining = s.power.joining ++ [q]
        ∧ t.power.off = s.power.off))

/-- R324: the effective crumb budget of a stack: BUDGET times the smallest k of its quadrants that take part, at least 1, less the
degraded steps, at least 1; 0 while its crumb domain is gated. -/
def Obligations.EffectiveCrumbBudget : Prop :=
  ∀ (s : State) n, (80 + n ∈ s.power.off → s.effBudget n = 0)
    ∧ (80 + n ∉ s.power.off → s.effBudget n = max 1 (max 1 (s.cfg.budget * (8960 - 7 * s.stackF n) / 8960) - s.power.dsteps)
        ∧ 1 ≤ s.effBudget n)
    ∧ (∀ i, i < 4 → (s.thermAt (4 * n + i)).takesPart = true → (s.thermAt (4 * n + i)).f ≤ s.stackF n)
    ∧ (s.stackF n = 0 ∨ ∃ i, i < 4 ∧ (s.thermAt (4 * n + i)).takesPart = true ∧ (s.thermAt (4 * n + i)).f = s.stackF n)
    ∧ ((∀ i, i < 4 → (s.thermAt (4 * n + i)).takesPart = false) → s.stackF n = 0)

/-! ## Memory upkeep, identity and firmware -/

/-- R126, R127, R136, R284, R309: refresh and retraining change nothing; a pause and the zeroing end; positions, records and the map
go to MRAM. R35, R284, R286, R287: a patrol scrub moves its slice to its next row, and none is made while a tick overruns; a
reread that finds the bits right again forgets the word, and one that finds them wrong makes the error lasting. The order of scrubbed rows is the model's choice (log 40). -/
def Obligations.MemoryUpkeep : Prop :=
  (
    (∀ n s, validSite n = true → exec (.refresh n) s = .next s ∧ exec (.dramRetrain n) s = .next s)
    ∧ (∀ s, s.cfg.zeroing = true → exec .zeroingDone s = .next { s with cfg := { s.cfg with zeroing := false } })
    ∧ (∀ s, s.scrubPaused = true → s.scrubPausedAt + 3600000000000 ≤ s.seqr.time → exec .scrubPauseExpiry s = .next { s with scrubPaused := false })
    ∧ (∀ s, s.boot.off = false → exec .scrubPositionSave s = .next { s with mram := { s.mram with scrubPos := s.scrubbed } })
    ∧ (∀ s, s.boot.off = false →
        let l := s.mram.log ++ s.staging.filter fun r => decide (r.index < s.stagedTo)
        exec .faultLogCopy s = .next { s with
          staging := s.staging.filter fun r => !decide (r.index < s.stagedTo), mram := { s.mram with log := l.drop (l.length - 262144) } })
    ∧ (∀ s, s.boot.off = false → s.mapDirty = true →
        exec .faultMapWrite s = .next { s with mapDirty := false, mram := { s.mram with map := s.lastingMap } }))
  ∧ (
    (∀ n errs s, validSite n = true → s.scrubPaused = false → s.sliceGone n = false → s.boot.off = false → s.seqr.late = false →
      Tab.getD s.scrubbed n 0 < 98688 → s.scrubSkips n (scrubLoc (Tab.getD s.scrubbed n 0)) = false →
      let p := Tab.getD s.scrubbed n 0
      let t : State := { s with scrubbed := Tab.set s.scrubbed n (p + 1) }
      let t := errs.foldl (fun t e => t.setError (t.phys n (scrubLoc p + 8 * (e.word % 256)) / 8) e.uncorrectable) t
      let t := (List.range 32).foldl (fun t i => scrubLine n (scrubLoc p + 64 * i) t) t
      exec (.patrolScrub n errs) s = .next (endPass (devIncP (.scrubBytes (n / 256)) 2048 t)))
    ∧ (∀ n errs s, s.seqr.late = true → validSite n = true → exec (.patrolScrub n errs) s = .next s)
    ∧ (∀ w u s, Tab.get s.rereads w = some u →
      exec (.rewriteReread w false) s
        = .next { s with rereads := Tab.del s.rereads w, injWords := s.injWords.filter fun x => x != w }
      ∧ exec (.rewriteReread w true) s = .next (lastingWord w u { s with rereads := Tab.del s.rereads w })))

/-- R221, R398, R407, R415, R416, R417: a seal or quote is signed, and what lapses with time. R307, R362, R399, R400: a handover makes
the staged image the running one, or leaves the device waiting for one; a watchdog expiry after the start resets the Hearth alone.
Signatures are opaque (log 9). -/
def Obligations.SecurityAndFirmwareEvents : Prop :=
  (
    (∀ s, 0 < s.sealsPending → exec .sealSignatureDone s = .next (signSeal s))
    ∧ (∀ s q rest m, s.quotes = q :: rest → q.msg = some m → s.sealsPending = 0 → q.bufLen < m.length + 9893 →
        let s0 : State := { s with quotes := rest }
        exec .quoteSigned s = .next (respond q.mb
          (quoteLost (quoteResp q s.canSign s.mram.nextIndex (m ++ List.replicate 9893 0) s0) q.dmaWr) (devInc .quote 1 s0)))
    ∧ (∀ s q rest m, s.quotes = q :: rest → q.msg = some m → s.sealsPending = 0 → m.length + 9893 ≤ q.bufLen →
        let r := sign m { s with quotes := rest }
        exec .quoteSigned s = .next (respond q.mb
          (quoteLost (quoteResp q r.2.1 s.mram.nextIndex (m ++ r.1) r.2.2) q.dmaWr) (devInc .quote 1 r.2.2)))
    ∧ (∀ n s x d, Tab.get s.sessions n = some x → x.dbgLevel = some d → x.pendingOpen = false →
        x.since + x.lifetime * 1000000000 ≤ s.seqr.time →
        exec (.debugLevelLapse n) s = .next (modSession n (fun y => { y with dbgLevel := none, tap := false }) s))
    ∧ (∀ fn s p, validFn fn = true → Tab.get s.nonces fn = some p → p.1 + 300000000000 ≤ s.seqr.time →
        exec (.nonceExpiry fn) s = .next { s with nonces := Tab.del s.nonces fn })
    ∧ (∀ s f, s.hearth.staged = some f → s.hearth.handover = none → f.since + 600000000000 ≤ s.seqr.time →
        exec .fwStagingExpiry s = .next { s with hearth := { s.hearth with staged := none } }))
  ∧ (
    (∀ s mb f, s.hearth.handover = some mb → s.hearth.staged = some f →
      (∀ c ∈ s.changes, match c with | .fwActivate _ => False | _ => True) →
      (∃ t, exec (.firmwareHandover true) s = .next t ∧ t.hearth.handover = none ∧ t.hearth.staged = none
        ∧ t.hearth.measurement = f.measurement ∧ t.hearth.svn = f.svn)
      ∧ (∃ t, exec (.firmwareHandover false) s = .next t ∧ t.hearth.staged = none ∧ t.hearth.running = false ∧ t.boot.fetchWait = true
        ∧ t.boot.stage = 7 ∧ t.hearth.handover = none))
    ∧ (∀ s, s.boot.off = false → s.boot.st ≠ .halted → s.boot.released = true → s.hearth.up = true → s.boot.readyIndex ≠ none →
      ∃ t, exec .hearthWatchdogExpiry s = .next t ∧ t.hearth.up = false ∧ t.hearth.running = false ∧ t.boot.stage = 7
        ∧ t.boot.st = .running ∧ t.seqr.phase = s.seqr.phase ∧ t.dram = s.dram ∧ t.plans = s.plans))

/-! ## Bring-up -/

/-- R347, R362, R438, R439: with PERST_N released a cold start begins at P0; while it is released already nothing begins; PERST_N
asserted holds the device in reset, from every state. Every field is stated: `coldState` is what a cold start finds. Fuses, MRAM and the
log's index outlive it, and no memory, plan, sequence or session. -/
def Obligations.ResetPin : Prop :=
  (∀ e s, s.boot.released = false →
    exec (.perstNRelease e) s = .next { coldState s with
      boot := { (coldState s).boot with released := true, env := some e, lostClocks := s.boot.lostClocks }
      pins := { (coldState s).pins with serial := true } })
  ∧ (∀ e s, s.boot.released = true → exec (.perstNRelease e) s = .next s)
  ∧ (∀ s, exec .perstNAssert s = .next { coldState s with boot := { (coldState s).boot with released := false, env := none } })
  ∧ (∀ e s, s.boot.released = false →
    ∃ t, exec (.perstNRelease e) s = .next t ∧ t.boot.released = true ∧ t.boot.stage = 0 ∧ t.boot.env = some e ∧ t.mram = s.mram
      ∧ t.fuses = s.fuses ∧ t.logNext = s.logNext ∧ t.dram = [] ∧ t.plans = [] ∧ t.seqs = [] ∧ t.sessions = [])
  ∧ (∀ s, ∃ t, exec .perstNAssert s = .next t ∧ t.boot.released = false ∧ t.boot.stage = 0 ∧ t.mram = s.mram ∧ t.fuses = s.fuses
      ∧ t.logNext = s.logNext ∧ t.dram = [] ∧ t.plans = [] ∧ t.pending = s.pending)

/-- R349: stages P0 to P3 of a device start, with what each leaves. R349, R366, R397: P7 waits for an image or halts with no store
online, but in a restart of the Hearth alone waits for a store (R28); P8 leads to P9; P9 leaves the device ready with its Ready record. Corners of the stages are the model's readings (log 88), and
MRAM is taken as log 5 says. -/
def Obligations.StartStages : Prop :=
  (
    (∀ s, s.atStage 0 = true →
      (∃ t, exec (.stageP0 true) s = .next t ∧ t.boot.stage = 1 ∧ t.mram.bootCount = s.mram.bootCount + 1 ∧ t.boot.st = .running)
      ∧ (∃ t, exec (.stageP0 false) s = .next t ∧ t.boot.st = .halted ∧ t.boot.cause = 2 ∧ t.mram.bootCount = s.mram.bootCount + 1))
    ∧ (∀ s e, s.atStage 1 = true → s.boot.env = some e → powerGood e = true → s.power.vcoreOk = true → s.boot.lostClocks = [] →
      ∃ t, exec (.stageP1 .passed) s = .next t ∧ t.boot.stage = 2 ∧ t.seqr.count = 0 ∧ t.seqr.time = 0 ∧ t.pins.hostUp = true
        ∧ t.power.coolantStop = (s.power.flowFault || s.power.coolantStop))
    ∧ (∀ s r, s.atStage 2 = true → r.ioFusesOk = true →
      ∃ t, exec (.stageP2 r) s = .next t ∧ t.boot.stage = 3 ∧ t.faultMap = s.mram.map.without r.mapLost
        ∧ t.rows = fuseRows s.fuses ∧ ∀ n, n ∈ r.unread → Tab.get t.boot.stk n = none)
    ∧ (∀ s r, s.starting = true → s.boot.stage = 3 → ∃ t, exec (.stageP3 r) s = .next t ∧ t.boot.stage = 4 ∧ ∀ p, p < 6 → (t.portAt p).up = false))
  ∧ (
    (∀ s, s.atStage 7 = true → s.boot.fetchWait = false →
      (s.storeOnline = true → ∃ t, exec .stageP7 s = .next t ∧ t.boot.fetchWait = true ∧ t.boot.st = .waiting ∧ t.hearth.running = false)
      ∧ (s.storeOnline = false → s.boot.kind ≠ .hearthRestart → ∃ t, exec .stageP7 s = .next t ∧ t.boot.st = .halted ∧ t.boot.cause = 7)
      ∧ (s.storeOnline = false → s.boot.kind = .hearthRestart → exec .stageP7 s = .next s))
    ∧ (∀ s, s.atStage 8 = true → s.hearth.running = true → ∃ t, exec (.stageP8 []) s = .next t ∧ t.boot.stage = 9 ∧ t.boot.last = 8)
    ∧ (∀ s, s.atStage 9 = true →
      ∃ t, exec .stageP9 s = .next t ∧ t.boot.stage = 10 ∧ t.boot.st = .ready ∧ t.boot.last = 9 ∧ t.boot.readyIndex ≠ none))

/-- R352, R354: when P4 of a stack ends, every line of its slices, reserve included, reads zero without poison. -/
def Obligations.MemoryReadsZeroAfterP4 : Prop :=
  (∀ n r s, n < 20 → ∀ a, a / 2 ^ 28 / 256 = n →
    Mem.get (p4Stack n r s).dram a = 0 ∧ (p4Stack n r s).wordSt (a / 8) = .clean)
  ∧ ∀ s, (coldState s).dram = [] ∧ (coldState s).words = []

/-- R349, R352-R356: stages P4, P5 and P6 of a stack, with P6 of the device. R349, R355: a stage that does not end in time, a stack
too cold for P4 and a quadrant too cold for P5. The codes of boot.stk are the model's own (log 33), and corners of the stages its
readings (log 88). -/
def Obligations.StackStagesAndTimeouts : Prop :=
  (
    (∀ n r s, n < 20 → s.starting = true → s.power.coolantStop = false → s.stkCode n % 10 = 4 → s.crustWarm n = true →
      exec (.stageP4 n r) s = .next (nextStage (setCode n (s.stkCode n + 1) (p4Stack n r s))))
    ∧ (∀ n r s, n < 20 → s.starting = true → s.power.coolantStop = false → s.power.vcoreOk = true → s.stkCode n % 10 = 5 →
      (∀ i, i < 4 → s.quadWarm (4 * n + i) = true) →
      ∃ t u, exec (.stageP5 n r) s = .next t ∧ t = nextStage (setCode n (s.stkCode n + 1) u)
        ∧ (∀ x ∈ r.badCores, 256 * n + x % 256 ∈ u.boot.bad) ∧ u.stkCode n = s.stkCode n)
    ∧ (∀ s, s.starting = true → s.boot.stage = 6 →
      ∃ t, exec (.stageP6 31) s = .next t ∧ t.boot.stk = [] ∧ (t.boot.stage = 7 ∨ t.boot.stage = 8) ∧ t.boot.last = 6)
    ∧ (∀ n s, n < 20 → s.starting = true → s.stkCode n % 10 = 6 → s.boot.stage ≠ 6 →
      exec (.stageP6 n) s = .next (setCode n (s.stkCode n + 3) (stageRec 6 n (stkKind s n) 0 0 256
        ((reconcile [n] s).boot.bad.filter fun x => x / 256 == n).length [] (reconcile [n] s)))))
  ∧ (
    (∀ s, s.starting = true → s.boot.stage ≤ 2 →
      ∃ t, exec (.stageTimeout 31) s = .next t ∧ t.boot.st = .halted ∧ t.boot.cause = 1)
    ∧ (∀ n s, n < 20 → s.starting = true → s.power.coolantStop = false → s.stkCode n ≠ 0 →
      exec (.stageTimeout n) s = .next (nextStage (stackTimeout n s)))
    ∧ (∀ n s, n < 20 → s.starting = true → s.boot.stage = 4 → s.stkCode n = 4 → s.crustWarm n = false → n ≠ 7 → n ≠ 12 →
      exec (.p4ColdWaitTimeout n) s = .next (nextStage (stageRec 4 n s.boot.kind 2 9 0 0 [] (dropCode n s))))
    ∧ (∀ q s, validQuad q = true → s.starting = true → s.stkCode (q / 4) % 10 = 5 → s.quadWarm q = false →
      exec (.p5ColdTimeout q) s = .next { s with boot := { s.boot with coldQuads := q :: s.boot.coldQuads } }))

/-! ## Supplies, sideband and host accesses -/

/-- R440, R441: what a supply fault does, rail by rail, in a device that is not Off, and what returns. R385, R443: a reference clock
lost halts the device, takes the host port down or takes the TLink ports down; with its return ports train. What a halted device keeps
is the model's reading (log 98). -/
def Obligations.SupplyFaultsAndClocks : Prop :=
  (
    ∀ s, s.boot.off = false →
      (∀ r, r = .vaon ∨ r = .vio18 →
        ∃ t, exec (.supplyFault r) s = .next t ∧ t.boot.off = true ∧ t.dram = [] ∧ t.mram = s.mram ∧ t.fuses = s.fuses)
      ∧ ((s.pins.thermtrip = true ∨ s.ticking = false) →
          exec (.supplyFault .vcore) s = .next { s with power := { s.power with vcoreOk := false } })
      ∧ (s.pins.thermtrip = false → s.ticking = true →
          exec (.supplyFault .vcore) s = .next (enterRack 1 { s with power := { s.power with vcoreOk := false } }))
      ∧ (∀ r, r = .vser ∨ r = .vserh →
          exec (.supplyFault r) s = .next (portsDown (hostDown { s with pins := { s.pins with serial := false } })))
      ∧ (s.ticking = true → exec (.supplyFault .vlas) s = .next (lasersOff s))
      ∧ (∀ r, r = .vtransit ∨ r = .vdram ∨ r = .vpp ∨ r = .viod ∨ r = .vpho → s.boot.released = true →
          exec (.supplyFault r) s = .next (haltNow 3 s))
      ∧ exec .vcoreRestore s = .next { s with power := { s.power with vcoreOk := true } }
      ∧ (s.pins.serial = false → exec .serialSupplyReturn s = .next (hostTrain { s with pins := { s.pins with serial := true } })))
  ∧ (
    (∀ s, s.boot.off = false → RefClock.sysclk ∉ s.boot.lostClocks → s.boot.released = true →
      exec (.referenceClockLoss .sysclk) s
        = .next (haltNow 4 { s with boot := { s.boot with lostClocks := .sysclk :: s.boot.lostClocks } })
      ∧ (haltNow 4 s).boot.st = .halted ∧ (s.boot.st ≠ .halted → (haltNow 4 s).boot.cause = 4))
    ∧ (∀ s, s.boot.off = false → RefClock.pcie ∉ s.boot.lostClocks →
      ∃ t, exec (.referenceClockLoss .pcie) s = .next t ∧ t.pins.hostUp = false ∧ t.plans.length = s.plans.length ∧ t.seqr = s.seqr
        ∧ t.changes = s.changes)
    ∧ (∀ s, s.boot.off = false → RefClock.tlink ∉ s.boot.lostClocks →
      ∃ t, exec (.referenceClockLoss .tlink) s = .next t ∧ (∀ p, p < 6 → (t.portAt p).up = false) ∧ t.seqr = s.seqr)
    ∧ (∀ s, s.boot.off = false → RefClock.tlink ∈ s.boot.lostClocks →
      exec (.referenceClockReturn .tlink) s
        = .next { s with boot := { s.boot with lostClocks := s.boot.lostClocks.filter fun c => decide (c ≠ .tlink) } })
    ∧ (∀ s, s.boot.off = false → RefClock.pcie ∈ s.boot.lostClocks →
      exec (.referenceClockReturn .pcie) s
        = .next (hostTrain { s with boot := { s.boot with lostClocks := s.boot.lostClocks.filter fun c => decide (c ≠ .pcie) } }))
    ∧ (∀ s, s.boot.off = false → RefClock.sysclk ∈ s.boot.lostClocks →
      exec (.referenceClockReturn .sysclk) s
        = .next { s with boot := { s.boot with lostClocks := s.boot.lostClocks.filter fun c => decide (c ≠ .sysclk) } }))

/-- R385: a function-level reset closes every session of its function, abandons the unserved commands of its mailboxes and discards
the responses of the served ones, while changes already accepted stand; one of the PF resets every function. -/
def Obligations.FunctionLevelReset : Prop :=
  (∀ fn s, validFn fn = true → 0 < fn → (s.sessions.map Prod.fst).Nodup →
    ∃ t, exec (.functionLevelReset fn) s = .next t ∧ (∀ e ∈ t.sessions, e.2.fn ≠ fn)
      ∧ (∀ e ∈ s.sessions, e.2.fn ≠ fn → e ∈ t.sessions)
      ∧ (∀ e ∈ t.mailboxes, e.2.fn = fn → e.2.busy = false ∧ e.2.served = false)
      ∧ (∀ a ∈ t.answers, (s.mbAt a.mb).fn ≠ fn) ∧ t.changes = s.changes ∧ t.dram = s.dram)
  ∧ (∀ s, exec (.functionLevelReset 0) s = .next ((List.range 64).foldl (fun t n => resetOne n t) s))

/-- R450-R452: a report takes INLET and FLOW together, and none counts before P1; a wake powers the host port. R421, R422, R453: the
instructions of the test access port: boundary scan only while PERST_N is asserted, a debug register only while TAP_OPEN is set,
BYPASS in place of what is not allowed. What a scan or a TAP register reads is free (logs 21 and 44), and that a reset selects IDCODE
is presumed (log 45). -/
def Obligations.SidebandAndTestAccess : Prop :=
  (
    (∀ inlet flow s, s.boot.off = false → 2 ≤ s.boot.stage →
      ∃ t, exec (.sidebandReport inlet flow) s = .next t ∧ t.power.inlet = inlet ∧ t.power.flow = flow ∧ t.power.reportLost = false
        ∧ t.seqr = s.seqr)
    ∧ (∀ inlet flow s, s.boot.off = false → s.boot.stage < 2 →
      exec (.sidebandReport inlet flow) s = .next { s with pins := { s.pins with sbInlet := inlet, sbFlow := flow } })
    ∧ (∀ s, s.boot.off = false → 122 ∈ s.power.off →
      ∃ t, exec .sidebandWake s = .next t ∧ 122 ∉ t.power.off ∧ (∀ d ∈ s.power.off, d ≠ 122 → d ∈ t.power.off))
    ∧ (∀ a s, s.boot.off = false → exec (.i3cDynamicAddress a) s = .next { s with pins := { s.pins with i3c := some a } })
    ∧ (∀ s, exec .configRequest s = .next { s with pins := { s.pins with
        config := if s.hostPower = false then 0 else if s.boot.stage < 2 then 1 else 2 } }))
  ∧ (
    ∀ s, s.boot.off = false →
      (exec .idcode s = .next (tap 0x01 s.idcode s) ∧ exec .bypass s = .next (tap 0xFF 0 s) ∧ ∀ por, exec (.tapReset por) s = .next (tap 0x01 s.idcode s))
      ∧ (s.boot.released = false →
          (∃ d t, exec .samplePreload s = .next (tap 0x02 d t) ∧ t = { s with fresh := s.fresh + 1 })
          ∧ (∃ d t, exec .extest s = .next (tap 0x03 d t) ∧ t = { s with fresh := s.fresh + 1 })
          ∧ (∃ d t, exec .extestPulse s = .next (tap 0x04 d t) ∧ t = { s with fresh := s.fresh + 1 })
          ∧ (∃ d t, exec .extestTrain s = .next (tap 0x05 d t) ∧ t = { s with fresh := s.fresh + 1 }))
      ∧ (s.boot.released = true →
          exec .samplePreload s = .next (tap 0xFF 0 s) ∧ exec .extest s = .next (tap 0xFF 0 s) ∧ exec .extestPulse s = .next (tap 0xFF 0 s)
          ∧ exec .extestTrain s = .next (tap 0xFF 0 s))
      ∧ (∀ a w, s.tapOpen = false → exec (.dbgAccess a w) s = .next (tap 0xFF 0 s))
      ∧ (∀ a w, s.tapOpen = true → ∃ d t, exec (.dbgAccess a w) s = .next t ∧ t.pins.tapIr = 0xA5 ∧ t.pins.tapData = d
          ∧ t.dram = s.dram ∧ t.cores = s.cores ∧ t.seqr = s.seqr))

/-- R188, R282, R369: what a BAR2 read answers and what a BAR2 write does, by the outcome its address meets. That a refused write of
tables counts is the model's reading (log 49). -/
def Obligations.Bar2Accesses : Prop :=
  (∀ off len s, s.bar2In off len = true → s.bar2Outcome (s.host.bar2Base + off) len false = 0 →
    let r := s.devRead s.fresh (s.host.bar2Base + off) len
    exec (.bar2Read off len) s = .next (bar2Answer (if r.2 then 3 else 0) r.1
      (noteRange (s.host.bar2Base + off) len { s with fresh := s.fresh + 1 })))
  ∧ (∀ off len s, s.bar2In off len = true → s.memOpen = false →
    exec (.bar2Read off len) s = .next (bar2Answer 1 [] (devInc .bar2Denied 1 s)))
  ∧ (∀ off data p s, s.bar2In off data.length = true → s.bar2Outcome (s.host.bar2Base + off) data.length true = 0 →
    isReserve (s.host.bar2Base + off) = false →
    exec (.bar2Write off data p) s
      = .next (writeCodes p (s.host.bar2Base + off) data.length (bar2Words (s.host.bar2Base + off) data s)))
  ∧ (∀ off data p s, s.bar2In off data.length = true → s.bar2Outcome (s.host.bar2Base + off) data.length true = 0 →
    isReserve (s.host.bar2Base + off) = true →
    exec (.bar2Write off data p) s = .next (bar2Reserve (s.host.bar2Base + off) data p s))
  ∧ (∀ off data p s, s.bar2In off data.length = true → s.memOpen = false →
    exec (.bar2Write off data p) s = .next (devInc .bar2Denied 1 s))

/-- R30, R59, R132, R136, R157, R264, R346, R459: registers whose new value takes effect at the next commit, each in its range, and
the reject bit of a value out of it. R264: GLOBAL_WAVES takes a value of 4 to 16 that leaves every reachable GE port that many logical
wavelengths, at the next commit; another sets CFG_REJECT and is not applied. R7, R31, R315, R369: registers whose write or read acts
at once. R387: while expert register access is closed, the expert ranges ignore writes: no register of them changes. That BAR2_BASE
acts at once is the model's reading (log 97). -/
def Obligations.RegisterWrites : Prop :=
  (
    ∀ (s : State) (v : BitVec 32), s.expertOpen = true →
      ((periodOutcome s v.toNat).1 = .ok →
        exec (.periodNsWrite v) s = .next (markPending (.period v.toNat) (regWrite (.period v.toNat) s)))
      ∧ ((periodOutcome s v.toNat).1 ≠ .ok → exec (.periodNsWrite v) s = .next { s with seqr := { s.seqr with periodReject := true } })
      ∧ exec (.wrapEnWrite v) s = .next (markPending (.wrapEn (v.setWidth 9)) (regWrite (.wrapEn (v.setWidth 9)) s))
      ∧ (∀ q, q < 80 → v.toNat % 2048 ≤ 1920 →
          exec (.rateWrite q false v) s = .next (markPending (.rate q false (v.toNat % 2048)) (regWrite (.rate q false (v.toNat % 2048)) s)))
      ∧ (∀ q, q < 80 → 1920 < v.toNat % 2048 → exec (.rateWrite q false v) s = .next (s.setQuad q { s.quadAt q with rateReject := true }))
      ∧ (∀ q, q < 80 → v.toNat % 512 ≤ 448 →
          exec (.rateWrite q true v) s = .next (markPending (.rate q true (v.toNat % 512)) (regWrite (.rate q true (v.toNat % 512)) s)))
      ∧ (v.toNat % 16 ≤ 6 → s.inUse = false →
          exec (.globalStepsWrite v) s = .next (markPending (.globalSteps (v.toNat % 16)) (regWrite (.globalSteps (v.toNat % 16)) s)))
      ∧ ((6 < v.toNat % 16 ∨ s.inUse = true) → exec (.globalStepsWrite v) s = .next { s with cfg := { s.cfg with memReject := true } })
      ∧ (1 ≤ v.toNat % 16 → v.toNat % 16 ≤ 8 →
          exec (.budgetWrite v) s = .next (markPending (.budget (v.toNat % 16)) (regWrite (.budget (v.toNat % 16)) s)))
      ∧ ((v.toNat % 16 < 1 ∨ 8 < v.toNat % 16) → exec (.budgetWrite v) s = .next { s with cfg := { s.cfg with budgetReject := true } })
      ∧ (∀ off, blockAt off = some (.thermal, 0x08) →
          exec (.thermalConfigWrite off v) s = .next (markPending (.flowMin (v.setWidth 16)) (regWrite (.flowMin (v.setWidth 16)) s)))
      ∧ (∀ off, blockAt off = some (.thermal, 0x1C) →
          exec (.thermalConfigWrite off v) s = .next (markPending (.warmupEn (v.getLsbD 8)) (regWrite (.warmupEn (v.getLsbD 8)) s))))
  ∧ (
    ∀ (s : State) (v : BitVec 32), s.expertOpen = true →
      let x := v.toNat % 32
      (s.wavesOk x = true → exec (.globalWavesWrite v) s = .next (markPending (.globalWaves x) (regWrite (.globalWaves x) s)))
      ∧ (s.wavesOk x = false → exec (.globalWavesWrite v) s = .next { s with cfg := { s.cfg with linkReject := true } })
      ∧ ((x < 4 ∨ 16 < x) → s.wavesOk x = false))
  ∧ (
    ∀ (s : State), s.expertOpen = true →
      (∀ (v : BitVec 64), v.toNat % 2 ^ 30 = 0 → exec (.bar2BaseWrite v) s = .next { s with host := { s.host with bar2Base := v.toNat } })
      ∧ (∀ (v : BitVec 64), v.toNat % 2 ^ 30 ≠ 0 → exec (.bar2BaseWrite v) s = .next { s with host := { s.host with cfgReject := true } })
      ∧ (∀ (v : BitVec 32), v.toNat % 4 = 0 →
          exec (.sourceWrite v) s = .next (selectSource false { s with seqr := { s.seqr with lateEvtEn := v.getLsbD 8 } }))
      ∧ (∀ (v : BitVec 32), v.toNat % 4 = 1 → s.replay = none →
          exec (.sourceWrite v) s = .next (selectSource true { s with seqr := { s.seqr with lateEvtEn := v.getLsbD 8 } }))
      ∧ (∀ off b c (v : BitVec 32), blockAt off = some (b, c.clear) → b.counters = some c →
          exec (.counterClear off v) s = .next (clearCounters c v s))
      ∧ (s.regOpen = true → exec .maxRecoveryNsRead s = .next { s with
          host := { s.host with lastRead := BitVec.ofNat 64 (s.seqr.maxRecovery % 2 ^ 32) }, seqr := { s.seqr with maxRecovery := 0 } })
      ∧ (∀ off (v : BitVec 64), off < 0x400000 ∨ 0x800000 ≤ off →
          exec (.registerWrite off 4 v) s = .next (writeRegs off 4 v s) ∧ exec (.registerWrite off 8 v) s = .next (writeRegs off 8 v s)))
  ∧ (
    ∀ (s : State), s.regOpen = false →
      (∀ off size v, off < 0x400000 ∨ 0x800000 ≤ off → exec (.registerWrite off size v) s = .next s)
      ∧ (∀ v, exec (.periodNsWrite v) s = .next s ∧ exec (.sourceWrite v) s = .next s ∧ exec (.wrapEnWrite v) s = .next s
          ∧ exec (.globalStepsWrite v) s = .next s ∧ exec (.budgetWrite v) s = .next s ∧ exec (.globalWavesWrite v) s = .next s)
      ∧ (∀ v, exec (.bar2BaseWrite v) s = .next s) ∧ (∀ off v, exec (.counterClear off v) s = .next s)
      ∧ (∀ off v, exec (.thermalConfigWrite off v) s = .next s) ∧ ∀ q stream v, q < 80 → exec (.rateWrite q stream v) s = .next s)

/-! ## Mailboxes -/

/-- R375: GO sets BUSY on a free mailbox and OVERRUN on a busy one, and a response sets DONE, copies STATUS into LAST_STATUS and
clears BUSY; a message written while BUSY is set is ignored. -/
def Obligations.MailboxHandshake : Prop :=
  (∀ mb v s, validMailbox mb = true → s.boxesUp = true → (v : BitVec 32).getLsbD 0 = true → (s.mbAt mb).busy = true →
    ∃ t, exec (.mailboxGo mb v) s = .next t ∧ (t.mbAt mb).overrun = true ∧ (t.mbAt mb).busy = true ∧ (t.mbAt mb).area = (s.mbAt mb).area
      ∧ (t.mbAt mb).doneIrq = v.getLsbD 8)
  ∧ (∀ mb v s, validMailbox mb = true → s.boxesUp = true → (v : BitVec 32).getLsbD 0 = true → (s.mbAt mb).busy = false →
    exec (.mailboxGo mb v) s = .next (answerUnknown (s.setMb mb
      { s.mbAt mb with eventIrq := v.getLsbD 9, doneIrq := v.getLsbD 8, busy := true, served := false })))
  ∧ (∀ mb r s, let t := respond mb r s
      (t.mbAt mb).done = true ∧ (t.mbAt mb).busy = false ∧ (t.mbAt mb).lastStatus = BitVec.ofNat 8 r.status.code ∧ (t.mbAt mb).resp = some r
      ∧ t.host.msix = (if (s.mbAt mb).doneIrq = true ∧ s.boot.fetchWait = false ∧ (s.mbAt mb).doneVector.toNat < vectors (s.mbAt mb).fn
            ∧ s.boot.readyIndex.isSome = true then s.host.msix ++ [((s.mbAt mb).fn, (s.mbAt mb).doneVector.toNat)] else s.host.msix)
      ∧ ∀ n, n ≠ mb → t.mbAt n = s.mbAt n)
  ∧ (∀ mb v s, validMailbox mb = true → s.boxesUp = true → (v : BitVec 32).toNat = (s.mbAt mb).evHead.toNat →
    exec (.evTailWrite mb v) s = .next (s.setMb mb { s.mbAt mb with evTail := v }))
  ∧ (∀ mb o (v : BitVec 64) s, mb < 256 → 0x40 ≤ o → o < 0x1000 → s.boxesUp = true → (s.mbAt mb).busy = true →
    exec (.registerWrite (0x400000 + 0x4000 * mb + o) 8 v) s = .next s)

/-- R9, R379: the order in which a command's checks answer it. -/
def Obligations.CheckOrder : Prop :=
  ∀ (s : State) (op len : Nat) (a : Auth) (m : Msg) (c : Check),
    let r := verdict s op len a m c
    ((m.rsv = true ∨ 4096 < m.session.toNat ∨ (s.mbAt m.mb).length ≠ 8 * len ∨ c.nospt = true) → r = some (.nospt, 0))
    ∧ (r = none → authDenied s a m = none ∧ c = Check.ok ∧ s.stageBusy m.mb op = false ∧ (s.replay = none ∨ a.replay = true)
        ∧ (tagAge s.seqr.count m.tag).isSome = true ∧ m.rsv = false ∧ (s.mbAt m.mb).length = 8 * len)
    ∧ ((∀ v, r ≠ some v) ∨ ∃ d st, r = some (st, d) ∧ st ≠ .ok ∧ st ≠ .late ∧ st ≠ .stale ∧ st ≠ .poison
        ∧ (st = .denied → c.nospt = false) ∧ (st = .busy → authDenied s a m = none ∧ c.denied = none ∧ c.gone = false)
        ∧ (st = .limit → c.busy = false ∧ s.stageBusy m.mb op = false))

/-- R5, R379: a mailbox command that its checks refuse is answered with the status they give and has no other effect, for every
command whose refusal leaves nothing else. R39, R216: an accepted command stages its changes after those before it, records its
message, and keeps its mailbox busy until its answer; nothing it changes takes effect before the commit. R380: at one commit, mailbox
changes are applied in acceptance order, and register writes after them, each once: what is applied last holds. -/
def Obligations.CommandsRefusedOrStaged : Prop :=
  (
    ∀ (op len : Nat) (a : State → Auth) (m : Msg) (k : State → Check) (run : State → State) (s : State) (st : Status) (d : Nat),
      let c := cmd op len a m k run
      c.taken s = true → c.refusal s = some (st, d) →
      ∃ t, serveCmd c s = .next t
        ∧ (t.mbAt m.mb).lastStatus = BitVec.ofNat 8 st.code ∧ (t.mbAt m.mb).busy = false ∧ (t.mbAt m.mb).done = true
        ∧ t.changes = s.changes ∧ t.cmds = s.cmds ∧ t.answers = s.answers ∧ t.dram = s.dram ∧ t.plans = s.plans ∧ t.seqs = s.seqs
        ∧ t.pools = s.pools ∧ t.sessions = s.sessions ∧ t.cfg = s.cfg ∧ t.power = s.power ∧ t.seqr = s.seqr ∧ t.mram = s.mram)
  ∧ (
    ∀ op m cs body s,
      let t := accept op m cs body s
      t.changes = s.changes ++ cs ∧ t.cmds = s.cmds ++ [cmdRecord m s] ∧ (t.mbAt m.mb).served = true ∧ (t.mbAt m.mb).busy = (s.mbAt m.mb).busy
      ∧ (∃ a, t.answers = s.answers ++ [a] ∧ a.mb = m.mb ∧ a.resp.status = .ok ∧ a.resp.seq = m.seq ∧ a.sent = false)
      ∧ (∀ n, n ≠ m.mb → t.mbAt n = s.mbAt n)
      ∧ t = { s with changes := t.changes, cmds := t.cmds, answers := t.answers, mailboxes := t.mailboxes })
  ∧ (
    ∀ (s : State) (c : Change), s.replaying = false →
      (∀ cs, s.changes = cs ++ [c] → s.regWrites = [] → publishChanges s = applyChange c (publishChanges { s with changes := cs }))
      ∧ (∀ cs, s.regWrites = cs ++ [c] → publishChanges s = applyChange c (publishChanges { s with regWrites := cs }))
      ∧ (s.changes = [] → s.regWrites = [] → publishChanges s = { s with replayChanges := [] })
      ∧ (∀ v, (applyChange (.wrapEn v) s).seqr.wrapEn = v) ∧ (∀ v, (applyChange (.period v) s).seqr.period = v)
      ∧ (∀ v, (applyChange (.globalWaves v) s).cfg.globalWaves = v) ∧ (∀ v, (applyChange (.budget v) s).cfg.budget = v)
      ∧ (∀ v, (applyChange (.bar2Base v) s).host.bar2Base = v))

/-- R390: a command that reads is answered at once: COUNT, NEXT, and the whole items from its start point that its buffer takes. The
bytes of the items are the model's choice where the spec lays none out (logs 53, 60, 65 and 71). -/
def Obligations.ReadCommandsAnswer : Prop :=
  Reads .tickRead cmdTickRead 0x0302 (fun m t => regItems t 0x03002000 0x44 (m.word 1))
  ∧ Reads .quotaRead cmdQuotaRead 0x1003 (fun m t => match m.obj 4 with
      | some q => regItems t (stackRegs (q / 4) (0x8000 + 0x40 * (q % 4))) 0x2C (m.word 1)
      | none => regItems t 0x03004000 0x24 (m.word 1))
  ∧ Reads .netRead cmdNetRead 0x0700 (fun m t => regItems t (stackRegs (m.word 0 % 2 ^ 32) 0x9000) 0x28 (m.word 1))
  ∧ Reads .linkRead cmdLinkRead 0x0804 (fun m t => match m.obj 3 with
      | some n => regItems t (stackRegs n 0xA000) 0x58 (m.word 1)
      | none => regItems t 0x03006000 0x80 (m.word 1))
  ∧ Reads .thermRead cmdThermRead 0x0900 (fun m t => match m.obj 4 with
      | some q => regItems t (stackRegs (q / 4) (0xC000 + 0x10 * (q % 4))) 0x10 (m.word 1)
      | none => numbered (m.word 1) (((List.range 13).map fun i => leBytes 4 (expertWord t (0x03008000 + 4 * i))) ++ calibItems t))
  ∧ Reads .thermTelemetryRead cmdThermTelemetryRead 0x0901 (fun m t => match m.obj 3 with
      | some n => (Tab.getD t.teleStack n []).filterMap fun r => if m.word 1 ≤ r.tick then some (r.bytes, r.tick + 1) else none
      | none => t.teleDev.filterMap fun r => if m.word 1 ≤ r.tick then some (r.bytes, r.tick + 1) else none)
  ∧ Reads .pwrRead cmdPwrRead 0x0A06 (fun m t => numbered (m.word 1)
      ((leBytes 8 t.power.state.code :: [leBytes 8 (domainBits t 0 64), leBytes 8 (domainBits t 64 60)])
        ++ (List.range 120).map fun d => leBytes 8 (t.power.energies.getD d 0)))
  ∧ Reads .faultLogRead cmdFaultLogRead 0x0B00 (fun m t =>
      t.mram.log.filterMap fun r => if m.word 1 ≤ r.index then some (r.bytes, r.index + 1) else none)
  ∧ Reads .faultMapRead cmdFaultMapRead 0x0B01 faultMapItems
  ∧ Reads .secSessionRead cmdSecSessionRead 0x0C03 sessionItems
  ∧ Reads .secCertRead cmdSecCertRead 0x0C12 certItems
  ∧ Reads .capRead cmdCapRead 0x0F00 (fun m t => numbered (m.word 1) [capList t (t.mbFn m.mb)])
  ∧ Reads .capEventRead cmdCapEventRead 0x0F01 (fun m t =>
      t.eventLog.filterMap fun r => if m.word 1 ≤ r.index then some (r.bytes, r.index + 1) else none)
  ∧ Does .capStatus cmdCapStatus (fun m t => readItems 0x0F02 m (freeItem t.fresh (m.word 1)) { t with fresh := t.fresh + 1 })
  ∧ Does .fwStatus cmdFwStatus (fun m t => readItems 0x0E03 m (freeItem t.fresh (m.word 1)) { t with fresh := t.fresh + 1 })
  ∧ Reads .seqRead cmdSeqRead 0x0105 (fun m t => numbered (m.word 1) [seqBytes t m.seqSlot])
  ∧ Reads .kvRead cmdKvRead 0x0508 (fun m t =>
      numbered (m.word 1) (match m.obj 7 with | some _ => poolItems t (m.word 0 % 2 ^ 32) | none => seqTables t (m.word 0 % 2 ^ 32)))
  ∧ Reads .planRead cmdPlanRead 0x0205 (fun m t => numbered (m.word 1)
      (if m.word 0 = 0 then planItems t else planItems { t with plans := t.plans.filter fun e => e.1 == m.word 0 % 2 ^ 32 }))
  ∧ Does .evdRead cmdEvdRead (fun m t => readFlagged 0x0602 m
      (((Tab.getD t.records (m.word 0 % 2 ^ 32) []).filter fun r => decide (m.word 1 ≤ r.tick * 2 ^ 20 + r.ordinal)).map fun r =>
        (!r.replay && t.tickSealed r.tick, r.bytes, r.tick * 2 ^ 20 + r.ordinal + 1)) t)
  ∧ Does .evdLinks cmdEvdLinks (fun m t => readFlagged 0x0603 m
      ((t.linkKeys.filter fun n => decide (m.word 1 ≤ n)).flatMap (linkItems t)) t)
  ∧ Does .evdJournalRead cmdEvdJournalRead (fun m t => readFlagged 0x0604 m
      (((t.retained (m.word 0 % 2 ^ 32)).filter fun r => decide (m.word 1 ≤ r.index)).map fun r =>
        ((match r.consumedBy with | some n => t.tickSealed n | none => false), r.bytes, r.index + 1)) t)
  ∧ Reads .evdStatus cmdEvdStatus 0x0606 (fun m t => numbered (m.word 1) [statusItem t])

/-- R7, R30, R59, R132, R157, R264, R346, R390: a command that sets a register's next value is accepted and marks it pending until the
commit; clears of counters, the source, the port addresses and BAR2_BASE are accepted as their rules say. The words of the arguments
and the moment a source acts are the model's readings (logs 15, 17 and 56). -/
def Obligations.RegisterCommandsAccepted : Prop :=
  Pends .tickSetPeriod cmdTickSetPeriod 0x0300 (fun m => .period (m.word 1))
  ∧ Pends .tickWrapEn cmdTickWrapEn 0x0304 (fun m => .wrapEn (BitVec.ofNat 9 (m.word 1)))
  ∧ Pends .quotaSliceSet cmdQuotaSliceSet 0x1000 (fun m => .rate (m.word 0 % 2 ^ 32) false (m.word 1))
  ∧ Pends .quotaStreamSet cmdQuotaStreamSet 0x1001 (fun m => .rate (m.word 0 % 2 ^ 32) true (m.word 1))
  ∧ Pends .quotaCrumbSet cmdQuotaCrumbSet 0x1002 (fun m => .budget (m.word 1))
  ∧ Pends .memConfig cmdMemConfig 0x0403 (fun m => .globalSteps (m.word 1))
  ∧ Pends .linkGlobalWaves cmdLinkGlobalWaves 0x0803 (fun m => .globalWaves (m.word 1))
  ∧ Pends .thermFlowMin cmdThermFlowMin 0x0903 (fun m => .flowMin (BitVec.ofNat 16 (m.word 1)))
  ∧ Pends .thermWarmup cmdThermWarmup 0x0904 (fun m => .warmupEn (decide (m.word 1 = 1)))
  ∧ Does .tickSetSource cmdTickSetSource (fun m t => accept 0x0301 m [] [] (selectSource (decide (m.word 1 = 1)) t))
  ∧ Does .tickCntClear cmdTickCntClear (fun m t => clearBy 0x0303 m .tick t)
  ∧ Does .netCntClear cmdNetCntClear (fun m t => clearBy 0x0701 m (.mesh (m.word 0 % 2 ^ 32)) t)
  ∧ Stages .memWindowSet cmdMemWindowSet 0x0404 (fun m _ => [.bar2Base (m.word 1)]) (fun _ => [])
  ∧ Stages .linkSetAddr cmdLinkSetAddr 0x0800 (fun m _ => [.setAddr (BitVec.ofNat 9 (m.word 1)) (BitVec.ofNat 6 (m.word 2))]) (fun _ => [])
  ∧ Stages .thermCalibrate cmdThermCalibrate 0x0902 (fun m _ => [.calibrate (m.words.drop 1)]) (fun _ => [])

/-- R178, R183, R185, R187-R189, R205-R207, R390, R391, R53: the commands on sequences, plans, pools, pages and memory, with the
changes each stages for the commit; R186: an edit of a sequence's tables copies what it changes. The words of the arguments are the model's readings (logs 17, 34, 47, 66, 68, 69 and 74). -/
def Obligations.ObjectCommandsAccepted : Prop :=
  Stages .seqOpen cmdSeqOpen 0x0100 (fun m t => [.seqOpen m.seqSlot (seqOf m.session.toNat (t.mbFn m.mb) (structBytes m))]) (fun _ => [])
  ∧ Stages .seqClose cmdSeqClose 0x0101 (fun m _ => [.seqClose m.seqSlot]) (fun _ => [])
  ∧ Stages .seqHold cmdSeqHold 0x0102 (fun m _ => [.seqHold m.seqSlot]) (fun _ => [])
  ∧ Stages .seqRelease cmdSeqRelease 0x0103 (fun m _ => [.seqRelease m.seqSlot]) (fun _ => [])
  ∧ Does .seqIngest cmdSeqIngest runIngest
  ∧ Stages .planLoad cmdPlanLoad 0x0200 planLoadChange  planHash
  ∧ Stages .planUnload cmdPlanUnload 0x0201 (fun m _ => [.planUnload (m.word 0 % 2 ^ 32)]) (fun _ => [])
  ∧ Does .planAdmit cmdPlanAdmit (runAdmit 0x0202) ∧ Does .planResume cmdPlanResume (runAdmit 0x0204)
  ∧ Does .planSuspend cmdPlanSuspend runSuspend
  ∧ Stages .kvLayoutSet cmdKvLayoutSet 0x0500 layoutChange (fun _ => [])
  ∧ Stages .kvPoolCreate cmdKvPoolCreate 0x0501 (fun m t => [.poolCreate (m.word 0 % 2 ^ 32) (poolOf m t)]) (fun _ => [])
  ∧ Stages .kvPoolDestroy cmdKvPoolDestroy 0x0502 (fun m _ => [.poolDestroy (m.word 0 % 2 ^ 32)]) (fun _ => [])
  ∧ Edits .kvFork cmdKvFork 0x0503 (fun m => .fork m.seqSlot (m.word 1) (m.word 2))
  ∧ Edits .kvTruncate cmdKvTruncate 0x0504 (fun m => .truncate m.seqSlot (m.word 1))
  ∧ Edits .kvRetirePages cmdKvRetirePages 0x0505 (fun m => .retirePages m.seqSlot (m.word 1) (m.word 2) (m.word 3))
  ∧ Edits .kvMap cmdKvMap 0x0506 (fun m => .kvMap m.seqSlot (m.word 1) (m.word 2) (mapEntry m))
  ∧ Edits .kvUnmap cmdKvUnmap 0x0507 (fun m => .kvUnmap m.seqSlot (m.word 1) (m.word 2))
  ∧ Stages .kvRetireFrame cmdKvRetireFrame 0x0509 (fun m t => [.retireFrame (m.word 1) (t.spareFor (m.word 1))]) (fun _ => [])
  ∧ Stages .kvRepage cmdKvRepage 0x050A (fun m t => [repageChange m t]) (fun _ => [])
  ∧ Stages .kvRehome cmdKvRehome 0x050B (fun m _ => [rehomeChange m]) (fun _ => [])
  ∧ Stages .kvRestore cmdKvRestore 0x050C (fun m _ => [.kvRestore m.seqSlot (structBytes m)]) (fun _ => [])
  ∧ Does .kvDigest cmdKvDigest runDigest
  ∧ Does .memRead cmdMemRead runMemRead
  ∧ Stages .memWrite cmdMemWrite 0x0401
      (fun m _ => if m.bufLen 1 = 0 then [] else [.memWrite m.mb (m.word 0) (m.buf (m.bufLen 1))]) (fun _ => [])
  ∧ Does .memFence cmdMemFence (fun m t => complete 0x0402 m .ok 0 0 [] t)

/-- R215, R222, R225, R226, R269, R271, R337-R339, R312, R390: the commands of evidence, links, power and faults. R381-R387,
R397-R418, R421-R426: the commands of sessions, identity, debug and firmware. The words of the arguments, and what a command already
done leaves, are the model's readings (logs 17, 55, 57, 58, 59, 61, 62, 64 and 71). -/
def Obligations.DeviceAndSecurityCommandsAccepted : Prop :=
  (
    Stages .evdCapture cmdEvdCapture 0x0600 (fun m _ => [.capture (m.word 0 % 2 ^ 32) (decide (m.word 1 = 1))]) (fun _ => [])
    ∧ Does .evdSeal cmdEvdSeal (fun m t =>
        if t.canSign then accept 0x0601 m [.seal] [] t else answerWith m.mb .limit (accept 0x0601 m [.seal] [] t))
    ∧ Stages .evdAck cmdEvdAck 0x0605 (fun m _ => ackChanges m) (fun _ => [])
    ∧ Stages .evdReplayBegin cmdEvdReplayBegin 0x0607 (fun m _ => [.replayBegin (m.word 1) (baseHead m)]) (fun _ => [])
    ∧ Does .evdReplayTick cmdEvdReplayTick runReplayTick
    ∧ Stages .evdReplayEnd cmdEvdReplayEnd 0x0609 (fun _ _ => [.replayEnd]) (fun _ => [])
    ∧ Does .linkRetrain cmdLinkRetrain (fun m t =>
        isolate (m.word 0 % 2 ^ 32) 5 (accept 0x0801 m [.retrain (m.word 0 % 2 ^ 32)] [] t))
    ∧ Stages .linkRejoin cmdLinkRejoin 0x0802
        (fun m t => if (t.stackAt (m.word 0 % 2 ^ 32)).isolated.isSome then [.rejoin (m.word 0 % 2 ^ 32)] else []) (fun _ => [])
    ∧ Does .pwrState cmdPwrState (fun m t =>
        if t.power.state = .rack then complete 0x0A00 m .ok 0 0 [] { t with power := { t.power with rackLatch := false } }
        else accept 0x0A00 m [.pwrState (m.word 1)] [] t)
    ∧ Stages .pwrGate cmdPwrGate 0x0A01 (fun m t =>
        let d := m.word 0 % 2 ^ 32
        if t.power.off.contains d || t.changes.contains (.gate d) then [] else [.gate d]) (fun _ => [])
    ∧ Stages .pwrUngate cmdPwrUngate 0x0A02 (fun m t =>
        let d := m.word 0 % 2 ^ 32
        if !t.power.off.contains d || t.power.ungating.contains d || t.power.joining.contains d || t.changes.contains (.ungate d) then []
        else [.ungate d]) (fun _ => [])
    ∧ Stages .pwrClockHalf cmdPwrClockHalf 0x0A03 (fun m _ => [.clockHalf (m.obj 3) (m.word 1) (decide (m.word 2 = 1))]) (fun _ => [])
    ∧ Stages .pwrStackOff cmdPwrStackOff 0x0A04
        (fun m t => if (t.stackAt (m.word 0 % 2 ^ 32)).status = 2 then [] else [.stackOff (m.word 0 % 2 ^ 32)]) (fun _ => [])
    ∧ Stages .pwrStackOn cmdPwrStackOn 0x0A05
        (fun m t => if (t.stackAt (m.word 0 % 2 ^ 32)).status = 2 then [.stackOn (m.word 0 % 2 ^ 32)] else []) (fun _ => [])
    ∧ Stages .faultRetire cmdFaultRetire 0x0B02
        (fun m t => if t.isRetired (2048 * (m.word 0 % 2 ^ 32)) then [] else [.retireGranule (2048 * (m.word 0 % 2 ^ 32))]) (fun _ => [])
    ∧ Stages .faultScrub cmdFaultScrub 0x0B03 (fun m _ => [.scrubPause (decide (m.word 1 = 1))]) (fun _ => [])
    ∧ Stages .faultInject cmdFaultInject 0x0B04 (fun m _ => match injectOf m with | some c => [c] | none => []) (fun _ => [])
    ∧ Stages .faultDramFuse cmdFaultDramFuse 0x0B05
        (fun m _ => [.dramFuse (256 * (m.word 0 % 2 ^ 32) + m.word 1) (m.word 2 / 2048) (m.word 2 % 2048)]) (fun _ => []))
  ∧ (
    Does .secSessionOpen cmdSecSessionOpen runOpen
    ∧ Stages .secSessionClose cmdSecSessionClose 0x0C01
        (fun m _ => [.sessionClose (if m.word 0 = 0 then m.session.toNat else m.word 0 % 2 ^ 32)]) (fun _ => [])
    ∧ Stages .secSessionAdopt cmdSecSessionAdopt 0x0C02 (fun m _ => [.adopt m.session.toNat]) (fun _ => [])
    ∧ Stages .secFunctionLimit cmdSecFunctionLimit 0x0C04 (fun m _ => [.ceiling (m.word 0 % 2 ^ 32) (BitVec.ofNat 32 (m.word 1))]) (fun _ => [])
    ∧ Stages .secMailboxAssign cmdSecMailboxAssign 0x0C05 (fun m _ => [.assign (m.word 0 % 2 ^ 32) (m.word 1)]) (fun _ => [])
    ∧ Stages .secExpertOpen cmdSecExpertOpen 0x0C06 (fun m _ => [.expertOpen m.session.toNat (decide (m.word 1 = 1))]) (fun _ => [])
    ∧ Stages .secExpertClose cmdSecExpertClose 0x0C07 (fun m _ => [.expertClose m.session.toNat (decide (m.word 1 = 1))]) (fun _ => [])
    ∧ Does .secNonce cmdSecNonce (fun m t =>
        let b := slice (Config.random t.fresh) 0 32
        complete 0x0C10 m .ok 0 0 (bodyWords 4 b)
          { t with fresh := t.fresh + 1, nonces := Tab.set t.nonces (t.mbFn m.mb) (t.seqr.time, b) })
    ∧ Does .secQuote cmdSecQuote (fun m t =>
        let u := t.setMb m.mb { t.mbAt m.mb with served := true }
        { u with quotes := u.quotes ++ [{ mb := m.mb, seq := m.seq, nonce := (List.range 4).flatMap fun i => leBytes 8 (m.word i),
                                          bufLen := m.bufLen 4, msg := none, dmaWr := m.dmaWr }] })
    ∧ Stages .secProvision cmdSecProvision 0x0C13 (fun _ _ => [.provision]) (fun _ => bodyWords 9 (slice Config.identityKey 0 68))
    ∧ Stages .secCertInstall cmdSecCertInstall 0x0C14 (fun m _ => [.certInstall (slice (structBytes m) 0 18613)]) (fun _ => [])
    ∧ Stages .secDeploy cmdSecDeploy 0x0C15 (fun m _ => [.deploy (slice (structBytes m) 0 80)]) (fun _ => [])
    ∧ Stages .secReturn cmdSecReturn 0x0C16 (fun m _ => [.toReturned m.session.toNat]) (fun _ => [])
    ∧ Stages .secSvnCommit cmdSecSvnCommit 0x0C17 (fun _ _ => [.svnCommit]) (fun _ => [])
    ∧ Does .dbgRead cmdDbgRead (fun m t =>
        let r := t.dbgBytes t.fresh m (m.bufLen 1)
        completeData 0x0D00 m (if r.2 then .poison else .ok) (m.bufLen 1) [] r.1 { t with fresh := t.fresh + 1 })
    ∧ Stages .dbgWrite cmdDbgWrite 0x0D01 (fun m _ => [.dbgWrite 0 (m.buf 64)]) (fun _ => [])
    ∧ Does .dbgScan cmdDbgScan (fun m t =>
        completeData 0x0D02 m .ok (m.bufLen 1) [] (slice (Config.scanBytes t.fresh) 0 (m.bufLen 1))
          (scanReset (m.word 0 % 2 ^ 32) { t with fresh := t.fresh + 1 }))
    ∧ Stages .dbgTapOpen cmdDbgTapOpen 0x0D03 (fun m _ => [.tapOpen m.session.toNat]) (fun _ => [])
    ∧ Stages .dbgClose cmdDbgClose 0x0D04 (fun m _ => [.dbgClose m.session.toNat]) (fun _ => [])
    ∧ Does .fwLoad cmdFwLoad (fun m t => passP7 (imageOf m) (measure (imageOf m)) (field (imageOf m) 8 4)
        (complete 0x0E00 m .ok 0 0 (bodyWords 4 (measure (imageOf m))) t))
    ∧ Does .fwReplace cmdFwReplace (fun m t => complete 0x0E01 m .ok 0 0 (bodyWords 4 (measure (imageOf m)))
        { t with hearth := { t.hearth with
            staged := some ⟨m.session.toNat, measure (imageOf m), field (imageOf m) 8 4, imageOf m, t.seqr.time⟩ } })
    ∧ Does .fwActivate cmdFwActivate (fun m t =>
        let u := t.setMb m.mb { t.mbAt m.mb with served := true }
        { u with changes := u.changes ++ [.fwActivate m.mb], cmds := u.cmds ++ [cmdRecord m t], hearth := { u.hearth with handover := some m.mb } }))
end

