-- ==== Sys2Proof/Laws/State.lean ====
section
/-! SUPPORT. What each named update of the state leaves in each field. -/

namespace Sys2Proof.Machine

open Sys2Proof

/-! ## setCore -/

section

variable (s : State) (c : Lcid) (k : CoreCtx)

@[simp] theorem State.setCore_pending : (s.setCore c k).pending = s.pending := rfl
@[simp] theorem State.setCore_fresh : (s.setCore c k).fresh = s.fresh := rfl
@[simp] theorem State.setCore_seqr : (s.setCore c k).seqr = s.seqr := rfl
@[simp] theorem State.setCore_work : (s.setCore c k).work = s.work := rfl
@[simp] theorem State.setCore_devIncs : (s.setCore c k).devIncs = s.devIncs := rfl
@[simp] theorem State.setCore_devPerfs : (s.setCore c k).devPerfs = s.devPerfs := rfl
@[simp] theorem State.setCore_devEvents : (s.setCore c k).devEvents = s.devEvents := rfl
@[simp] theorem State.setCore_counters : (s.setCore c k).counters = s.counters := rfl
@[simp] theorem State.setCore_perfs : (s.setCore c k).perfs = s.perfs := rfl
@[simp] theorem State.setCore_clears : (s.setCore c k).clears = s.clears := rfl
@[simp] theorem State.setCore_perfClears : (s.setCore c k).perfClears = s.perfClears := rfl
@[simp] theorem State.setCore_changes : (s.setCore c k).changes = s.changes := rfl
@[simp] theorem State.setCore_regWrites : (s.setCore c k).regWrites = s.regWrites := rfl
@[simp] theorem State.setCore_answers : (s.setCore c k).answers = s.answers := rfl
@[simp] theorem State.setCore_cmds : (s.setCore c k).cmds = s.cmds := rfl
@[simp] theorem State.setCore_plans : (s.setCore c k).plans = s.plans := rfl
@[simp] theorem State.setCore_admissions : (s.setCore c k).admissions = s.admissions := rfl
@[simp] theorem State.setCore_cores : (s.setCore c k).cores = Tab.set s.cores c.toNat k := rfl
@[simp] theorem State.setCore_crumbUnits : (s.setCore c k).crumbUnits = s.crumbUnits := rfl
@[simp] theorem State.setCore_dram : (s.setCore c k).dram = s.dram := rfl
@[simp] theorem State.setCore_words : (s.setCore c k).words = s.words := rfl
@[simp] theorem State.setCore_lostStacks : (s.setCore c k).lostStacks = s.lostStacks := rfl
@[simp] theorem State.setCore_rows : (s.setCore c k).rows = s.rows := rfl
@[simp] theorem State.setCore_newRows : (s.setCore c k).newRows = s.newRows := rfl
@[simp] theorem State.setCore_fpGen : (s.setCore c k).fpGen = s.fpGen := rfl
@[simp] theorem State.setCore_fpTick : (s.setCore c k).fpTick = s.fpTick := rfl
@[simp] theorem State.setCore_fpFlags : (s.setCore c k).fpFlags = s.fpFlags := rfl
@[simp] theorem State.setCore_fpLive : (s.setCore c k).fpLive = s.fpLive := rfl
@[simp] theorem State.setCore_stk : (s.setCore c k).stk = s.stk := rfl
@[simp] theorem State.setCore_ports : (s.setCore c k).ports = s.ports := rfl
@[simp] theorem State.setCore_rings : (s.setCore c k).rings = s.rings := rfl
@[simp] theorem State.setCore_accepted : (s.setCore c k).accepted = s.accepted := rfl
@[simp] theorem State.setCore_tlinkOut : (s.setCore c k).tlinkOut = s.tlinkOut := rfl
@[simp] theorem State.setCore_tlinkHeld : (s.setCore c k).tlinkHeld = s.tlinkHeld := rfl
@[simp] theorem State.setCore_heldAway : (s.setCore c k).heldAway = s.heldAway := rfl
@[simp] theorem State.setCore_quads : (s.setCore c k).quads = s.quads := rfl
@[simp] theorem State.setCore_therm : (s.setCore c k).therm = s.therm := rfl
@[simp] theorem State.setCore_power : (s.setCore c k).power = s.power := rfl
@[simp] theorem State.setCore_cfg : (s.setCore c k).cfg = s.cfg := rfl
@[simp] theorem State.setCore_layouts : (s.setCore c k).layouts = s.layouts := rfl
@[simp] theorem State.setCore_layoutOwners : (s.setCore c k).layoutOwners = s.layoutOwners := rfl
@[simp] theorem State.setCore_pools : (s.setCore c k).pools = s.pools := rfl
@[simp] theorem State.setCore_descs : (s.setCore c k).descs = s.descs := rfl
@[simp] theorem State.setCore_seqs : (s.setCore c k).seqs = s.seqs := rfl
@[simp] theorem State.setCore_tables : (s.setCore c k).tables = s.tables := rfl
@[simp] theorem State.setCore_shadows : (s.setCore c k).shadows = s.shadows := rfl
@[simp] theorem State.setCore_layoutCopies : (s.setCore c k).layoutCopies = s.layoutCopies := rfl
@[simp] theorem State.setCore_journal : (s.setCore c k).journal = s.journal := rfl
@[simp] theorem State.setCore_jpend : (s.setCore c k).jpend = s.jpend := rfl
@[simp] theorem State.setCore_nextJournal : (s.setCore c k).nextJournal = s.nextJournal := rfl
@[simp] theorem State.setCore_flits : (s.setCore c k).flits = s.flits := rfl
@[simp] theorem State.setCore_frames : (s.setCore c k).frames = s.frames := rfl
@[simp] theorem State.setCore_fseqs : (s.setCore c k).fseqs = s.fseqs := rfl
@[simp] theorem State.setCore_foldBuf : (s.setCore c k).foldBuf = s.foldBuf := rfl
@[simp] theorem State.setCore_absorbed : (s.setCore c k).absorbed = s.absorbed := rfl
@[simp] theorem State.setCore_edgeCredits : (s.setCore c k).edgeCredits = s.edgeCredits := rfl
@[simp] theorem State.setCore_slots : (s.setCore c k).slots = s.slots := rfl
@[simp] theorem State.setCore_records : (s.setCore c k).records = s.records := rfl
@[simp] theorem State.setCore_links : (s.setCore c k).links = s.links := rfl
@[simp] theorem State.setCore_seals : (s.setCore c k).seals = s.seals := rfl
@[simp] theorem State.setCore_sealAsked : (s.setCore c k).sealAsked = s.sealAsked := rfl
@[simp] theorem State.setCore_sealed : (s.setCore c k).sealed = s.sealed := rfl
@[simp] theorem State.setCore_sealNext : (s.setCore c k).sealNext = s.sealNext := rfl
@[simp] theorem State.setCore_chain : (s.setCore c k).chain = s.chain := rfl
@[simp] theorem State.setCore_linkCount : (s.setCore c k).linkCount = s.linkCount := rfl
@[simp] theorem State.setCore_chainTick : (s.setCore c k).chainTick = s.chainTick := rfl
@[simp] theorem State.setCore_markers : (s.setCore c k).markers = s.markers := rfl
@[simp] theorem State.setCore_ledgers : (s.setCore c k).ledgers = s.ledgers := rfl
@[simp] theorem State.setCore_cmdLog : (s.setCore c k).cmdLog = s.cmdLog := rfl
@[simp] theorem State.setCore_replay : (s.setCore c k).replay = s.replay := rfl
@[simp] theorem State.setCore_replayChanges : (s.setCore c k).replayChanges = s.replayChanges := rfl
@[simp] theorem State.setCore_evdLow : (s.setCore c k).evdLow = s.evdLow := rfl
@[simp] theorem State.setCore_teleStack : (s.setCore c k).teleStack = s.teleStack := rfl
@[simp] theorem State.setCore_teleDev : (s.setCore c k).teleDev = s.teleDev := rfl
@[simp] theorem State.setCore_staging : (s.setCore c k).staging = s.staging := rfl
@[simp] theorem State.setCore_stagedTo : (s.setCore c k).stagedTo = s.stagedTo := rfl
@[simp] theorem State.setCore_logNext : (s.setCore c k).logNext = s.logNext := rfl
@[simp] theorem State.setCore_faultMap : (s.setCore c k).faultMap = s.faultMap := rfl
@[simp] theorem State.setCore_mapDirty : (s.setCore c k).mapDirty = s.mapDirty := rfl
@[simp] theorem State.setCore_drain : (s.setCore c k).drain = s.drain := rfl
@[simp] theorem State.setCore_drainPend : (s.setCore c k).drainPend = s.drainPend := rfl
@[simp] theorem State.setCore_scrubPaused : (s.setCore c k).scrubPaused = s.scrubPaused := rfl
@[simp] theorem State.setCore_scrubPausedAt : (s.setCore c k).scrubPausedAt = s.scrubPausedAt := rfl
@[simp] theorem State.setCore_scrubPassTick : (s.setCore c k).scrubPassTick = s.scrubPassTick := rfl
@[simp] theorem State.setCore_inject : (s.setCore c k).inject = s.inject := rfl
@[simp] theorem State.setCore_scrubbed : (s.setCore c k).scrubbed = s.scrubbed := rfl
@[simp] theorem State.setCore_rereads : (s.setCore c k).rereads = s.rereads := rfl
@[simp] theorem State.setCore_lastingWords : (s.setCore c k).lastingWords = s.lastingWords := rfl
@[simp] theorem State.setCore_injWords : (s.setCore c k).injWords = s.injWords := rfl
@[simp] theorem State.setCore_lastPass : (s.setCore c k).lastPass = s.lastPass := rfl
@[simp] theorem State.setCore_corrected : (s.setCore c k).corrected = s.corrected := rfl
@[simp] theorem State.setCore_mailboxes : (s.setCore c k).mailboxes = s.mailboxes := rfl
@[simp] theorem State.setCore_sessions : (s.setCore c k).sessions = s.sessions := rfl
@[simp] theorem State.setCore_host : (s.setCore c k).host = s.host := rfl
@[simp] theorem State.setCore_eventLog : (s.setCore c k).eventLog = s.eventLog := rfl
@[simp] theorem State.setCore_nextEvent : (s.setCore c k).nextEvent = s.nextEvent := rfl
@[simp] theorem State.setCore_heldEvents : (s.setCore c k).heldEvents = s.heldEvents := rfl
@[simp] theorem State.setCore_hearth : (s.setCore c k).hearth = s.hearth := rfl
@[simp] theorem State.setCore_debugLevel : (s.setCore c k).debugLevel = s.debugLevel := rfl
@[simp] theorem State.setCore_tapOpen : (s.setCore c k).tapOpen = s.tapOpen := rfl
@[simp] theorem State.setCore_nonces : (s.setCore c k).nonces = s.nonces := rfl
@[simp] theorem State.setCore_quotes : (s.setCore c k).quotes = s.quotes := rfl
@[simp] theorem State.setCore_signingStopped : (s.setCore c k).signingStopped = s.signingStopped := rfl
@[simp] theorem State.setCore_dbg : (s.setCore c k).dbg = s.dbg := rfl
@[simp] theorem State.setCore_fuses : (s.setCore c k).fuses = s.fuses := rfl
@[simp] theorem State.setCore_mram : (s.setCore c k).mram = s.mram := rfl
@[simp] theorem State.setCore_boot : (s.setCore c k).boot = s.boot := rfl
@[simp] theorem State.setCore_pins : (s.setCore c k).pins = s.pins := rfl
@[simp] theorem State.setCore_sliceReset : (s.setCore c k).sliceReset = s.sliceReset := rfl
@[simp] theorem State.setCore_quadReset : (s.setCore c k).quadReset = s.quadReset := rfl

end

/-! ## setCrumb -/

section

variable (s : State) (u : UnitId) (v : CrumbUnit)

@[simp] theorem State.setCrumb_pending : (s.setCrumb u v).pending = s.pending := rfl
@[simp] theorem State.setCrumb_fresh : (s.setCrumb u v).fresh = s.fresh := rfl
@[simp] theorem State.setCrumb_seqr : (s.setCrumb u v).seqr = s.seqr := rfl
@[simp] theorem State.setCrumb_work : (s.setCrumb u v).work = s.work := rfl
@[simp] theorem State.setCrumb_devIncs : (s.setCrumb u v).devIncs = s.devIncs := rfl
@[simp] theorem State.setCrumb_devPerfs : (s.setCrumb u v).devPerfs = s.devPerfs := rfl
@[simp] theorem State.setCrumb_devEvents : (s.setCrumb u v).devEvents = s.devEvents := rfl
@[simp] theorem State.setCrumb_counters : (s.setCrumb u v).counters = s.counters := rfl
@[simp] theorem State.setCrumb_perfs : (s.setCrumb u v).perfs = s.perfs := rfl
@[simp] theorem State.setCrumb_clears : (s.setCrumb u v).clears = s.clears := rfl
@[simp] theorem State.setCrumb_perfClears : (s.setCrumb u v).perfClears = s.perfClears := rfl
@[simp] theorem State.setCrumb_changes : (s.setCrumb u v).changes = s.changes := rfl
@[simp] theorem State.setCrumb_regWrites : (s.setCrumb u v).regWrites = s.regWrites := rfl
@[simp] theorem State.setCrumb_answers : (s.setCrumb u v).answers = s.answers := rfl
@[simp] theorem State.setCrumb_cmds : (s.setCrumb u v).cmds = s.cmds := rfl
@[simp] theorem State.setCrumb_plans : (s.setCrumb u v).plans = s.plans := rfl
@[simp] theorem State.setCrumb_admissions : (s.setCrumb u v).admissions = s.admissions := rfl
@[simp] theorem State.setCrumb_cores : (s.setCrumb u v).cores = s.cores := rfl
@[simp] theorem State.setCrumb_crumbUnits : (s.setCrumb u v).crumbUnits = Tab.set s.crumbUnits (48 * u.slice + u.bank) v := rfl
@[simp] theorem State.setCrumb_dram : (s.setCrumb u v).dram = s.dram := rfl
@[simp] theorem State.setCrumb_words : (s.setCrumb u v).words = s.words := rfl
@[simp] theorem State.setCrumb_lostStacks : (s.setCrumb u v).lostStacks = s.lostStacks := rfl
@[simp] theorem State.setCrumb_rows : (s.setCrumb u v).rows = s.rows := rfl
@[simp] theorem State.setCrumb_newRows : (s.setCrumb u v).newRows = s.newRows := rfl
@[simp] theorem State.setCrumb_fpGen : (s.setCrumb u v).fpGen = s.fpGen := rfl
@[simp] theorem State.setCrumb_fpTick : (s.setCrumb u v).fpTick = s.fpTick := rfl
@[simp] theorem State.setCrumb_fpFlags : (s.setCrumb u v).fpFlags = s.fpFlags := rfl
@[simp] theorem State.setCrumb_fpLive : (s.setCrumb u v).fpLive = s.fpLive := rfl
@[simp] theorem State.setCrumb_stk : (s.setCrumb u v).stk = s.stk := rfl
@[simp] theorem State.setCrumb_ports : (s.setCrumb u v).ports = s.ports := rfl
@[simp] theorem State.setCrumb_rings : (s.setCrumb u v).rings = s.rings := rfl
@[simp] theorem State.setCrumb_accepted : (s.setCrumb u v).accepted = s.accepted := rfl
@[simp] theorem State.setCrumb_tlinkOut : (s.setCrumb u v).tlinkOut = s.tlinkOut := rfl
@[simp] theorem State.setCrumb_tlinkHeld : (s.setCrumb u v).tlinkHeld = s.tlinkHeld := rfl
@[simp] theorem State.setCrumb_heldAway : (s.setCrumb u v).heldAway = s.heldAway := rfl
@[simp] theorem State.setCrumb_quads : (s.setCrumb u v).quads = s.quads := rfl
@[simp] theorem State.setCrumb_therm : (s.setCrumb u v).therm = s.therm := rfl
@[simp] theorem State.setCrumb_power : (s.setCrumb u v).power = s.power := rfl
@[simp] theorem State.setCrumb_cfg : (s.setCrumb u v).cfg = s.cfg := rfl
@[simp] theorem State.setCrumb_layouts : (s.setCrumb u v).layouts = s.layouts := rfl
@[simp] theorem State.setCrumb_layoutOwners : (s.setCrumb u v).layoutOwners = s.layoutOwners := rfl
@[simp] theorem State.setCrumb_pools : (s.setCrumb u v).pools = s.pools := rfl
@[simp] theorem State.setCrumb_descs : (s.setCrumb u v).descs = s.descs := rfl
@[simp] theorem State.setCrumb_seqs : (s.setCrumb u v).seqs = s.seqs := rfl
@[simp] theorem State.setCrumb_tables : (s.setCrumb u v).tables = s.tables := rfl
@[simp] theorem State.setCrumb_shadows : (s.setCrumb u v).shadows = s.shadows := rfl
@[simp] theorem State.setCrumb_layoutCopies : (s.setCrumb u v).layoutCopies = s.layoutCopies := rfl
@[simp] theorem State.setCrumb_journal : (s.setCrumb u v).journal = s.journal := rfl
@[simp] theorem State.setCrumb_jpend : (s.setCrumb u v).jpend = s.jpend := rfl
@[simp] theorem State.setCrumb_nextJournal : (s.setCrumb u v).nextJournal = s.nextJournal := rfl
@[simp] theorem State.setCrumb_flits : (s.setCrumb u v).flits = s.flits := rfl
@[simp] theorem State.setCrumb_frames : (s.setCrumb u v).frames = s.frames := rfl
@[simp] theorem State.setCrumb_fseqs : (s.setCrumb u v).fseqs = s.fseqs := rfl
@[simp] theorem State.setCrumb_foldBuf : (s.setCrumb u v).foldBuf = s.foldBuf := rfl
@[simp] theorem State.setCrumb_absorbed : (s.setCrumb u v).absorbed = s.absorbed := rfl
@[simp] theorem State.setCrumb_edgeCredits : (s.setCrumb u v).edgeCredits = s.edgeCredits := rfl
@[simp] theorem State.setCrumb_slots : (s.setCrumb u v).slots = s.slots := rfl
@[simp] theorem State.setCrumb_records : (s.setCrumb u v).records = s.records := rfl
@[simp] theorem State.setCrumb_links : (s.setCrumb u v).links = s.links := rfl
@[simp] theorem State.setCrumb_seals : (s.setCrumb u v).seals = s.seals := rfl
@[simp] theorem State.setCrumb_sealAsked : (s.setCrumb u v).sealAsked = s.sealAsked := rfl
@[simp] theorem State.setCrumb_sealed : (s.setCrumb u v).sealed = s.sealed := rfl
@[simp] theorem State.setCrumb_sealNext : (s.setCrumb u v).sealNext = s.sealNext := rfl
@[simp] theorem State.setCrumb_chain : (s.setCrumb u v).chain = s.chain := rfl
@[simp] theorem State.setCrumb_linkCount : (s.setCrumb u v).linkCount = s.linkCount := rfl
@[simp] theorem State.setCrumb_chainTick : (s.setCrumb u v).chainTick = s.chainTick := rfl
@[simp] theorem State.setCrumb_markers : (s.setCrumb u v).markers = s.markers := rfl
@[simp] theorem State.setCrumb_ledgers : (s.setCrumb u v).ledgers = s.ledgers := rfl
@[simp] theorem State.setCrumb_cmdLog : (s.setCrumb u v).cmdLog = s.cmdLog := rfl
@[simp] theorem State.setCrumb_replay : (s.setCrumb u v).replay = s.replay := rfl
@[simp] theorem State.setCrumb_replayChanges : (s.setCrumb u v).replayChanges = s.replayChanges := rfl
@[simp] theorem State.setCrumb_evdLow : (s.setCrumb u v).evdLow = s.evdLow := rfl
@[simp] theorem State.setCrumb_teleStack : (s.setCrumb u v).teleStack = s.teleStack := rfl
@[simp] theorem State.setCrumb_teleDev : (s.setCrumb u v).teleDev = s.teleDev := rfl
@[simp] theorem State.setCrumb_staging : (s.setCrumb u v).staging = s.staging := rfl
@[simp] theorem State.setCrumb_stagedTo : (s.setCrumb u v).stagedTo = s.stagedTo := rfl
@[simp] theorem State.setCrumb_logNext : (s.setCrumb u v).logNext = s.logNext := rfl
@[simp] theorem State.setCrumb_faultMap : (s.setCrumb u v).faultMap = s.faultMap := rfl
@[simp] theorem State.setCrumb_mapDirty : (s.setCrumb u v).mapDirty = s.mapDirty := rfl
@[simp] theorem State.setCrumb_drain : (s.setCrumb u v).drain = s.drain := rfl
@[simp] theorem State.setCrumb_drainPend : (s.setCrumb u v).drainPend = s.drainPend := rfl
@[simp] theorem State.setCrumb_scrubPaused : (s.setCrumb u v).scrubPaused = s.scrubPaused := rfl
@[simp] theorem State.setCrumb_scrubPausedAt : (s.setCrumb u v).scrubPausedAt = s.scrubPausedAt := rfl
@[simp] theorem State.setCrumb_scrubPassTick : (s.setCrumb u v).scrubPassTick = s.scrubPassTick := rfl
@[simp] theorem State.setCrumb_inject : (s.setCrumb u v).inject = s.inject := rfl
@[simp] theorem State.setCrumb_scrubbed : (s.setCrumb u v).scrubbed = s.scrubbed := rfl
@[simp] theorem State.setCrumb_rereads : (s.setCrumb u v).rereads = s.rereads := rfl
@[simp] theorem State.setCrumb_lastingWords : (s.setCrumb u v).lastingWords = s.lastingWords := rfl
@[simp] theorem State.setCrumb_injWords : (s.setCrumb u v).injWords = s.injWords := rfl
@[simp] theorem State.setCrumb_lastPass : (s.setCrumb u v).lastPass = s.lastPass := rfl
@[simp] theorem State.setCrumb_corrected : (s.setCrumb u v).corrected = s.corrected := rfl
@[simp] theorem State.setCrumb_mailboxes : (s.setCrumb u v).mailboxes = s.mailboxes := rfl
@[simp] theorem State.setCrumb_sessions : (s.setCrumb u v).sessions = s.sessions := rfl
@[simp] theorem State.setCrumb_host : (s.setCrumb u v).host = s.host := rfl
@[simp] theorem State.setCrumb_eventLog : (s.setCrumb u v).eventLog = s.eventLog := rfl
@[simp] theorem State.setCrumb_nextEvent : (s.setCrumb u v).nextEvent = s.nextEvent := rfl
@[simp] theorem State.setCrumb_heldEvents : (s.setCrumb u v).heldEvents = s.heldEvents := rfl
@[simp] theorem State.setCrumb_hearth : (s.setCrumb u v).hearth = s.hearth := rfl
@[simp] theorem State.setCrumb_debugLevel : (s.setCrumb u v).debugLevel = s.debugLevel := rfl
@[simp] theorem State.setCrumb_tapOpen : (s.setCrumb u v).tapOpen = s.tapOpen := rfl
@[simp] theorem State.setCrumb_nonces : (s.setCrumb u v).nonces = s.nonces := rfl
@[simp] theorem State.setCrumb_quotes : (s.setCrumb u v).quotes = s.quotes := rfl
@[simp] theorem State.setCrumb_signingStopped : (s.setCrumb u v).signingStopped = s.signingStopped := rfl
@[simp] theorem State.setCrumb_dbg : (s.setCrumb u v).dbg = s.dbg := rfl
@[simp] theorem State.setCrumb_fuses : (s.setCrumb u v).fuses = s.fuses := rfl
@[simp] theorem State.setCrumb_mram : (s.setCrumb u v).mram = s.mram := rfl
@[simp] theorem State.setCrumb_boot : (s.setCrumb u v).boot = s.boot := rfl
@[simp] theorem State.setCrumb_pins : (s.setCrumb u v).pins = s.pins := rfl
@[simp] theorem State.setCrumb_sliceReset : (s.setCrumb u v).sliceReset = s.sliceReset := rfl
@[simp] theorem State.setCrumb_quadReset : (s.setCrumb u v).quadReset = s.quadReset := rfl

end

/-! ## setMb -/

section

variable (s : State) (n : Nat) (v : Mailbox)

@[simp] theorem State.setMb_pending : (s.setMb n v).pending = s.pending := rfl
@[simp] theorem State.setMb_fresh : (s.setMb n v).fresh = s.fresh := rfl
@[simp] theorem State.setMb_seqr : (s.setMb n v).seqr = s.seqr := rfl
@[simp] theorem State.setMb_work : (s.setMb n v).work = s.work := rfl
@[simp] theorem State.setMb_devIncs : (s.setMb n v).devIncs = s.devIncs := rfl
@[simp] theorem State.setMb_devPerfs : (s.setMb n v).devPerfs = s.devPerfs := rfl
@[simp] theorem State.setMb_devEvents : (s.setMb n v).devEvents = s.devEvents := rfl
@[simp] theorem State.setMb_counters : (s.setMb n v).counters = s.counters := rfl
@[simp] theorem State.setMb_perfs : (s.setMb n v).perfs = s.perfs := rfl
@[simp] theorem State.setMb_clears : (s.setMb n v).clears = s.clears := rfl
@[simp] theorem State.setMb_perfClears : (s.setMb n v).perfClears = s.perfClears := rfl
@[simp] theorem State.setMb_changes : (s.setMb n v).changes = s.changes := rfl
@[simp] theorem State.setMb_regWrites : (s.setMb n v).regWrites = s.regWrites := rfl
@[simp] theorem State.setMb_answers : (s.setMb n v).answers = s.answers := rfl
@[simp] theorem State.setMb_cmds : (s.setMb n v).cmds = s.cmds := rfl
@[simp] theorem State.setMb_plans : (s.setMb n v).plans = s.plans := rfl
@[simp] theorem State.setMb_admissions : (s.setMb n v).admissions = s.admissions := rfl
@[simp] theorem State.setMb_cores : (s.setMb n v).cores = s.cores := rfl
@[simp] theorem State.setMb_crumbUnits : (s.setMb n v).crumbUnits = s.crumbUnits := rfl
@[simp] theorem State.setMb_dram : (s.setMb n v).dram = s.dram := rfl
@[simp] theorem State.setMb_words : (s.setMb n v).words = s.words := rfl
@[simp] theorem State.setMb_lostStacks : (s.setMb n v).lostStacks = s.lostStacks := rfl
@[simp] theorem State.setMb_rows : (s.setMb n v).rows = s.rows := rfl
@[simp] theorem State.setMb_newRows : (s.setMb n v).newRows = s.newRows := rfl
@[simp] theorem State.setMb_fpGen : (s.setMb n v).fpGen = s.fpGen := rfl
@[simp] theorem State.setMb_fpTick : (s.setMb n v).fpTick = s.fpTick := rfl
@[simp] theorem State.setMb_fpFlags : (s.setMb n v).fpFlags = s.fpFlags := rfl
@[simp] theorem State.setMb_fpLive : (s.setMb n v).fpLive = s.fpLive := rfl
@[simp] theorem State.setMb_stk : (s.setMb n v).stk = s.stk := rfl
@[simp] theorem State.setMb_ports : (s.setMb n v).ports = s.ports := rfl
@[simp] theorem State.setMb_rings : (s.setMb n v).rings = s.rings := rfl
@[simp] theorem State.setMb_accepted : (s.setMb n v).accepted = s.accepted := rfl
@[simp] theorem State.setMb_tlinkOut : (s.setMb n v).tlinkOut = s.tlinkOut := rfl
@[simp] theorem State.setMb_tlinkHeld : (s.setMb n v).tlinkHeld = s.tlinkHeld := rfl
@[simp] theorem State.setMb_heldAway : (s.setMb n v).heldAway = s.heldAway := rfl
@[simp] theorem State.setMb_quads : (s.setMb n v).quads = s.quads := rfl
@[simp] theorem State.setMb_therm : (s.setMb n v).therm = s.therm := rfl
@[simp] theorem State.setMb_power : (s.setMb n v).power = s.power := rfl
@[simp] theorem State.setMb_cfg : (s.setMb n v).cfg = s.cfg := rfl
@[simp] theorem State.setMb_layouts : (s.setMb n v).layouts = s.layouts := rfl
@[simp] theorem State.setMb_layoutOwners : (s.setMb n v).layoutOwners = s.layoutOwners := rfl
@[simp] theorem State.setMb_pools : (s.setMb n v).pools = s.pools := rfl
@[simp] theorem State.setMb_descs : (s.setMb n v).descs = s.descs := rfl
@[simp] theorem State.setMb_seqs : (s.setMb n v).seqs = s.seqs := rfl
@[simp] theorem State.setMb_tables : (s.setMb n v).tables = s.tables := rfl
@[simp] theorem State.setMb_shadows : (s.setMb n v).shadows = s.shadows := rfl
@[simp] theorem State.setMb_layoutCopies : (s.setMb n v).layoutCopies = s.layoutCopies := rfl
@[simp] theorem State.setMb_journal : (s.setMb n v).journal = s.journal := rfl
@[simp] theorem State.setMb_jpend : (s.setMb n v).jpend = s.jpend := rfl
@[simp] theorem State.setMb_nextJournal : (s.setMb n v).nextJournal = s.nextJournal := rfl
@[simp] theorem State.setMb_flits : (s.setMb n v).flits = s.flits := rfl
@[simp] theorem State.setMb_frames : (s.setMb n v).frames = s.frames := rfl
@[simp] theorem State.setMb_fseqs : (s.setMb n v).fseqs = s.fseqs := rfl
@[simp] theorem State.setMb_foldBuf : (s.setMb n v).foldBuf = s.foldBuf := rfl
@[simp] theorem State.setMb_absorbed : (s.setMb n v).absorbed = s.absorbed := rfl
@[simp] theorem State.setMb_edgeCredits : (s.setMb n v).edgeCredits = s.edgeCredits := rfl
@[simp] theorem State.setMb_slots : (s.setMb n v).slots = s.slots := rfl
@[simp] theorem State.setMb_records : (s.setMb n v).records = s.records := rfl
@[simp] theorem State.setMb_links : (s.setMb n v).links = s.links := rfl
@[simp] theorem State.setMb_seals : (s.setMb n v).seals = s.seals := rfl
@[simp] theorem State.setMb_sealAsked : (s.setMb n v).sealAsked = s.sealAsked := rfl
@[simp] theorem State.setMb_sealed : (s.setMb n v).sealed = s.sealed := rfl
@[simp] theorem State.setMb_sealNext : (s.setMb n v).sealNext = s.sealNext := rfl
@[simp] theorem State.setMb_chain : (s.setMb n v).chain = s.chain := rfl
@[simp] theorem State.setMb_linkCount : (s.setMb n v).linkCount = s.linkCount := rfl
@[simp] theorem State.setMb_chainTick : (s.setMb n v).chainTick = s.chainTick := rfl
@[simp] theorem State.setMb_markers : (s.setMb n v).markers = s.markers := rfl
@[simp] theorem State.setMb_ledgers : (s.setMb n v).ledgers = s.ledgers := rfl
@[simp] theorem State.setMb_cmdLog : (s.setMb n v).cmdLog = s.cmdLog := rfl
@[simp] theorem State.setMb_replay : (s.setMb n v).replay = s.replay := rfl
@[simp] theorem State.setMb_replayChanges : (s.setMb n v).replayChanges = s.replayChanges := rfl
@[simp] theorem State.setMb_evdLow : (s.setMb n v).evdLow = s.evdLow := rfl
@[simp] theorem State.setMb_teleStack : (s.setMb n v).teleStack = s.teleStack := rfl
@[simp] theorem State.setMb_teleDev : (s.setMb n v).teleDev = s.teleDev := rfl
@[simp] theorem State.setMb_staging : (s.setMb n v).staging = s.staging := rfl
@[simp] theorem State.setMb_stagedTo : (s.setMb n v).stagedTo = s.stagedTo := rfl
@[simp] theorem State.setMb_logNext : (s.setMb n v).logNext = s.logNext := rfl
@[simp] theorem State.setMb_faultMap : (s.setMb n v).faultMap = s.faultMap := rfl
@[simp] theorem State.setMb_mapDirty : (s.setMb n v).mapDirty = s.mapDirty := rfl
@[simp] theorem State.setMb_drain : (s.setMb n v).drain = s.drain := rfl
@[simp] theorem State.setMb_drainPend : (s.setMb n v).drainPend = s.drainPend := rfl
@[simp] theorem State.setMb_scrubPaused : (s.setMb n v).scrubPaused = s.scrubPaused := rfl
@[simp] theorem State.setMb_scrubPausedAt : (s.setMb n v).scrubPausedAt = s.scrubPausedAt := rfl
@[simp] theorem State.setMb_scrubPassTick : (s.setMb n v).scrubPassTick = s.scrubPassTick := rfl
@[simp] theorem State.setMb_inject : (s.setMb n v).inject = s.inject := rfl
@[simp] theorem State.setMb_scrubbed : (s.setMb n v).scrubbed = s.scrubbed := rfl
@[simp] theorem State.setMb_rereads : (s.setMb n v).rereads = s.rereads := rfl
@[simp] theorem State.setMb_lastingWords : (s.setMb n v).lastingWords = s.lastingWords := rfl
@[simp] theorem State.setMb_injWords : (s.setMb n v).injWords = s.injWords := rfl
@[simp] theorem State.setMb_lastPass : (s.setMb n v).lastPass = s.lastPass := rfl
@[simp] theorem State.setMb_corrected : (s.setMb n v).corrected = s.corrected := rfl
@[simp] theorem State.setMb_mailboxes : (s.setMb n v).mailboxes = Tab.set s.mailboxes n v := rfl
@[simp] theorem State.setMb_sessions : (s.setMb n v).sessions = s.sessions := rfl
@[simp] theorem State.setMb_host : (s.setMb n v).host = s.host := rfl
@[simp] theorem State.setMb_eventLog : (s.setMb n v).eventLog = s.eventLog := rfl
@[simp] theorem State.setMb_nextEvent : (s.setMb n v).nextEvent = s.nextEvent := rfl
@[simp] theorem State.setMb_heldEvents : (s.setMb n v).heldEvents = s.heldEvents := rfl
@[simp] theorem State.setMb_hearth : (s.setMb n v).hearth = s.hearth := rfl
@[simp] theorem State.setMb_debugLevel : (s.setMb n v).debugLevel = s.debugLevel := rfl
@[simp] theorem State.setMb_tapOpen : (s.setMb n v).tapOpen = s.tapOpen := rfl
@[simp] theorem State.setMb_nonces : (s.setMb n v).nonces = s.nonces := rfl
@[simp] theorem State.setMb_quotes : (s.setMb n v).quotes = s.quotes := rfl
@[simp] theorem State.setMb_signingStopped : (s.setMb n v).signingStopped = s.signingStopped := rfl
@[simp] theorem State.setMb_dbg : (s.setMb n v).dbg = s.dbg := rfl
@[simp] theorem State.setMb_fuses : (s.setMb n v).fuses = s.fuses := rfl
@[simp] theorem State.setMb_mram : (s.setMb n v).mram = s.mram := rfl
@[simp] theorem State.setMb_boot : (s.setMb n v).boot = s.boot := rfl
@[simp] theorem State.setMb_pins : (s.setMb n v).pins = s.pins := rfl
@[simp] theorem State.setMb_sliceReset : (s.setMb n v).sliceReset = s.sliceReset := rfl
@[simp] theorem State.setMb_quadReset : (s.setMb n v).quadReset = s.quadReset := rfl

end

/-! ## setStack -/

section

variable (s : State) (n : Nat) (v : Stack)

@[simp] theorem State.setStack_pending : (s.setStack n v).pending = s.pending := rfl
@[simp] theorem State.setStack_fresh : (s.setStack n v).fresh = s.fresh := rfl
@[simp] theorem State.setStack_seqr : (s.setStack n v).seqr = s.seqr := rfl
@[simp] theorem State.setStack_work : (s.setStack n v).work = s.work := rfl
@[simp] theorem State.setStack_devIncs : (s.setStack n v).devIncs = s.devIncs := rfl
@[simp] theorem State.setStack_devPerfs : (s.setStack n v).devPerfs = s.devPerfs := rfl
@[simp] theorem State.setStack_devEvents : (s.setStack n v).devEvents = s.devEvents := rfl
@[simp] theorem State.setStack_counters : (s.setStack n v).counters = s.counters := rfl
@[simp] theorem State.setStack_perfs : (s.setStack n v).perfs = s.perfs := rfl
@[simp] theorem State.setStack_clears : (s.setStack n v).clears = s.clears := rfl
@[simp] theorem State.setStack_perfClears : (s.setStack n v).perfClears = s.perfClears := rfl
@[simp] theorem State.setStack_changes : (s.setStack n v).changes = s.changes := rfl
@[simp] theorem State.setStack_regWrites : (s.setStack n v).regWrites = s.regWrites := rfl
@[simp] theorem State.setStack_answers : (s.setStack n v).answers = s.answers := rfl
@[simp] theorem State.setStack_cmds : (s.setStack n v).cmds = s.cmds := rfl
@[simp] theorem State.setStack_plans : (s.setStack n v).plans = s.plans := rfl
@[simp] theorem State.setStack_admissions : (s.setStack n v).admissions = s.admissions := rfl
@[simp] theorem State.setStack_cores : (s.setStack n v).cores = s.cores := rfl
@[simp] theorem State.setStack_crumbUnits : (s.setStack n v).crumbUnits = s.crumbUnits := rfl
@[simp] theorem State.setStack_dram : (s.setStack n v).dram = s.dram := rfl
@[simp] theorem State.setStack_words : (s.setStack n v).words = s.words := rfl
@[simp] theorem State.setStack_lostStacks : (s.setStack n v).lostStacks = s.lostStacks := rfl
@[simp] theorem State.setStack_rows : (s.setStack n v).rows = s.rows := rfl
@[simp] theorem State.setStack_newRows : (s.setStack n v).newRows = s.newRows := rfl
@[simp] theorem State.setStack_fpGen : (s.setStack n v).fpGen = s.fpGen := rfl
@[simp] theorem State.setStack_fpTick : (s.setStack n v).fpTick = s.fpTick := rfl
@[simp] theorem State.setStack_fpFlags : (s.setStack n v).fpFlags = s.fpFlags := rfl
@[simp] theorem State.setStack_fpLive : (s.setStack n v).fpLive = s.fpLive := rfl
@[simp] theorem State.setStack_stk : (s.setStack n v).stk = Tab.set s.stk n v := rfl
@[simp] theorem State.setStack_ports : (s.setStack n v).ports = s.ports := rfl
@[simp] theorem State.setStack_rings : (s.setStack n v).rings = s.rings := rfl
@[simp] theorem State.setStack_accepted : (s.setStack n v).accepted = s.accepted := rfl
@[simp] theorem State.setStack_tlinkOut : (s.setStack n v).tlinkOut = s.tlinkOut := rfl
@[simp] theorem State.setStack_tlinkHeld : (s.setStack n v).tlinkHeld = s.tlinkHeld := rfl
@[simp] theorem State.setStack_heldAway : (s.setStack n v).heldAway = s.heldAway := rfl
@[simp] theorem State.setStack_quads : (s.setStack n v).quads = s.quads := rfl
@[simp] theorem State.setStack_therm : (s.setStack n v).therm = s.therm := rfl
@[simp] theorem State.setStack_power : (s.setStack n v).power = s.power := rfl
@[simp] theorem State.setStack_cfg : (s.setStack n v).cfg = s.cfg := rfl
@[simp] theorem State.setStack_layouts : (s.setStack n v).layouts = s.layouts := rfl
@[simp] theorem State.setStack_layoutOwners : (s.setStack n v).layoutOwners = s.layoutOwners := rfl
@[simp] theorem State.setStack_pools : (s.setStack n v).pools = s.pools := rfl
@[simp] theorem State.setStack_descs : (s.setStack n v).descs = s.descs := rfl
@[simp] theorem State.setStack_seqs : (s.setStack n v).seqs = s.seqs := rfl
@[simp] theorem State.setStack_tables : (s.setStack n v).tables = s.tables := rfl
@[simp] theorem State.setStack_shadows : (s.setStack n v).shadows = s.shadows := rfl
@[simp] theorem State.setStack_layoutCopies : (s.setStack n v).layoutCopies = s.layoutCopies := rfl
@[simp] theorem State.setStack_journal : (s.setStack n v).journal = s.journal := rfl
@[simp] theorem State.setStack_jpend : (s.setStack n v).jpend = s.jpend := rfl
@[simp] theorem State.setStack_nextJournal : (s.setStack n v).nextJournal = s.nextJournal := rfl
@[simp] theorem State.setStack_flits : (s.setStack n v).flits = s.flits := rfl
@[simp] theorem State.setStack_frames : (s.setStack n v).frames = s.frames := rfl
@[simp] theorem State.setStack_fseqs : (s.setStack n v).fseqs = s.fseqs := rfl
@[simp] theorem State.setStack_foldBuf : (s.setStack n v).foldBuf = s.foldBuf := rfl
@[simp] theorem State.setStack_absorbed : (s.setStack n v).absorbed = s.absorbed := rfl
@[simp] theorem State.setStack_edgeCredits : (s.setStack n v).edgeCredits = s.edgeCredits := rfl
@[simp] theorem State.setStack_slots : (s.setStack n v).slots = s.slots := rfl
@[simp] theorem State.setStack_records : (s.setStack n v).records = s.records := rfl
@[simp] theorem State.setStack_links : (s.setStack n v).links = s.links := rfl
@[simp] theorem State.setStack_seals : (s.setStack n v).seals = s.seals := rfl
@[simp] theorem State.setStack_sealAsked : (s.setStack n v).sealAsked = s.sealAsked := rfl
@[simp] theorem State.setStack_sealed : (s.setStack n v).sealed = s.sealed := rfl
@[simp] theorem State.setStack_sealNext : (s.setStack n v).sealNext = s.sealNext := rfl
@[simp] theorem State.setStack_chain : (s.setStack n v).chain = s.chain := rfl
@[simp] theorem State.setStack_linkCount : (s.setStack n v).linkCount = s.linkCount := rfl
@[simp] theorem State.setStack_chainTick : (s.setStack n v).chainTick = s.chainTick := rfl
@[simp] theorem State.setStack_markers : (s.setStack n v).markers = s.markers := rfl
@[simp] theorem State.setStack_ledgers : (s.setStack n v).ledgers = s.ledgers := rfl
@[simp] theorem State.setStack_cmdLog : (s.setStack n v).cmdLog = s.cmdLog := rfl
@[simp] theorem State.setStack_replay : (s.setStack n v).replay = s.replay := rfl
@[simp] theorem State.setStack_replayChanges : (s.setStack n v).replayChanges = s.replayChanges := rfl
@[simp] theorem State.setStack_evdLow : (s.setStack n v).evdLow = s.evdLow := rfl
@[simp] theorem State.setStack_teleStack : (s.setStack n v).teleStack = s.teleStack := rfl
@[simp] theorem State.setStack_teleDev : (s.setStack n v).teleDev = s.teleDev := rfl
@[simp] theorem State.setStack_staging : (s.setStack n v).staging = s.staging := rfl
@[simp] theorem State.setStack_stagedTo : (s.setStack n v).stagedTo = s.stagedTo := rfl
@[simp] theorem State.setStack_logNext : (s.setStack n v).logNext = s.logNext := rfl
@[simp] theorem State.setStack_faultMap : (s.setStack n v).faultMap = s.faultMap := rfl
@[simp] theorem State.setStack_mapDirty : (s.setStack n v).mapDirty = s.mapDirty := rfl
@[simp] theorem State.setStack_drain : (s.setStack n v).drain = s.drain := rfl
@[simp] theorem State.setStack_drainPend : (s.setStack n v).drainPend = s.drainPend := rfl
@[simp] theorem State.setStack_scrubPaused : (s.setStack n v).scrubPaused = s.scrubPaused := rfl
@[simp] theorem State.setStack_scrubPausedAt : (s.setStack n v).scrubPausedAt = s.scrubPausedAt := rfl
@[simp] theorem State.setStack_scrubPassTick : (s.setStack n v).scrubPassTick = s.scrubPassTick := rfl
@[simp] theorem State.setStack_inject : (s.setStack n v).inject = s.inject := rfl
@[simp] theorem State.setStack_scrubbed : (s.setStack n v).scrubbed = s.scrubbed := rfl
@[simp] theorem State.setStack_rereads : (s.setStack n v).rereads = s.rereads := rfl
@[simp] theorem State.setStack_lastingWords : (s.setStack n v).lastingWords = s.lastingWords := rfl
@[simp] theorem State.setStack_injWords : (s.setStack n v).injWords = s.injWords := rfl
@[simp] theorem State.setStack_lastPass : (s.setStack n v).lastPass = s.lastPass := rfl
@[simp] theorem State.setStack_corrected : (s.setStack n v).corrected = s.corrected := rfl
@[simp] theorem State.setStack_mailboxes : (s.setStack n v).mailboxes = s.mailboxes := rfl
@[simp] theorem State.setStack_sessions : (s.setStack n v).sessions = s.sessions := rfl
@[simp] theorem State.setStack_host : (s.setStack n v).host = s.host := rfl
@[simp] theorem State.setStack_eventLog : (s.setStack n v).eventLog = s.eventLog := rfl
@[simp] theorem State.setStack_nextEvent : (s.setStack n v).nextEvent = s.nextEvent := rfl
@[simp] theorem State.setStack_heldEvents : (s.setStack n v).heldEvents = s.heldEvents := rfl
@[simp] theorem State.setStack_hearth : (s.setStack n v).hearth = s.hearth := rfl
@[simp] theorem State.setStack_debugLevel : (s.setStack n v).debugLevel = s.debugLevel := rfl
@[simp] theorem State.setStack_tapOpen : (s.setStack n v).tapOpen = s.tapOpen := rfl
@[simp] theorem State.setStack_nonces : (s.setStack n v).nonces = s.nonces := rfl
@[simp] theorem State.setStack_quotes : (s.setStack n v).quotes = s.quotes := rfl
@[simp] theorem State.setStack_signingStopped : (s.setStack n v).signingStopped = s.signingStopped := rfl
@[simp] theorem State.setStack_dbg : (s.setStack n v).dbg = s.dbg := rfl
@[simp] theorem State.setStack_fuses : (s.setStack n v).fuses = s.fuses := rfl
@[simp] theorem State.setStack_mram : (s.setStack n v).mram = s.mram := rfl
@[simp] theorem State.setStack_boot : (s.setStack n v).boot = s.boot := rfl
@[simp] theorem State.setStack_pins : (s.setStack n v).pins = s.pins := rfl
@[simp] theorem State.setStack_sliceReset : (s.setStack n v).sliceReset = s.sliceReset := rfl
@[simp] theorem State.setStack_quadReset : (s.setStack n v).quadReset = s.quadReset := rfl

end

/-! ## setPort -/

section

variable (s : State) (n : Nat) (v : Port)

@[simp] theorem State.setPort_pending : (s.setPort n v).pending = s.pending := rfl
@[simp] theorem State.setPort_fresh : (s.setPort n v).fresh = s.fresh := rfl
@[simp] theorem State.setPort_seqr : (s.setPort n v).seqr = s.seqr := rfl
@[simp] theorem State.setPort_work : (s.setPort n v).work = s.work := rfl
@[simp] theorem State.setPort_devIncs : (s.setPort n v).devIncs = s.devIncs := rfl
@[simp] theorem State.setPort_devPerfs : (s.setPort n v).devPerfs = s.devPerfs := rfl
@[simp] theorem State.setPort_devEvents : (s.setPort n v).devEvents = s.devEvents := rfl
@[simp] theorem State.setPort_counters : (s.setPort n v).counters = s.counters := rfl
@[simp] theorem State.setPort_perfs : (s.setPort n v).perfs = s.perfs := rfl
@[simp] theorem State.setPort_clears : (s.setPort n v).clears = s.clears := rfl
@[simp] theorem State.setPort_perfClears : (s.setPort n v).perfClears = s.perfClears := rfl
@[simp] theorem State.setPort_changes : (s.setPort n v).changes = s.changes := rfl
@[simp] theorem State.setPort_regWrites : (s.setPort n v).regWrites = s.regWrites := rfl
@[simp] theorem State.setPort_answers : (s.setPort n v).answers = s.answers := rfl
@[simp] theorem State.setPort_cmds : (s.setPort n v).cmds = s.cmds := rfl
@[simp] theorem State.setPort_plans : (s.setPort n v).plans = s.plans := rfl
@[simp] theorem State.setPort_admissions : (s.setPort n v).admissions = s.admissions := rfl
@[simp] theorem State.setPort_cores : (s.setPort n v).cores = s.cores := rfl
@[simp] theorem State.setPort_crumbUnits : (s.setPort n v).crumbUnits = s.crumbUnits := rfl
@[simp] theorem State.setPort_dram : (s.setPort n v).dram = s.dram := rfl
@[simp] theorem State.setPort_words : (s.setPort n v).words = s.words := rfl
@[simp] theorem State.setPort_lostStacks : (s.setPort n v).lostStacks = s.lostStacks := rfl
@[simp] theorem State.setPort_rows : (s.setPort n v).rows = s.rows := rfl
@[simp] theorem State.setPort_newRows : (s.setPort n v).newRows = s.newRows := rfl
@[simp] theorem State.setPort_fpGen : (s.setPort n v).fpGen = s.fpGen := rfl
@[simp] theorem State.setPort_fpTick : (s.setPort n v).fpTick = s.fpTick := rfl
@[simp] theorem State.setPort_fpFlags : (s.setPort n v).fpFlags = s.fpFlags := rfl
@[simp] theorem State.setPort_fpLive : (s.setPort n v).fpLive = s.fpLive := rfl
@[simp] theorem State.setPort_stk : (s.setPort n v).stk = s.stk := rfl
@[simp] theorem State.setPort_ports : (s.setPort n v).ports = Tab.set s.ports n v := rfl
@[simp] theorem State.setPort_rings : (s.setPort n v).rings = s.rings := rfl
@[simp] theorem State.setPort_accepted : (s.setPort n v).accepted = s.accepted := rfl
@[simp] theorem State.setPort_tlinkOut : (s.setPort n v).tlinkOut = s.tlinkOut := rfl
@[simp] theorem State.setPort_tlinkHeld : (s.setPort n v).tlinkHeld = s.tlinkHeld := rfl
@[simp] theorem State.setPort_heldAway : (s.setPort n v).heldAway = s.heldAway := rfl
@[simp] theorem State.setPort_quads : (s.setPort n v).quads = s.quads := rfl
@[simp] theorem State.setPort_therm : (s.setPort n v).therm = s.therm := rfl
@[simp] theorem State.setPort_power : (s.setPort n v).power = s.power := rfl
@[simp] theorem State.setPort_cfg : (s.setPort n v).cfg = s.cfg := rfl
@[simp] theorem State.setPort_layouts : (s.setPort n v).layouts = s.layouts := rfl
@[simp] theorem State.setPort_layoutOwners : (s.setPort n v).layoutOwners = s.layoutOwners := rfl
@[simp] theorem State.setPort_pools : (s.setPort n v).pools = s.pools := rfl
@[simp] theorem State.setPort_descs : (s.setPort n v).descs = s.descs := rfl
@[simp] theorem State.setPort_seqs : (s.setPort n v).seqs = s.seqs := rfl
@[simp] theorem State.setPort_tables : (s.setPort n v).tables = s.tables := rfl
@[simp] theorem State.setPort_shadows : (s.setPort n v).shadows = s.shadows := rfl
@[simp] theorem State.setPort_layoutCopies : (s.setPort n v).layoutCopies = s.layoutCopies := rfl
@[simp] theorem State.setPort_journal : (s.setPort n v).journal = s.journal := rfl
@[simp] theorem State.setPort_jpend : (s.setPort n v).jpend = s.jpend := rfl
@[simp] theorem State.setPort_nextJournal : (s.setPort n v).nextJournal = s.nextJournal := rfl
@[simp] theorem State.setPort_flits : (s.setPort n v).flits = s.flits := rfl
@[simp] theorem State.setPort_frames : (s.setPort n v).frames = s.frames := rfl
@[simp] theorem State.setPort_fseqs : (s.setPort n v).fseqs = s.fseqs := rfl
@[simp] theorem State.setPort_foldBuf : (s.setPort n v).foldBuf = s.foldBuf := rfl
@[simp] theorem State.setPort_absorbed : (s.setPort n v).absorbed = s.absorbed := rfl
@[simp] theorem State.setPort_edgeCredits : (s.setPort n v).edgeCredits = s.edgeCredits := rfl
@[simp] theorem State.setPort_slots : (s.setPort n v).slots = s.slots := rfl
@[simp] theorem State.setPort_records : (s.setPort n v).records = s.records := rfl
@[simp] theorem State.setPort_links : (s.setPort n v).links = s.links := rfl
@[simp] theorem State.setPort_seals : (s.setPort n v).seals = s.seals := rfl
@[simp] theorem State.setPort_sealAsked : (s.setPort n v).sealAsked = s.sealAsked := rfl
@[simp] theorem State.setPort_sealed : (s.setPort n v).sealed = s.sealed := rfl
@[simp] theorem State.setPort_sealNext : (s.setPort n v).sealNext = s.sealNext := rfl
@[simp] theorem State.setPort_chain : (s.setPort n v).chain = s.chain := rfl
@[simp] theorem State.setPort_linkCount : (s.setPort n v).linkCount = s.linkCount := rfl
@[simp] theorem State.setPort_chainTick : (s.setPort n v).chainTick = s.chainTick := rfl
@[simp] theorem State.setPort_markers : (s.setPort n v).markers = s.markers := rfl
@[simp] theorem State.setPort_ledgers : (s.setPort n v).ledgers = s.ledgers := rfl
@[simp] theorem State.setPort_cmdLog : (s.setPort n v).cmdLog = s.cmdLog := rfl
@[simp] theorem State.setPort_replay : (s.setPort n v).replay = s.replay := rfl
@[simp] theorem State.setPort_replayChanges : (s.setPort n v).replayChanges = s.replayChanges := rfl
@[simp] theorem State.setPort_evdLow : (s.setPort n v).evdLow = s.evdLow := rfl
@[simp] theorem State.setPort_teleStack : (s.setPort n v).teleStack = s.teleStack := rfl
@[simp] theorem State.setPort_teleDev : (s.setPort n v).teleDev = s.teleDev := rfl
@[simp] theorem State.setPort_staging : (s.setPort n v).staging = s.staging := rfl
@[simp] theorem State.setPort_stagedTo : (s.setPort n v).stagedTo = s.stagedTo := rfl
@[simp] theorem State.setPort_logNext : (s.setPort n v).logNext = s.logNext := rfl
@[simp] theorem State.setPort_faultMap : (s.setPort n v).faultMap = s.faultMap := rfl
@[simp] theorem State.setPort_mapDirty : (s.setPort n v).mapDirty = s.mapDirty := rfl
@[simp] theorem State.setPort_drain : (s.setPort n v).drain = s.drain := rfl
@[simp] theorem State.setPort_drainPend : (s.setPort n v).drainPend = s.drainPend := rfl
@[simp] theorem State.setPort_scrubPaused : (s.setPort n v).scrubPaused = s.scrubPaused := rfl
@[simp] theorem State.setPort_scrubPausedAt : (s.setPort n v).scrubPausedAt = s.scrubPausedAt := rfl
@[simp] theorem State.setPort_scrubPassTick : (s.setPort n v).scrubPassTick = s.scrubPassTick := rfl
@[simp] theorem State.setPort_inject : (s.setPort n v).inject = s.inject := rfl
@[simp] theorem State.setPort_scrubbed : (s.setPort n v).scrubbed = s.scrubbed := rfl
@[simp] theorem State.setPort_rereads : (s.setPort n v).rereads = s.rereads := rfl
@[simp] theorem State.setPort_lastingWords : (s.setPort n v).lastingWords = s.lastingWords := rfl
@[simp] theorem State.setPort_injWords : (s.setPort n v).injWords = s.injWords := rfl
@[simp] theorem State.setPort_lastPass : (s.setPort n v).lastPass = s.lastPass := rfl
@[simp] theorem State.setPort_corrected : (s.setPort n v).corrected = s.corrected := rfl
@[simp] theorem State.setPort_mailboxes : (s.setPort n v).mailboxes = s.mailboxes := rfl
@[simp] theorem State.setPort_sessions : (s.setPort n v).sessions = s.sessions := rfl
@[simp] theorem State.setPort_host : (s.setPort n v).host = s.host := rfl
@[simp] theorem State.setPort_eventLog : (s.setPort n v).eventLog = s.eventLog := rfl
@[simp] theorem State.setPort_nextEvent : (s.setPort n v).nextEvent = s.nextEvent := rfl
@[simp] theorem State.setPort_heldEvents : (s.setPort n v).heldEvents = s.heldEvents := rfl
@[simp] theorem State.setPort_hearth : (s.setPort n v).hearth = s.hearth := rfl
@[simp] theorem State.setPort_debugLevel : (s.setPort n v).debugLevel = s.debugLevel := rfl
@[simp] theorem State.setPort_tapOpen : (s.setPort n v).tapOpen = s.tapOpen := rfl
@[simp] theorem State.setPort_nonces : (s.setPort n v).nonces = s.nonces := rfl
@[simp] theorem State.setPort_quotes : (s.setPort n v).quotes = s.quotes := rfl
@[simp] theorem State.setPort_signingStopped : (s.setPort n v).signingStopped = s.signingStopped := rfl
@[simp] theorem State.setPort_dbg : (s.setPort n v).dbg = s.dbg := rfl
@[simp] theorem State.setPort_fuses : (s.setPort n v).fuses = s.fuses := rfl
@[simp] theorem State.setPort_mram : (s.setPort n v).mram = s.mram := rfl
@[simp] theorem State.setPort_boot : (s.setPort n v).boot = s.boot := rfl
@[simp] theorem State.setPort_pins : (s.setPort n v).pins = s.pins := rfl
@[simp] theorem State.setPort_sliceReset : (s.setPort n v).sliceReset = s.sliceReset := rfl
@[simp] theorem State.setPort_quadReset : (s.setPort n v).quadReset = s.quadReset := rfl

end

/-! ## setQuad -/

section

variable (s : State) (n : Nat) (v : Quad)

@[simp] theorem State.setQuad_pending : (s.setQuad n v).pending = s.pending := rfl
@[simp] theorem State.setQuad_fresh : (s.setQuad n v).fresh = s.fresh := rfl
@[simp] theorem State.setQuad_seqr : (s.setQuad n v).seqr = s.seqr := rfl
@[simp] theorem State.setQuad_work : (s.setQuad n v).work = s.work := rfl
@[simp] theorem State.setQuad_devIncs : (s.setQuad n v).devIncs = s.devIncs := rfl
@[simp] theorem State.setQuad_devPerfs : (s.setQuad n v).devPerfs = s.devPerfs := rfl
@[simp] theorem State.setQuad_devEvents : (s.setQuad n v).devEvents = s.devEvents := rfl
@[simp] theorem State.setQuad_counters : (s.setQuad n v).counters = s.counters := rfl
@[simp] theorem State.setQuad_perfs : (s.setQuad n v).perfs = s.perfs := rfl
@[simp] theorem State.setQuad_clears : (s.setQuad n v).clears = s.clears := rfl
@[simp] theorem State.setQuad_perfClears : (s.setQuad n v).perfClears = s.perfClears := rfl
@[simp] theorem State.setQuad_changes : (s.setQuad n v).changes = s.changes := rfl
@[simp] theorem State.setQuad_regWrites : (s.setQuad n v).regWrites = s.regWrites := rfl
@[simp] theorem State.setQuad_answers : (s.setQuad n v).answers = s.answers := rfl
@[simp] theorem State.setQuad_cmds : (s.setQuad n v).cmds = s.cmds := rfl
@[simp] theorem State.setQuad_plans : (s.setQuad n v).plans = s.plans := rfl
@[simp] theorem State.setQuad_admissions : (s.setQuad n v).admissions = s.admissions := rfl
@[simp] theorem State.setQuad_cores : (s.setQuad n v).cores = s.cores := rfl
@[simp] theorem State.setQuad_crumbUnits : (s.setQuad n v).crumbUnits = s.crumbUnits := rfl
@[simp] theorem State.setQuad_dram : (s.setQuad n v).dram = s.dram := rfl
@[simp] theorem State.setQuad_words : (s.setQuad n v).words = s.words := rfl
@[simp] theorem State.setQuad_lostStacks : (s.setQuad n v).lostStacks = s.lostStacks := rfl
@[simp] theorem State.setQuad_rows : (s.setQuad n v).rows = s.rows := rfl
@[simp] theorem State.setQuad_newRows : (s.setQuad n v).newRows = s.newRows := rfl
@[simp] theorem State.setQuad_fpGen : (s.setQuad n v).fpGen = s.fpGen := rfl
@[simp] theorem State.setQuad_fpTick : (s.setQuad n v).fpTick = s.fpTick := rfl
@[simp] theorem State.setQuad_fpFlags : (s.setQuad n v).fpFlags = s.fpFlags := rfl
@[simp] theorem State.setQuad_fpLive : (s.setQuad n v).fpLive = s.fpLive := rfl
@[simp] theorem State.setQuad_stk : (s.setQuad n v).stk = s.stk := rfl
@[simp] theorem State.setQuad_ports : (s.setQuad n v).ports = s.ports := rfl
@[simp] theorem State.setQuad_rings : (s.setQuad n v).rings = s.rings := rfl
@[simp] theorem State.setQuad_accepted : (s.setQuad n v).accepted = s.accepted := rfl
@[simp] theorem State.setQuad_tlinkOut : (s.setQuad n v).tlinkOut = s.tlinkOut := rfl
@[simp] theorem State.setQuad_tlinkHeld : (s.setQuad n v).tlinkHeld = s.tlinkHeld := rfl
@[simp] theorem State.setQuad_heldAway : (s.setQuad n v).heldAway = s.heldAway := rfl
@[simp] theorem State.setQuad_quads : (s.setQuad n v).quads = Tab.set s.quads n v := rfl
@[simp] theorem State.setQuad_therm : (s.setQuad n v).therm = s.therm := rfl
@[simp] theorem State.setQuad_power : (s.setQuad n v).power = s.power := rfl
@[simp] theorem State.setQuad_cfg : (s.setQuad n v).cfg = s.cfg := rfl
@[simp] theorem State.setQuad_layouts : (s.setQuad n v).layouts = s.layouts := rfl
@[simp] theorem State.setQuad_layoutOwners : (s.setQuad n v).layoutOwners = s.layoutOwners := rfl
@[simp] theorem State.setQuad_pools : (s.setQuad n v).pools = s.pools := rfl
@[simp] theorem State.setQuad_descs : (s.setQuad n v).descs = s.descs := rfl
@[simp] theorem State.setQuad_seqs : (s.setQuad n v).seqs = s.seqs := rfl
@[simp] theorem State.setQuad_tables : (s.setQuad n v).tables = s.tables := rfl
@[simp] theorem State.setQuad_shadows : (s.setQuad n v).shadows = s.shadows := rfl
@[simp] theorem State.setQuad_layoutCopies : (s.setQuad n v).layoutCopies = s.layoutCopies := rfl
@[simp] theorem State.setQuad_journal : (s.setQuad n v).journal = s.journal := rfl
@[simp] theorem State.setQuad_jpend : (s.setQuad n v).jpend = s.jpend := rfl
@[simp] theorem State.setQuad_nextJournal : (s.setQuad n v).nextJournal = s.nextJournal := rfl
@[simp] theorem State.setQuad_flits : (s.setQuad n v).flits = s.flits := rfl
@[simp] theorem State.setQuad_frames : (s.setQuad n v).frames = s.frames := rfl
@[simp] theorem State.setQuad_fseqs : (s.setQuad n v).fseqs = s.fseqs := rfl
@[simp] theorem State.setQuad_foldBuf : (s.setQuad n v).foldBuf = s.foldBuf := rfl
@[simp] theorem State.setQuad_absorbed : (s.setQuad n v).absorbed = s.absorbed := rfl
@[simp] theorem State.setQuad_edgeCredits : (s.setQuad n v).edgeCredits = s.edgeCredits := rfl
@[simp] theorem State.setQuad_slots : (s.setQuad n v).slots = s.slots := rfl
@[simp] theorem State.setQuad_records : (s.setQuad n v).records = s.records := rfl
@[simp] theorem State.setQuad_links : (s.setQuad n v).links = s.links := rfl
@[simp] theorem State.setQuad_seals : (s.setQuad n v).seals = s.seals := rfl
@[simp] theorem State.setQuad_sealAsked : (s.setQuad n v).sealAsked = s.sealAsked := rfl
@[simp] theorem State.setQuad_sealed : (s.setQuad n v).sealed = s.sealed := rfl
@[simp] theorem State.setQuad_sealNext : (s.setQuad n v).sealNext = s.sealNext := rfl
@[simp] theorem State.setQuad_chain : (s.setQuad n v).chain = s.chain := rfl
@[simp] theorem State.setQuad_linkCount : (s.setQuad n v).linkCount = s.linkCount := rfl
@[simp] theorem State.setQuad_chainTick : (s.setQuad n v).chainTick = s.chainTick := rfl
@[simp] theorem State.setQuad_markers : (s.setQuad n v).markers = s.markers := rfl
@[simp] theorem State.setQuad_ledgers : (s.setQuad n v).ledgers = s.ledgers := rfl
@[simp] theorem State.setQuad_cmdLog : (s.setQuad n v).cmdLog = s.cmdLog := rfl
@[simp] theorem State.setQuad_replay : (s.setQuad n v).replay = s.replay := rfl
@[simp] theorem State.setQuad_replayChanges : (s.setQuad n v).replayChanges = s.replayChanges := rfl
@[simp] theorem State.setQuad_evdLow : (s.setQuad n v).evdLow = s.evdLow := rfl
@[simp] theorem State.setQuad_teleStack : (s.setQuad n v).teleStack = s.teleStack := rfl
@[simp] theorem State.setQuad_teleDev : (s.setQuad n v).teleDev = s.teleDev := rfl
@[simp] theorem State.setQuad_staging : (s.setQuad n v).staging = s.staging := rfl
@[simp] theorem State.setQuad_stagedTo : (s.setQuad n v).stagedTo = s.stagedTo := rfl
@[simp] theorem State.setQuad_logNext : (s.setQuad n v).logNext = s.logNext := rfl
@[simp] theorem State.setQuad_faultMap : (s.setQuad n v).faultMap = s.faultMap := rfl
@[simp] theorem State.setQuad_mapDirty : (s.setQuad n v).mapDirty = s.mapDirty := rfl
@[simp] theorem State.setQuad_drain : (s.setQuad n v).drain = s.drain := rfl
@[simp] theorem State.setQuad_drainPend : (s.setQuad n v).drainPend = s.drainPend := rfl
@[simp] theorem State.setQuad_scrubPaused : (s.setQuad n v).scrubPaused = s.scrubPaused := rfl
@[simp] theorem State.setQuad_scrubPausedAt : (s.setQuad n v).scrubPausedAt = s.scrubPausedAt := rfl
@[simp] theorem State.setQuad_scrubPassTick : (s.setQuad n v).scrubPassTick = s.scrubPassTick := rfl
@[simp] theorem State.setQuad_inject : (s.setQuad n v).inject = s.inject := rfl
@[simp] theorem State.setQuad_scrubbed : (s.setQuad n v).scrubbed = s.scrubbed := rfl
@[simp] theorem State.setQuad_rereads : (s.setQuad n v).rereads = s.rereads := rfl
@[simp] theorem State.setQuad_lastingWords : (s.setQuad n v).lastingWords = s.lastingWords := rfl
@[simp] theorem State.setQuad_injWords : (s.setQuad n v).injWords = s.injWords := rfl
@[simp] theorem State.setQuad_lastPass : (s.setQuad n v).lastPass = s.lastPass := rfl
@[simp] theorem State.setQuad_corrected : (s.setQuad n v).corrected = s.corrected := rfl
@[simp] theorem State.setQuad_mailboxes : (s.setQuad n v).mailboxes = s.mailboxes := rfl
@[simp] theorem State.setQuad_sessions : (s.setQuad n v).sessions = s.sessions := rfl
@[simp] theorem State.setQuad_host : (s.setQuad n v).host = s.host := rfl
@[simp] theorem State.setQuad_eventLog : (s.setQuad n v).eventLog = s.eventLog := rfl
@[simp] theorem State.setQuad_nextEvent : (s.setQuad n v).nextEvent = s.nextEvent := rfl
@[simp] theorem State.setQuad_heldEvents : (s.setQuad n v).heldEvents = s.heldEvents := rfl
@[simp] theorem State.setQuad_hearth : (s.setQuad n v).hearth = s.hearth := rfl
@[simp] theorem State.setQuad_debugLevel : (s.setQuad n v).debugLevel = s.debugLevel := rfl
@[simp] theorem State.setQuad_tapOpen : (s.setQuad n v).tapOpen = s.tapOpen := rfl
@[simp] theorem State.setQuad_nonces : (s.setQuad n v).nonces = s.nonces := rfl
@[simp] theorem State.setQuad_quotes : (s.setQuad n v).quotes = s.quotes := rfl
@[simp] theorem State.setQuad_signingStopped : (s.setQuad n v).signingStopped = s.signingStopped := rfl
@[simp] theorem State.setQuad_dbg : (s.setQuad n v).dbg = s.dbg := rfl
@[simp] theorem State.setQuad_fuses : (s.setQuad n v).fuses = s.fuses := rfl
@[simp] theorem State.setQuad_mram : (s.setQuad n v).mram = s.mram := rfl
@[simp] theorem State.setQuad_boot : (s.setQuad n v).boot = s.boot := rfl
@[simp] theorem State.setQuad_pins : (s.setQuad n v).pins = s.pins := rfl
@[simp] theorem State.setQuad_sliceReset : (s.setQuad n v).sliceReset = s.sliceReset := rfl
@[simp] theorem State.setQuad_quadReset : (s.setQuad n v).quadReset = s.quadReset := rfl

end

/-! ## setTherm -/

section

variable (s : State) (n : Nat) (v : Therm)

@[simp] theorem State.setTherm_pending : (s.setTherm n v).pending = s.pending := rfl
@[simp] theorem State.setTherm_fresh : (s.setTherm n v).fresh = s.fresh := rfl
@[simp] theorem State.setTherm_seqr : (s.setTherm n v).seqr = s.seqr := rfl
@[simp] theorem State.setTherm_work : (s.setTherm n v).work = s.work := rfl
@[simp] theorem State.setTherm_devIncs : (s.setTherm n v).devIncs = s.devIncs := rfl
@[simp] theorem State.setTherm_devPerfs : (s.setTherm n v).devPerfs = s.devPerfs := rfl
@[simp] theorem State.setTherm_devEvents : (s.setTherm n v).devEvents = s.devEvents := rfl
@[simp] theorem State.setTherm_counters : (s.setTherm n v).counters = s.counters := rfl
@[simp] theorem State.setTherm_perfs : (s.setTherm n v).perfs = s.perfs := rfl
@[simp] theorem State.setTherm_clears : (s.setTherm n v).clears = s.clears := rfl
@[simp] theorem State.setTherm_perfClears : (s.setTherm n v).perfClears = s.perfClears := rfl
@[simp] theorem State.setTherm_changes : (s.setTherm n v).changes = s.changes := rfl
@[simp] theorem State.setTherm_regWrites : (s.setTherm n v).regWrites = s.regWrites := rfl
@[simp] theorem State.setTherm_answers : (s.setTherm n v).answers = s.answers := rfl
@[simp] theorem State.setTherm_cmds : (s.setTherm n v).cmds = s.cmds := rfl
@[simp] theorem State.setTherm_plans : (s.setTherm n v).plans = s.plans := rfl
@[simp] theorem State.setTherm_admissions : (s.setTherm n v).admissions = s.admissions := rfl
@[simp] theorem State.setTherm_cores : (s.setTherm n v).cores = s.cores := rfl
@[simp] theorem State.setTherm_crumbUnits : (s.setTherm n v).crumbUnits = s.crumbUnits := rfl
@[simp] theorem State.setTherm_dram : (s.setTherm n v).dram = s.dram := rfl
@[simp] theorem State.setTherm_words : (s.setTherm n v).words = s.words := rfl
@[simp] theorem State.setTherm_lostStacks : (s.setTherm n v).lostStacks = s.lostStacks := rfl
@[simp] theorem State.setTherm_rows : (s.setTherm n v).rows = s.rows := rfl
@[simp] theorem State.setTherm_newRows : (s.setTherm n v).newRows = s.newRows := rfl
@[simp] theorem State.setTherm_fpGen : (s.setTherm n v).fpGen = s.fpGen := rfl
@[simp] theorem State.setTherm_fpTick : (s.setTherm n v).fpTick = s.fpTick := rfl
@[simp] theorem State.setTherm_fpFlags : (s.setTherm n v).fpFlags = s.fpFlags := rfl
@[simp] theorem State.setTherm_fpLive : (s.setTherm n v).fpLive = s.fpLive := rfl
@[simp] theorem State.setTherm_stk : (s.setTherm n v).stk = s.stk := rfl
@[simp] theorem State.setTherm_ports : (s.setTherm n v).ports = s.ports := rfl
@[simp] theorem State.setTherm_rings : (s.setTherm n v).rings = s.rings := rfl
@[simp] theorem State.setTherm_accepted : (s.setTherm n v).accepted = s.accepted := rfl
@[simp] theorem State.setTherm_tlinkOut : (s.setTherm n v).tlinkOut = s.tlinkOut := rfl
@[simp] theorem State.setTherm_tlinkHeld : (s.setTherm n v).tlinkHeld = s.tlinkHeld := rfl
@[simp] theorem State.setTherm_heldAway : (s.setTherm n v).heldAway = s.heldAway := rfl
@[simp] theorem State.setTherm_quads : (s.setTherm n v).quads = s.quads := rfl
@[simp] theorem State.setTherm_therm : (s.setTherm n v).therm = Tab.set s.therm n v := rfl
@[simp] theorem State.setTherm_power : (s.setTherm n v).power = s.power := rfl
@[simp] theorem State.setTherm_cfg : (s.setTherm n v).cfg = s.cfg := rfl
@[simp] theorem State.setTherm_layouts : (s.setTherm n v).layouts = s.layouts := rfl
@[simp] theorem State.setTherm_layoutOwners : (s.setTherm n v).layoutOwners = s.layoutOwners := rfl
@[simp] theorem State.setTherm_pools : (s.setTherm n v).pools = s.pools := rfl
@[simp] theorem State.setTherm_descs : (s.setTherm n v).descs = s.descs := rfl
@[simp] theorem State.setTherm_seqs : (s.setTherm n v).seqs = s.seqs := rfl
@[simp] theorem State.setTherm_tables : (s.setTherm n v).tables = s.tables := rfl
@[simp] theorem State.setTherm_shadows : (s.setTherm n v).shadows = s.shadows := rfl
@[simp] theorem State.setTherm_layoutCopies : (s.setTherm n v).layoutCopies = s.layoutCopies := rfl
@[simp] theorem State.setTherm_journal : (s.setTherm n v).journal = s.journal := rfl
@[simp] theorem State.setTherm_jpend : (s.setTherm n v).jpend = s.jpend := rfl
@[simp] theorem State.setTherm_nextJournal : (s.setTherm n v).nextJournal = s.nextJournal := rfl
@[simp] theorem State.setTherm_flits : (s.setTherm n v).flits = s.flits := rfl
@[simp] theorem State.setTherm_frames : (s.setTherm n v).frames = s.frames := rfl
@[simp] theorem State.setTherm_fseqs : (s.setTherm n v).fseqs = s.fseqs := rfl
@[simp] theorem State.setTherm_foldBuf : (s.setTherm n v).foldBuf = s.foldBuf := rfl
@[simp] theorem State.setTherm_absorbed : (s.setTherm n v).absorbed = s.absorbed := rfl
@[simp] theorem State.setTherm_edgeCredits : (s.setTherm n v).edgeCredits = s.edgeCredits := rfl
@[simp] theorem State.setTherm_slots : (s.setTherm n v).slots = s.slots := rfl
@[simp] theorem State.setTherm_records : (s.setTherm n v).records = s.records := rfl
@[simp] theorem State.setTherm_links : (s.setTherm n v).links = s.links := rfl
@[simp] theorem State.setTherm_seals : (s.setTherm n v).seals = s.seals := rfl
@[simp] theorem State.setTherm_sealAsked : (s.setTherm n v).sealAsked = s.sealAsked := rfl
@[simp] theorem State.setTherm_sealed : (s.setTherm n v).sealed = s.sealed := rfl
@[simp] theorem State.setTherm_sealNext : (s.setTherm n v).sealNext = s.sealNext := rfl
@[simp] theorem State.setTherm_chain : (s.setTherm n v).chain = s.chain := rfl
@[simp] theorem State.setTherm_linkCount : (s.setTherm n v).linkCount = s.linkCount := rfl
@[simp] theorem State.setTherm_chainTick : (s.setTherm n v).chainTick = s.chainTick := rfl
@[simp] theorem State.setTherm_markers : (s.setTherm n v).markers = s.markers := rfl
@[simp] theorem State.setTherm_ledgers : (s.setTherm n v).ledgers = s.ledgers := rfl
@[simp] theorem State.setTherm_cmdLog : (s.setTherm n v).cmdLog = s.cmdLog := rfl
@[simp] theorem State.setTherm_replay : (s.setTherm n v).replay = s.replay := rfl
@[simp] theorem State.setTherm_replayChanges : (s.setTherm n v).replayChanges = s.replayChanges := rfl
@[simp] theorem State.setTherm_evdLow : (s.setTherm n v).evdLow = s.evdLow := rfl
@[simp] theorem State.setTherm_teleStack : (s.setTherm n v).teleStack = s.teleStack := rfl
@[simp] theorem State.setTherm_teleDev : (s.setTherm n v).teleDev = s.teleDev := rfl
@[simp] theorem State.setTherm_staging : (s.setTherm n v).staging = s.staging := rfl
@[simp] theorem State.setTherm_stagedTo : (s.setTherm n v).stagedTo = s.stagedTo := rfl
@[simp] theorem State.setTherm_logNext : (s.setTherm n v).logNext = s.logNext := rfl
@[simp] theorem State.setTherm_faultMap : (s.setTherm n v).faultMap = s.faultMap := rfl
@[simp] theorem State.setTherm_mapDirty : (s.setTherm n v).mapDirty = s.mapDirty := rfl
@[simp] theorem State.setTherm_drain : (s.setTherm n v).drain = s.drain := rfl
@[simp] theorem State.setTherm_drainPend : (s.setTherm n v).drainPend = s.drainPend := rfl
@[simp] theorem State.setTherm_scrubPaused : (s.setTherm n v).scrubPaused = s.scrubPaused := rfl
@[simp] theorem State.setTherm_scrubPausedAt : (s.setTherm n v).scrubPausedAt = s.scrubPausedAt := rfl
@[simp] theorem State.setTherm_scrubPassTick : (s.setTherm n v).scrubPassTick = s.scrubPassTick := rfl
@[simp] theorem State.setTherm_inject : (s.setTherm n v).inject = s.inject := rfl
@[simp] theorem State.setTherm_scrubbed : (s.setTherm n v).scrubbed = s.scrubbed := rfl
@[simp] theorem State.setTherm_rereads : (s.setTherm n v).rereads = s.rereads := rfl
@[simp] theorem State.setTherm_lastingWords : (s.setTherm n v).lastingWords = s.lastingWords := rfl
@[simp] theorem State.setTherm_injWords : (s.setTherm n v).injWords = s.injWords := rfl
@[simp] theorem State.setTherm_lastPass : (s.setTherm n v).lastPass = s.lastPass := rfl
@[simp] theorem State.setTherm_corrected : (s.setTherm n v).corrected = s.corrected := rfl
@[simp] theorem State.setTherm_mailboxes : (s.setTherm n v).mailboxes = s.mailboxes := rfl
@[simp] theorem State.setTherm_sessions : (s.setTherm n v).sessions = s.sessions := rfl
@[simp] theorem State.setTherm_host : (s.setTherm n v).host = s.host := rfl
@[simp] theorem State.setTherm_eventLog : (s.setTherm n v).eventLog = s.eventLog := rfl
@[simp] theorem State.setTherm_nextEvent : (s.setTherm n v).nextEvent = s.nextEvent := rfl
@[simp] theorem State.setTherm_heldEvents : (s.setTherm n v).heldEvents = s.heldEvents := rfl
@[simp] theorem State.setTherm_hearth : (s.setTherm n v).hearth = s.hearth := rfl
@[simp] theorem State.setTherm_debugLevel : (s.setTherm n v).debugLevel = s.debugLevel := rfl
@[simp] theorem State.setTherm_tapOpen : (s.setTherm n v).tapOpen = s.tapOpen := rfl
@[simp] theorem State.setTherm_nonces : (s.setTherm n v).nonces = s.nonces := rfl
@[simp] theorem State.setTherm_quotes : (s.setTherm n v).quotes = s.quotes := rfl
@[simp] theorem State.setTherm_signingStopped : (s.setTherm n v).signingStopped = s.signingStopped := rfl
@[simp] theorem State.setTherm_dbg : (s.setTherm n v).dbg = s.dbg := rfl
@[simp] theorem State.setTherm_fuses : (s.setTherm n v).fuses = s.fuses := rfl
@[simp] theorem State.setTherm_mram : (s.setTherm n v).mram = s.mram := rfl
@[simp] theorem State.setTherm_boot : (s.setTherm n v).boot = s.boot := rfl
@[simp] theorem State.setTherm_pins : (s.setTherm n v).pins = s.pins := rfl
@[simp] theorem State.setTherm_sliceReset : (s.setTherm n v).sliceReset = s.sliceReset := rfl
@[simp] theorem State.setTherm_quadReset : (s.setTherm n v).quadReset = s.quadReset := rfl

end

/-! ## inc -/

section

variable (s : State) (c : Ctr) (n : Nat)

@[simp] theorem inc_pending : (inc c n s).pending = s.pending := rfl
@[simp] theorem inc_fresh : (inc c n s).fresh = s.fresh := rfl
@[simp] theorem inc_seqr : (inc c n s).seqr = s.seqr := rfl
@[simp] theorem inc_devIncs : (inc c n s).devIncs = s.devIncs := rfl
@[simp] theorem inc_devPerfs : (inc c n s).devPerfs = s.devPerfs := rfl
@[simp] theorem inc_devEvents : (inc c n s).devEvents = s.devEvents := rfl
@[simp] theorem inc_counters : (inc c n s).counters = s.counters := rfl
@[simp] theorem inc_perfs : (inc c n s).perfs = s.perfs := rfl
@[simp] theorem inc_clears : (inc c n s).clears = s.clears := rfl
@[simp] theorem inc_perfClears : (inc c n s).perfClears = s.perfClears := rfl
@[simp] theorem inc_changes : (inc c n s).changes = s.changes := rfl
@[simp] theorem inc_regWrites : (inc c n s).regWrites = s.regWrites := rfl
@[simp] theorem inc_answers : (inc c n s).answers = s.answers := rfl
@[simp] theorem inc_cmds : (inc c n s).cmds = s.cmds := rfl
@[simp] theorem inc_plans : (inc c n s).plans = s.plans := rfl
@[simp] theorem inc_admissions : (inc c n s).admissions = s.admissions := rfl
@[simp] theorem inc_cores : (inc c n s).cores = s.cores := rfl
@[simp] theorem inc_crumbUnits : (inc c n s).crumbUnits = s.crumbUnits := rfl
@[simp] theorem inc_dram : (inc c n s).dram = s.dram := rfl
@[simp] theorem inc_words : (inc c n s).words = s.words := rfl
@[simp] theorem inc_lostStacks : (inc c n s).lostStacks = s.lostStacks := rfl
@[simp] theorem inc_rows : (inc c n s).rows = s.rows := rfl
@[simp] theorem inc_newRows : (inc c n s).newRows = s.newRows := rfl
@[simp] theorem inc_fpGen : (inc c n s).fpGen = s.fpGen := rfl
@[simp] theorem inc_fpTick : (inc c n s).fpTick = s.fpTick := rfl
@[simp] theorem inc_fpFlags : (inc c n s).fpFlags = s.fpFlags := rfl
@[simp] theorem inc_fpLive : (inc c n s).fpLive = s.fpLive := rfl
@[simp] theorem inc_stk : (inc c n s).stk = s.stk := rfl
@[simp] theorem inc_ports : (inc c n s).ports = s.ports := rfl
@[simp] theorem inc_rings : (inc c n s).rings = s.rings := rfl
@[simp] theorem inc_accepted : (inc c n s).accepted = s.accepted := rfl
@[simp] theorem inc_tlinkOut : (inc c n s).tlinkOut = s.tlinkOut := rfl
@[simp] theorem inc_tlinkHeld : (inc c n s).tlinkHeld = s.tlinkHeld := rfl
@[simp] theorem inc_heldAway : (inc c n s).heldAway = s.heldAway := rfl
@[simp] theorem inc_quads : (inc c n s).quads = s.quads := rfl
@[simp] theorem inc_therm : (inc c n s).therm = s.therm := rfl
@[simp] theorem inc_power : (inc c n s).power = s.power := rfl
@[simp] theorem inc_cfg : (inc c n s).cfg = s.cfg := rfl
@[simp] theorem inc_layouts : (inc c n s).layouts = s.layouts := rfl
@[simp] theorem inc_layoutOwners : (inc c n s).layoutOwners = s.layoutOwners := rfl
@[simp] theorem inc_pools : (inc c n s).pools = s.pools := rfl
@[simp] theorem inc_descs : (inc c n s).descs = s.descs := rfl
@[simp] theorem inc_seqs : (inc c n s).seqs = s.seqs := rfl
@[simp] theorem inc_tables : (inc c n s).tables = s.tables := rfl
@[simp] theorem inc_shadows : (inc c n s).shadows = s.shadows := rfl
@[simp] theorem inc_layoutCopies : (inc c n s).layoutCopies = s.layoutCopies := rfl
@[simp] theorem inc_journal : (inc c n s).journal = s.journal := rfl
@[simp] theorem inc_jpend : (inc c n s).jpend = s.jpend := rfl
@[simp] theorem inc_nextJournal : (inc c n s).nextJournal = s.nextJournal := rfl
@[simp] theorem inc_flits : (inc c n s).flits = s.flits := rfl
@[simp] theorem inc_frames : (inc c n s).frames = s.frames := rfl
@[simp] theorem inc_fseqs : (inc c n s).fseqs = s.fseqs := rfl
@[simp] theorem inc_foldBuf : (inc c n s).foldBuf = s.foldBuf := rfl
@[simp] theorem inc_absorbed : (inc c n s).absorbed = s.absorbed := rfl
@[simp] theorem inc_edgeCredits : (inc c n s).edgeCredits = s.edgeCredits := rfl
@[simp] theorem inc_slots : (inc c n s).slots = s.slots := rfl
@[simp] theorem inc_records : (inc c n s).records = s.records := rfl
@[simp] theorem inc_links : (inc c n s).links = s.links := rfl
@[simp] theorem inc_seals : (inc c n s).seals = s.seals := rfl
@[simp] theorem inc_sealAsked : (inc c n s).sealAsked = s.sealAsked := rfl
@[simp] theorem inc_sealed : (inc c n s).sealed = s.sealed := rfl
@[simp] theorem inc_sealNext : (inc c n s).sealNext = s.sealNext := rfl
@[simp] theorem inc_chain : (inc c n s).chain = s.chain := rfl
@[simp] theorem inc_linkCount : (inc c n s).linkCount = s.linkCount := rfl
@[simp] theorem inc_chainTick : (inc c n s).chainTick = s.chainTick := rfl
@[simp] theorem inc_markers : (inc c n s).markers = s.markers := rfl
@[simp] theorem inc_ledgers : (inc c n s).ledgers = s.ledgers := rfl
@[simp] theorem inc_cmdLog : (inc c n s).cmdLog = s.cmdLog := rfl
@[simp] theorem inc_replay : (inc c n s).replay = s.replay := rfl
@[simp] theorem inc_replayChanges : (inc c n s).replayChanges = s.replayChanges := rfl
@[simp] theorem inc_evdLow : (inc c n s).evdLow = s.evdLow := rfl
@[simp] theorem inc_teleStack : (inc c n s).teleStack = s.teleStack := rfl
@[simp] theorem inc_teleDev : (inc c n s).teleDev = s.teleDev := rfl
@[simp] theorem inc_staging : (inc c n s).staging = s.staging := rfl
@[simp] theorem inc_stagedTo : (inc c n s).stagedTo = s.stagedTo := rfl
@[simp] theorem inc_logNext : (inc c n s).logNext = s.logNext := rfl
@[simp] theorem inc_faultMap : (inc c n s).faultMap = s.faultMap := rfl
@[simp] theorem inc_mapDirty : (inc c n s).mapDirty = s.mapDirty := rfl
@[simp] theorem inc_drain : (inc c n s).drain = s.drain := rfl
@[simp] theorem inc_drainPend : (inc c n s).drainPend = s.drainPend := rfl
@[simp] theorem inc_scrubPaused : (inc c n s).scrubPaused = s.scrubPaused := rfl
@[simp] theorem inc_scrubPausedAt : (inc c n s).scrubPausedAt = s.scrubPausedAt := rfl
@[simp] theorem inc_scrubPassTick : (inc c n s).scrubPassTick = s.scrubPassTick := rfl
@[simp] theorem inc_inject : (inc c n s).inject = s.inject := rfl
@[simp] theorem inc_scrubbed : (inc c n s).scrubbed = s.scrubbed := rfl
@[simp] theorem inc_rereads : (inc c n s).rereads = s.rereads := rfl
@[simp] theorem inc_lastingWords : (inc c n s).lastingWords = s.lastingWords := rfl
@[simp] theorem inc_injWords : (inc c n s).injWords = s.injWords := rfl
@[simp] theorem inc_lastPass : (inc c n s).lastPass = s.lastPass := rfl
@[simp] theorem inc_corrected : (inc c n s).corrected = s.corrected := rfl
@[simp] theorem inc_mailboxes : (inc c n s).mailboxes = s.mailboxes := rfl
@[simp] theorem inc_sessions : (inc c n s).sessions = s.sessions := rfl
@[simp] theorem inc_host : (inc c n s).host = s.host := rfl
@[simp] theorem inc_eventLog : (inc c n s).eventLog = s.eventLog := rfl
@[simp] theorem inc_nextEvent : (inc c n s).nextEvent = s.nextEvent := rfl
@[simp] theorem inc_heldEvents : (inc c n s).heldEvents = s.heldEvents := rfl
@[simp] theorem inc_hearth : (inc c n s).hearth = s.hearth := rfl
@[simp] theorem inc_debugLevel : (inc c n s).debugLevel = s.debugLevel := rfl
@[simp] theorem inc_tapOpen : (inc c n s).tapOpen = s.tapOpen := rfl
@[simp] theorem inc_nonces : (inc c n s).nonces = s.nonces := rfl
@[simp] theorem inc_quotes : (inc c n s).quotes = s.quotes := rfl
@[simp] theorem inc_signingStopped : (inc c n s).signingStopped = s.signingStopped := rfl
@[simp] theorem inc_dbg : (inc c n s).dbg = s.dbg := rfl
@[simp] theorem inc_fuses : (inc c n s).fuses = s.fuses := rfl
@[simp] theorem inc_mram : (inc c n s).mram = s.mram := rfl
@[simp] theorem inc_boot : (inc c n s).boot = s.boot := rfl
@[simp] theorem inc_pins : (inc c n s).pins = s.pins := rfl
@[simp] theorem inc_sliceReset : (inc c n s).sliceReset = s.sliceReset := rfl
@[simp] theorem inc_quadReset : (inc c n s).quadReset = s.quadReset := rfl

end

/-! ## incP -/

section

variable (s : State) (c : Perf) (n : Nat)

@[simp] theorem incP_pending : (incP c n s).pending = s.pending := rfl
@[simp] theorem incP_fresh : (incP c n s).fresh = s.fresh := rfl
@[simp] theorem incP_seqr : (incP c n s).seqr = s.seqr := rfl
@[simp] theorem incP_devIncs : (incP c n s).devIncs = s.devIncs := rfl
@[simp] theorem incP_devPerfs : (incP c n s).devPerfs = s.devPerfs := rfl
@[simp] theorem incP_devEvents : (incP c n s).devEvents = s.devEvents := rfl
@[simp] theorem incP_counters : (incP c n s).counters = s.counters := rfl
@[simp] theorem incP_perfs : (incP c n s).perfs = s.perfs := rfl
@[simp] theorem incP_clears : (incP c n s).clears = s.clears := rfl
@[simp] theorem incP_perfClears : (incP c n s).perfClears = s.perfClears := rfl
@[simp] theorem incP_changes : (incP c n s).changes = s.changes := rfl
@[simp] theorem incP_regWrites : (incP c n s).regWrites = s.regWrites := rfl
@[simp] theorem incP_answers : (incP c n s).answers = s.answers := rfl
@[simp] theorem incP_cmds : (incP c n s).cmds = s.cmds := rfl
@[simp] theorem incP_plans : (incP c n s).plans = s.plans := rfl
@[simp] theorem incP_admissions : (incP c n s).admissions = s.admissions := rfl
@[simp] theorem incP_cores : (incP c n s).cores = s.cores := rfl
@[simp] theorem incP_crumbUnits : (incP c n s).crumbUnits = s.crumbUnits := rfl
@[simp] theorem incP_dram : (incP c n s).dram = s.dram := rfl
@[simp] theorem incP_words : (incP c n s).words = s.words := rfl
@[simp] theorem incP_lostStacks : (incP c n s).lostStacks = s.lostStacks := rfl
@[simp] theorem incP_rows : (incP c n s).rows = s.rows := rfl
@[simp] theorem incP_newRows : (incP c n s).newRows = s.newRows := rfl
@[simp] theorem incP_fpGen : (incP c n s).fpGen = s.fpGen := rfl
@[simp] theorem incP_fpTick : (incP c n s).fpTick = s.fpTick := rfl
@[simp] theorem incP_fpFlags : (incP c n s).fpFlags = s.fpFlags := rfl
@[simp] theorem incP_fpLive : (incP c n s).fpLive = s.fpLive := rfl
@[simp] theorem incP_stk : (incP c n s).stk = s.stk := rfl
@[simp] theorem incP_ports : (incP c n s).ports = s.ports := rfl
@[simp] theorem incP_rings : (incP c n s).rings = s.rings := rfl
@[simp] theorem incP_accepted : (incP c n s).accepted = s.accepted := rfl
@[simp] theorem incP_tlinkOut : (incP c n s).tlinkOut = s.tlinkOut := rfl
@[simp] theorem incP_tlinkHeld : (incP c n s).tlinkHeld = s.tlinkHeld := rfl
@[simp] theorem incP_heldAway : (incP c n s).heldAway = s.heldAway := rfl
@[simp] theorem incP_quads : (incP c n s).quads = s.quads := rfl
@[simp] theorem incP_therm : (incP c n s).therm = s.therm := rfl
@[simp] theorem incP_power : (incP c n s).power = s.power := rfl
@[simp] theorem incP_cfg : (incP c n s).cfg = s.cfg := rfl
@[simp] theorem incP_layouts : (incP c n s).layouts = s.layouts := rfl
@[simp] theorem incP_layoutOwners : (incP c n s).layoutOwners = s.layoutOwners := rfl
@[simp] theorem incP_pools : (incP c n s).pools = s.pools := rfl
@[simp] theorem incP_descs : (incP c n s).descs = s.descs := rfl
@[simp] theorem incP_seqs : (incP c n s).seqs = s.seqs := rfl
@[simp] theorem incP_tables : (incP c n s).tables = s.tables := rfl
@[simp] theorem incP_shadows : (incP c n s).shadows = s.shadows := rfl
@[simp] theorem incP_layoutCopies : (incP c n s).layoutCopies = s.layoutCopies := rfl
@[simp] theorem incP_journal : (incP c n s).journal = s.journal := rfl
@[simp] theorem incP_jpend : (incP c n s).jpend = s.jpend := rfl
@[simp] theorem incP_nextJournal : (incP c n s).nextJournal = s.nextJournal := rfl
@[simp] theorem incP_flits : (incP c n s).flits = s.flits := rfl
@[simp] theorem incP_frames : (incP c n s).frames = s.frames := rfl
@[simp] theorem incP_fseqs : (incP c n s).fseqs = s.fseqs := rfl
@[simp] theorem incP_foldBuf : (incP c n s).foldBuf = s.foldBuf := rfl
@[simp] theorem incP_absorbed : (incP c n s).absorbed = s.absorbed := rfl
@[simp] theorem incP_edgeCredits : (incP c n s).edgeCredits = s.edgeCredits := rfl
@[simp] theorem incP_slots : (incP c n s).slots = s.slots := rfl
@[simp] theorem incP_records : (incP c n s).records = s.records := rfl
@[simp] theorem incP_links : (incP c n s).links = s.links := rfl
@[simp] theorem incP_seals : (incP c n s).seals = s.seals := rfl
@[simp] theorem incP_sealAsked : (incP c n s).sealAsked = s.sealAsked := rfl
@[simp] theorem incP_sealed : (incP c n s).sealed = s.sealed := rfl
@[simp] theorem incP_sealNext : (incP c n s).sealNext = s.sealNext := rfl
@[simp] theorem incP_chain : (incP c n s).chain = s.chain := rfl
@[simp] theorem incP_linkCount : (incP c n s).linkCount = s.linkCount := rfl
@[simp] theorem incP_chainTick : (incP c n s).chainTick = s.chainTick := rfl
@[simp] theorem incP_markers : (incP c n s).markers = s.markers := rfl
@[simp] theorem incP_ledgers : (incP c n s).ledgers = s.ledgers := rfl
@[simp] theorem incP_cmdLog : (incP c n s).cmdLog = s.cmdLog := rfl
@[simp] theorem incP_replay : (incP c n s).replay = s.replay := rfl
@[simp] theorem incP_replayChanges : (incP c n s).replayChanges = s.replayChanges := rfl
@[simp] theorem incP_evdLow : (incP c n s).evdLow = s.evdLow := rfl
@[simp] theorem incP_teleStack : (incP c n s).teleStack = s.teleStack := rfl
@[simp] theorem incP_teleDev : (incP c n s).teleDev = s.teleDev := rfl
@[simp] theorem incP_staging : (incP c n s).staging = s.staging := rfl
@[simp] theorem incP_stagedTo : (incP c n s).stagedTo = s.stagedTo := rfl
@[simp] theorem incP_logNext : (incP c n s).logNext = s.logNext := rfl
@[simp] theorem incP_faultMap : (incP c n s).faultMap = s.faultMap := rfl
@[simp] theorem incP_mapDirty : (incP c n s).mapDirty = s.mapDirty := rfl
@[simp] theorem incP_drain : (incP c n s).drain = s.drain := rfl
@[simp] theorem incP_drainPend : (incP c n s).drainPend = s.drainPend := rfl
@[simp] theorem incP_scrubPaused : (incP c n s).scrubPaused = s.scrubPaused := rfl
@[simp] theorem incP_scrubPausedAt : (incP c n s).scrubPausedAt = s.scrubPausedAt := rfl
@[simp] theorem incP_scrubPassTick : (incP c n s).scrubPassTick = s.scrubPassTick := rfl
@[simp] theorem incP_inject : (incP c n s).inject = s.inject := rfl
@[simp] theorem incP_scrubbed : (incP c n s).scrubbed = s.scrubbed := rfl
@[simp] theorem incP_rereads : (incP c n s).rereads = s.rereads := rfl
@[simp] theorem incP_lastingWords : (incP c n s).lastingWords = s.lastingWords := rfl
@[simp] theorem incP_injWords : (incP c n s).injWords = s.injWords := rfl
@[simp] theorem incP_lastPass : (incP c n s).lastPass = s.lastPass := rfl
@[simp] theorem incP_corrected : (incP c n s).corrected = s.corrected := rfl
@[simp] theorem incP_mailboxes : (incP c n s).mailboxes = s.mailboxes := rfl
@[simp] theorem incP_sessions : (incP c n s).sessions = s.sessions := rfl
@[simp] theorem incP_host : (incP c n s).host = s.host := rfl
@[simp] theorem incP_eventLog : (incP c n s).eventLog = s.eventLog := rfl
@[simp] theorem incP_nextEvent : (incP c n s).nextEvent = s.nextEvent := rfl
@[simp] theorem incP_heldEvents : (incP c n s).heldEvents = s.heldEvents := rfl
@[simp] theorem incP_hearth : (incP c n s).hearth = s.hearth := rfl
@[simp] theorem incP_debugLevel : (incP c n s).debugLevel = s.debugLevel := rfl
@[simp] theorem incP_tapOpen : (incP c n s).tapOpen = s.tapOpen := rfl
@[simp] theorem incP_nonces : (incP c n s).nonces = s.nonces := rfl
@[simp] theorem incP_quotes : (incP c n s).quotes = s.quotes := rfl
@[simp] theorem incP_signingStopped : (incP c n s).signingStopped = s.signingStopped := rfl
@[simp] theorem incP_dbg : (incP c n s).dbg = s.dbg := rfl
@[simp] theorem incP_fuses : (incP c n s).fuses = s.fuses := rfl
@[simp] theorem incP_mram : (incP c n s).mram = s.mram := rfl
@[simp] theorem incP_boot : (incP c n s).boot = s.boot := rfl
@[simp] theorem incP_pins : (incP c n s).pins = s.pins := rfl
@[simp] theorem incP_sliceReset : (incP c n s).sliceReset = s.sliceReset := rfl
@[simp] theorem incP_quadReset : (incP c n s).quadReset = s.quadReset := rfl

end

/-! ## devInc -/

section

variable (s : State) (c : Ctr) (n : Nat)

@[simp] theorem devInc_pending : (devInc c n s).pending = s.pending := rfl
@[simp] theorem devInc_fresh : (devInc c n s).fresh = s.fresh := rfl
@[simp] theorem devInc_seqr : (devInc c n s).seqr = s.seqr := rfl
@[simp] theorem devInc_work : (devInc c n s).work = s.work := rfl
@[simp] theorem devInc_devIncs : (devInc c n s).devIncs = s.devIncs ++ [(c, n)] := rfl
@[simp] theorem devInc_devPerfs : (devInc c n s).devPerfs = s.devPerfs := rfl
@[simp] theorem devInc_devEvents : (devInc c n s).devEvents = s.devEvents := rfl
@[simp] theorem devInc_counters : (devInc c n s).counters = s.counters := rfl
@[simp] theorem devInc_perfs : (devInc c n s).perfs = s.perfs := rfl
@[simp] theorem devInc_clears : (devInc c n s).clears = s.clears := rfl
@[simp] theorem devInc_perfClears : (devInc c n s).perfClears = s.perfClears := rfl
@[simp] theorem devInc_changes : (devInc c n s).changes = s.changes := rfl
@[simp] theorem devInc_regWrites : (devInc c n s).regWrites = s.regWrites := rfl
@[simp] theorem devInc_answers : (devInc c n s).answers = s.answers := rfl
@[simp] theorem devInc_cmds : (devInc c n s).cmds = s.cmds := rfl
@[simp] theorem devInc_plans : (devInc c n s).plans = s.plans := rfl
@[simp] theorem devInc_admissions : (devInc c n s).admissions = s.admissions := rfl
@[simp] theorem devInc_cores : (devInc c n s).cores = s.cores := rfl
@[simp] theorem devInc_crumbUnits : (devInc c n s).crumbUnits = s.crumbUnits := rfl
@[simp] theorem devInc_dram : (devInc c n s).dram = s.dram := rfl
@[simp] theorem devInc_words : (devInc c n s).words = s.words := rfl
@[simp] theorem devInc_lostStacks : (devInc c n s).lostStacks = s.lostStacks := rfl
@[simp] theorem devInc_rows : (devInc c n s).rows = s.rows := rfl
@[simp] theorem devInc_newRows : (devInc c n s).newRows = s.newRows := rfl
@[simp] theorem devInc_fpGen : (devInc c n s).fpGen = s.fpGen := rfl
@[simp] theorem devInc_fpTick : (devInc c n s).fpTick = s.fpTick := rfl
@[simp] theorem devInc_fpFlags : (devInc c n s).fpFlags = s.fpFlags := rfl
@[simp] theorem devInc_fpLive : (devInc c n s).fpLive = s.fpLive := rfl
@[simp] theorem devInc_stk : (devInc c n s).stk = s.stk := rfl
@[simp] theorem devInc_ports : (devInc c n s).ports = s.ports := rfl
@[simp] theorem devInc_rings : (devInc c n s).rings = s.rings := rfl
@[simp] theorem devInc_accepted : (devInc c n s).accepted = s.accepted := rfl
@[simp] theorem devInc_tlinkOut : (devInc c n s).tlinkOut = s.tlinkOut := rfl
@[simp] theorem devInc_tlinkHeld : (devInc c n s).tlinkHeld = s.tlinkHeld := rfl
@[simp] theorem devInc_heldAway : (devInc c n s).heldAway = s.heldAway := rfl
@[simp] theorem devInc_quads : (devInc c n s).quads = s.quads := rfl
@[simp] theorem devInc_therm : (devInc c n s).therm = s.therm := rfl
@[simp] theorem devInc_power : (devInc c n s).power = s.power := rfl
@[simp] theorem devInc_cfg : (devInc c n s).cfg = s.cfg := rfl
@[simp] theorem devInc_layouts : (devInc c n s).layouts = s.layouts := rfl
@[simp] theorem devInc_layoutOwners : (devInc c n s).layoutOwners = s.layoutOwners := rfl
@[simp] theorem devInc_pools : (devInc c n s).pools = s.pools := rfl
@[simp] theorem devInc_descs : (devInc c n s).descs = s.descs := rfl
@[simp] theorem devInc_seqs : (devInc c n s).seqs = s.seqs := rfl
@[simp] theorem devInc_tables : (devInc c n s).tables = s.tables := rfl
@[simp] theorem devInc_shadows : (devInc c n s).shadows = s.shadows := rfl
@[simp] theorem devInc_layoutCopies : (devInc c n s).layoutCopies = s.layoutCopies := rfl
@[simp] theorem devInc_journal : (devInc c n s).journal = s.journal := rfl
@[simp] theorem devInc_jpend : (devInc c n s).jpend = s.jpend := rfl
@[simp] theorem devInc_nextJournal : (devInc c n s).nextJournal = s.nextJournal := rfl
@[simp] theorem devInc_flits : (devInc c n s).flits = s.flits := rfl
@[simp] theorem devInc_frames : (devInc c n s).frames = s.frames := rfl
@[simp] theorem devInc_fseqs : (devInc c n s).fseqs = s.fseqs := rfl
@[simp] theorem devInc_foldBuf : (devInc c n s).foldBuf = s.foldBuf := rfl
@[simp] theorem devInc_absorbed : (devInc c n s).absorbed = s.absorbed := rfl
@[simp] theorem devInc_edgeCredits : (devInc c n s).edgeCredits = s.edgeCredits := rfl
@[simp] theorem devInc_slots : (devInc c n s).slots = s.slots := rfl
@[simp] theorem devInc_records : (devInc c n s).records = s.records := rfl
@[simp] theorem devInc_links : (devInc c n s).links = s.links := rfl
@[simp] theorem devInc_seals : (devInc c n s).seals = s.seals := rfl
@[simp] theorem devInc_sealAsked : (devInc c n s).sealAsked = s.sealAsked := rfl
@[simp] theorem devInc_sealed : (devInc c n s).sealed = s.sealed := rfl
@[simp] theorem devInc_sealNext : (devInc c n s).sealNext = s.sealNext := rfl
@[simp] theorem devInc_chain : (devInc c n s).chain = s.chain := rfl
@[simp] theorem devInc_linkCount : (devInc c n s).linkCount = s.linkCount := rfl
@[simp] theorem devInc_chainTick : (devInc c n s).chainTick = s.chainTick := rfl
@[simp] theorem devInc_markers : (devInc c n s).markers = s.markers := rfl
@[simp] theorem devInc_ledgers : (devInc c n s).ledgers = s.ledgers := rfl
@[simp] theorem devInc_cmdLog : (devInc c n s).cmdLog = s.cmdLog := rfl
@[simp] theorem devInc_replay : (devInc c n s).replay = s.replay := rfl
@[simp] theorem devInc_replayChanges : (devInc c n s).replayChanges = s.replayChanges := rfl
@[simp] theorem devInc_evdLow : (devInc c n s).evdLow = s.evdLow := rfl
@[simp] theorem devInc_teleStack : (devInc c n s).teleStack = s.teleStack := rfl
@[simp] theorem devInc_teleDev : (devInc c n s).teleDev = s.teleDev := rfl
@[simp] theorem devInc_staging : (devInc c n s).staging = s.staging := rfl
@[simp] theorem devInc_stagedTo : (devInc c n s).stagedTo = s.stagedTo := rfl
@[simp] theorem devInc_logNext : (devInc c n s).logNext = s.logNext := rfl
@[simp] theorem devInc_faultMap : (devInc c n s).faultMap = s.faultMap := rfl
@[simp] theorem devInc_mapDirty : (devInc c n s).mapDirty = s.mapDirty := rfl
@[simp] theorem devInc_drain : (devInc c n s).drain = s.drain := rfl
@[simp] theorem devInc_drainPend : (devInc c n s).drainPend = s.drainPend := rfl
@[simp] theorem devInc_scrubPaused : (devInc c n s).scrubPaused = s.scrubPaused := rfl
@[simp] theorem devInc_scrubPausedAt : (devInc c n s).scrubPausedAt = s.scrubPausedAt := rfl
@[simp] theorem devInc_scrubPassTick : (devInc c n s).scrubPassTick = s.scrubPassTick := rfl
@[simp] theorem devInc_inject : (devInc c n s).inject = s.inject := rfl
@[simp] theorem devInc_scrubbed : (devInc c n s).scrubbed = s.scrubbed := rfl
@[simp] theorem devInc_rereads : (devInc c n s).rereads = s.rereads := rfl
@[simp] theorem devInc_lastingWords : (devInc c n s).lastingWords = s.lastingWords := rfl
@[simp] theorem devInc_injWords : (devInc c n s).injWords = s.injWords := rfl
@[simp] theorem devInc_lastPass : (devInc c n s).lastPass = s.lastPass := rfl
@[simp] theorem devInc_corrected : (devInc c n s).corrected = s.corrected := rfl
@[simp] theorem devInc_mailboxes : (devInc c n s).mailboxes = s.mailboxes := rfl
@[simp] theorem devInc_sessions : (devInc c n s).sessions = s.sessions := rfl
@[simp] theorem devInc_host : (devInc c n s).host = s.host := rfl
@[simp] theorem devInc_eventLog : (devInc c n s).eventLog = s.eventLog := rfl
@[simp] theorem devInc_nextEvent : (devInc c n s).nextEvent = s.nextEvent := rfl
@[simp] theorem devInc_heldEvents : (devInc c n s).heldEvents = s.heldEvents := rfl
@[simp] theorem devInc_hearth : (devInc c n s).hearth = s.hearth := rfl
@[simp] theorem devInc_debugLevel : (devInc c n s).debugLevel = s.debugLevel := rfl
@[simp] theorem devInc_tapOpen : (devInc c n s).tapOpen = s.tapOpen := rfl
@[simp] theorem devInc_nonces : (devInc c n s).nonces = s.nonces := rfl
@[simp] theorem devInc_quotes : (devInc c n s).quotes = s.quotes := rfl
@[simp] theorem devInc_signingStopped : (devInc c n s).signingStopped = s.signingStopped := rfl
@[simp] theorem devInc_dbg : (devInc c n s).dbg = s.dbg := rfl
@[simp] theorem devInc_fuses : (devInc c n s).fuses = s.fuses := rfl
@[simp] theorem devInc_mram : (devInc c n s).mram = s.mram := rfl
@[simp] theorem devInc_boot : (devInc c n s).boot = s.boot := rfl
@[simp] theorem devInc_pins : (devInc c n s).pins = s.pins := rfl
@[simp] theorem devInc_sliceReset : (devInc c n s).sliceReset = s.sliceReset := rfl
@[simp] theorem devInc_quadReset : (devInc c n s).quadReset = s.quadReset := rfl

end

/-! ## devIncP -/

section

variable (s : State) (c : Perf) (n : Nat)

@[simp] theorem devIncP_pending : (devIncP c n s).pending = s.pending := rfl
@[simp] theorem devIncP_fresh : (devIncP c n s).fresh = s.fresh := rfl
@[simp] theorem devIncP_seqr : (devIncP c n s).seqr = s.seqr := rfl
@[simp] theorem devIncP_work : (devIncP c n s).work = s.work := rfl
@[simp] theorem devIncP_devIncs : (devIncP c n s).devIncs = s.devIncs := rfl
@[simp] theorem devIncP_devPerfs : (devIncP c n s).devPerfs = s.devPerfs ++ [(c, n)] := rfl
@[simp] theorem devIncP_devEvents : (devIncP c n s).devEvents = s.devEvents := rfl
@[simp] theorem devIncP_counters : (devIncP c n s).counters = s.counters := rfl
@[simp] theorem devIncP_perfs : (devIncP c n s).perfs = s.perfs := rfl
@[simp] theorem devIncP_clears : (devIncP c n s).clears = s.clears := rfl
@[simp] theorem devIncP_perfClears : (devIncP c n s).perfClears = s.perfClears := rfl
@[simp] theorem devIncP_changes : (devIncP c n s).changes = s.changes := rfl
@[simp] theorem devIncP_regWrites : (devIncP c n s).regWrites = s.regWrites := rfl
@[simp] theorem devIncP_answers : (devIncP c n s).answers = s.answers := rfl
@[simp] theorem devIncP_cmds : (devIncP c n s).cmds = s.cmds := rfl
@[simp] theorem devIncP_plans : (devIncP c n s).plans = s.plans := rfl
@[simp] theorem devIncP_admissions : (devIncP c n s).admissions = s.admissions := rfl
@[simp] theorem devIncP_cores : (devIncP c n s).cores = s.cores := rfl
@[simp] theorem devIncP_crumbUnits : (devIncP c n s).crumbUnits = s.crumbUnits := rfl
@[simp] theorem devIncP_dram : (devIncP c n s).dram = s.dram := rfl
@[simp] theorem devIncP_words : (devIncP c n s).words = s.words := rfl
@[simp] theorem devIncP_lostStacks : (devIncP c n s).lostStacks = s.lostStacks := rfl
@[simp] theorem devIncP_rows : (devIncP c n s).rows = s.rows := rfl
@[simp] theorem devIncP_newRows : (devIncP c n s).newRows = s.newRows := rfl
@[simp] theorem devIncP_fpGen : (devIncP c n s).fpGen = s.fpGen := rfl
@[simp] theorem devIncP_fpTick : (devIncP c n s).fpTick = s.fpTick := rfl
@[simp] theorem devIncP_fpFlags : (devIncP c n s).fpFlags = s.fpFlags := rfl
@[simp] theorem devIncP_fpLive : (devIncP c n s).fpLive = s.fpLive := rfl
@[simp] theorem devIncP_stk : (devIncP c n s).stk = s.stk := rfl
@[simp] theorem devIncP_ports : (devIncP c n s).ports = s.ports := rfl
@[simp] theorem devIncP_rings : (devIncP c n s).rings = s.rings := rfl
@[simp] theorem devIncP_accepted : (devIncP c n s).accepted = s.accepted := rfl
@[simp] theorem devIncP_tlinkOut : (devIncP c n s).tlinkOut = s.tlinkOut := rfl
@[simp] theorem devIncP_tlinkHeld : (devIncP c n s).tlinkHeld = s.tlinkHeld := rfl
@[simp] theorem devIncP_heldAway : (devIncP c n s).heldAway = s.heldAway := rfl
@[simp] theorem devIncP_quads : (devIncP c n s).quads = s.quads := rfl
@[simp] theorem devIncP_therm : (devIncP c n s).therm = s.therm := rfl
@[simp] theorem devIncP_power : (devIncP c n s).power = s.power := rfl
@[simp] theorem devIncP_cfg : (devIncP c n s).cfg = s.cfg := rfl
@[simp] theorem devIncP_layouts : (devIncP c n s).layouts = s.layouts := rfl
@[simp] theorem devIncP_layoutOwners : (devIncP c n s).layoutOwners = s.layoutOwners := rfl
@[simp] theorem devIncP_pools : (devIncP c n s).pools = s.pools := rfl
@[simp] theorem devIncP_descs : (devIncP c n s).descs = s.descs := rfl
@[simp] theorem devIncP_seqs : (devIncP c n s).seqs = s.seqs := rfl
@[simp] theorem devIncP_tables : (devIncP c n s).tables = s.tables := rfl
@[simp] theorem devIncP_shadows : (devIncP c n s).shadows = s.shadows := rfl
@[simp] theorem devIncP_layoutCopies : (devIncP c n s).layoutCopies = s.layoutCopies := rfl
@[simp] theorem devIncP_journal : (devIncP c n s).journal = s.journal := rfl
@[simp] theorem devIncP_jpend : (devIncP c n s).jpend = s.jpend := rfl
@[simp] theorem devIncP_nextJournal : (devIncP c n s).nextJournal = s.nextJournal := rfl
@[simp] theorem devIncP_flits : (devIncP c n s).flits = s.flits := rfl
@[simp] theorem devIncP_frames : (devIncP c n s).frames = s.frames := rfl
@[simp] theorem devIncP_fseqs : (devIncP c n s).fseqs = s.fseqs := rfl
@[simp] theorem devIncP_foldBuf : (devIncP c n s).foldBuf = s.foldBuf := rfl
@[simp] theorem devIncP_absorbed : (devIncP c n s).absorbed = s.absorbed := rfl
@[simp] theorem devIncP_edgeCredits : (devIncP c n s).edgeCredits = s.edgeCredits := rfl
@[simp] theorem devIncP_slots : (devIncP c n s).slots = s.slots := rfl
@[simp] theorem devIncP_records : (devIncP c n s).records = s.records := rfl
@[simp] theorem devIncP_links : (devIncP c n s).links = s.links := rfl
@[simp] theorem devIncP_seals : (devIncP c n s).seals = s.seals := rfl
@[simp] theorem devIncP_sealAsked : (devIncP c n s).sealAsked = s.sealAsked := rfl
@[simp] theorem devIncP_sealed : (devIncP c n s).sealed = s.sealed := rfl
@[simp] theorem devIncP_sealNext : (devIncP c n s).sealNext = s.sealNext := rfl
@[simp] theorem devIncP_chain : (devIncP c n s).chain = s.chain := rfl
@[simp] theorem devIncP_linkCount : (devIncP c n s).linkCount = s.linkCount := rfl
@[simp] theorem devIncP_chainTick : (devIncP c n s).chainTick = s.chainTick := rfl
@[simp] theorem devIncP_markers : (devIncP c n s).markers = s.markers := rfl
@[simp] theorem devIncP_ledgers : (devIncP c n s).ledgers = s.ledgers := rfl
@[simp] theorem devIncP_cmdLog : (devIncP c n s).cmdLog = s.cmdLog := rfl
@[simp] theorem devIncP_replay : (devIncP c n s).replay = s.replay := rfl
@[simp] theorem devIncP_replayChanges : (devIncP c n s).replayChanges = s.replayChanges := rfl
@[simp] theorem devIncP_evdLow : (devIncP c n s).evdLow = s.evdLow := rfl
@[simp] theorem devIncP_teleStack : (devIncP c n s).teleStack = s.teleStack := rfl
@[simp] theorem devIncP_teleDev : (devIncP c n s).teleDev = s.teleDev := rfl
@[simp] theorem devIncP_staging : (devIncP c n s).staging = s.staging := rfl
@[simp] theorem devIncP_stagedTo : (devIncP c n s).stagedTo = s.stagedTo := rfl
@[simp] theorem devIncP_logNext : (devIncP c n s).logNext = s.logNext := rfl
@[simp] theorem devIncP_faultMap : (devIncP c n s).faultMap = s.faultMap := rfl
@[simp] theorem devIncP_mapDirty : (devIncP c n s).mapDirty = s.mapDirty := rfl
@[simp] theorem devIncP_drain : (devIncP c n s).drain = s.drain := rfl
@[simp] theorem devIncP_drainPend : (devIncP c n s).drainPend = s.drainPend := rfl
@[simp] theorem devIncP_scrubPaused : (devIncP c n s).scrubPaused = s.scrubPaused := rfl
@[simp] theorem devIncP_scrubPausedAt : (devIncP c n s).scrubPausedAt = s.scrubPausedAt := rfl
@[simp] theorem devIncP_scrubPassTick : (devIncP c n s).scrubPassTick = s.scrubPassTick := rfl
@[simp] theorem devIncP_inject : (devIncP c n s).inject = s.inject := rfl
@[simp] theorem devIncP_scrubbed : (devIncP c n s).scrubbed = s.scrubbed := rfl
@[simp] theorem devIncP_rereads : (devIncP c n s).rereads = s.rereads := rfl
@[simp] theorem devIncP_lastingWords : (devIncP c n s).lastingWords = s.lastingWords := rfl
@[simp] theorem devIncP_injWords : (devIncP c n s).injWords = s.injWords := rfl
@[simp] theorem devIncP_lastPass : (devIncP c n s).lastPass = s.lastPass := rfl
@[simp] theorem devIncP_corrected : (devIncP c n s).corrected = s.corrected := rfl
@[simp] theorem devIncP_mailboxes : (devIncP c n s).mailboxes = s.mailboxes := rfl
@[simp] theorem devIncP_sessions : (devIncP c n s).sessions = s.sessions := rfl
@[simp] theorem devIncP_host : (devIncP c n s).host = s.host := rfl
@[simp] theorem devIncP_eventLog : (devIncP c n s).eventLog = s.eventLog := rfl
@[simp] theorem devIncP_nextEvent : (devIncP c n s).nextEvent = s.nextEvent := rfl
@[simp] theorem devIncP_heldEvents : (devIncP c n s).heldEvents = s.heldEvents := rfl
@[simp] theorem devIncP_hearth : (devIncP c n s).hearth = s.hearth := rfl
@[simp] theorem devIncP_debugLevel : (devIncP c n s).debugLevel = s.debugLevel := rfl
@[simp] theorem devIncP_tapOpen : (devIncP c n s).tapOpen = s.tapOpen := rfl
@[simp] theorem devIncP_nonces : (devIncP c n s).nonces = s.nonces := rfl
@[simp] theorem devIncP_quotes : (devIncP c n s).quotes = s.quotes := rfl
@[simp] theorem devIncP_signingStopped : (devIncP c n s).signingStopped = s.signingStopped := rfl
@[simp] theorem devIncP_dbg : (devIncP c n s).dbg = s.dbg := rfl
@[simp] theorem devIncP_fuses : (devIncP c n s).fuses = s.fuses := rfl
@[simp] theorem devIncP_mram : (devIncP c n s).mram = s.mram := rfl
@[simp] theorem devIncP_boot : (devIncP c n s).boot = s.boot := rfl
@[simp] theorem devIncP_pins : (devIncP c n s).pins = s.pins := rfl
@[simp] theorem devIncP_sliceReset : (devIncP c n s).sliceReset = s.sliceReset := rfl
@[simp] theorem devIncP_quadReset : (devIncP c n s).quadReset = s.quadReset := rfl

end

/-! ## post -/

section

variable (s : State) (e : PEvent)

@[simp] theorem post_pending : (post e s).pending = s.pending := rfl
@[simp] theorem post_fresh : (post e s).fresh = s.fresh := rfl
@[simp] theorem post_seqr : (post e s).seqr = s.seqr := rfl
@[simp] theorem post_work : (post e s).work = s.work := rfl
@[simp] theorem post_devIncs : (post e s).devIncs = s.devIncs := rfl
@[simp] theorem post_devPerfs : (post e s).devPerfs = s.devPerfs := rfl
@[simp] theorem post_devEvents : (post e s).devEvents = s.devEvents ++ [e] := rfl
@[simp] theorem post_counters : (post e s).counters = s.counters := rfl
@[simp] theorem post_perfs : (post e s).perfs = s.perfs := rfl
@[simp] theorem post_clears : (post e s).clears = s.clears := rfl
@[simp] theorem post_perfClears : (post e s).perfClears = s.perfClears := rfl
@[simp] theorem post_changes : (post e s).changes = s.changes := rfl
@[simp] theorem post_regWrites : (post e s).regWrites = s.regWrites := rfl
@[simp] theorem post_answers : (post e s).answers = s.answers := rfl
@[simp] theorem post_cmds : (post e s).cmds = s.cmds := rfl
@[simp] theorem post_plans : (post e s).plans = s.plans := rfl
@[simp] theorem post_admissions : (post e s).admissions = s.admissions := rfl
@[simp] theorem post_cores : (post e s).cores = s.cores := rfl
@[simp] theorem post_crumbUnits : (post e s).crumbUnits = s.crumbUnits := rfl
@[simp] theorem post_dram : (post e s).dram = s.dram := rfl
@[simp] theorem post_words : (post e s).words = s.words := rfl
@[simp] theorem post_lostStacks : (post e s).lostStacks = s.lostStacks := rfl
@[simp] theorem post_rows : (post e s).rows = s.rows := rfl
@[simp] theorem post_newRows : (post e s).newRows = s.newRows := rfl
@[simp] theorem post_fpGen : (post e s).fpGen = s.fpGen := rfl
@[simp] theorem post_fpTick : (post e s).fpTick = s.fpTick := rfl
@[simp] theorem post_fpFlags : (post e s).fpFlags = s.fpFlags := rfl
@[simp] theorem post_fpLive : (post e s).fpLive = s.fpLive := rfl
@[simp] theorem post_stk : (post e s).stk = s.stk := rfl
@[simp] theorem post_ports : (post e s).ports = s.ports := rfl
@[simp] theorem post_rings : (post e s).rings = s.rings := rfl
@[simp] theorem post_accepted : (post e s).accepted = s.accepted := rfl
@[simp] theorem post_tlinkOut : (post e s).tlinkOut = s.tlinkOut := rfl
@[simp] theorem post_tlinkHeld : (post e s).tlinkHeld = s.tlinkHeld := rfl
@[simp] theorem post_heldAway : (post e s).heldAway = s.heldAway := rfl
@[simp] theorem post_quads : (post e s).quads = s.quads := rfl
@[simp] theorem post_therm : (post e s).therm = s.therm := rfl
@[simp] theorem post_power : (post e s).power = s.power := rfl
@[simp] theorem post_cfg : (post e s).cfg = s.cfg := rfl
@[simp] theorem post_layouts : (post e s).layouts = s.layouts := rfl
@[simp] theorem post_layoutOwners : (post e s).layoutOwners = s.layoutOwners := rfl
@[simp] theorem post_pools : (post e s).pools = s.pools := rfl
@[simp] theorem post_descs : (post e s).descs = s.descs := rfl
@[simp] theorem post_seqs : (post e s).seqs = s.seqs := rfl
@[simp] theorem post_tables : (post e s).tables = s.tables := rfl
@[simp] theorem post_shadows : (post e s).shadows = s.shadows := rfl
@[simp] theorem post_layoutCopies : (post e s).layoutCopies = s.layoutCopies := rfl
@[simp] theorem post_journal : (post e s).journal = s.journal := rfl
@[simp] theorem post_jpend : (post e s).jpend = s.jpend := rfl
@[simp] theorem post_nextJournal : (post e s).nextJournal = s.nextJournal := rfl
@[simp] theorem post_flits : (post e s).flits = s.flits := rfl
@[simp] theorem post_frames : (post e s).frames = s.frames := rfl
@[simp] theorem post_fseqs : (post e s).fseqs = s.fseqs := rfl
@[simp] theorem post_foldBuf : (post e s).foldBuf = s.foldBuf := rfl
@[simp] theorem post_absorbed : (post e s).absorbed = s.absorbed := rfl
@[simp] theorem post_edgeCredits : (post e s).edgeCredits = s.edgeCredits := rfl
@[simp] theorem post_slots : (post e s).slots = s.slots := rfl
@[simp] theorem post_records : (post e s).records = s.records := rfl
@[simp] theorem post_links : (post e s).links = s.links := rfl
@[simp] theorem post_seals : (post e s).seals = s.seals := rfl
@[simp] theorem post_sealAsked : (post e s).sealAsked = s.sealAsked := rfl
@[simp] theorem post_sealed : (post e s).sealed = s.sealed := rfl
@[simp] theorem post_sealNext : (post e s).sealNext = s.sealNext := rfl
@[simp] theorem post_chain : (post e s).chain = s.chain := rfl
@[simp] theorem post_linkCount : (post e s).linkCount = s.linkCount := rfl
@[simp] theorem post_chainTick : (post e s).chainTick = s.chainTick := rfl
@[simp] theorem post_markers : (post e s).markers = s.markers := rfl
@[simp] theorem post_ledgers : (post e s).ledgers = s.ledgers := rfl
@[simp] theorem post_cmdLog : (post e s).cmdLog = s.cmdLog := rfl
@[simp] theorem post_replay : (post e s).replay = s.replay := rfl
@[simp] theorem post_replayChanges : (post e s).replayChanges = s.replayChanges := rfl
@[simp] theorem post_evdLow : (post e s).evdLow = s.evdLow := rfl
@[simp] theorem post_teleStack : (post e s).teleStack = s.teleStack := rfl
@[simp] theorem post_teleDev : (post e s).teleDev = s.teleDev := rfl
@[simp] theorem post_staging : (post e s).staging = s.staging := rfl
@[simp] theorem post_stagedTo : (post e s).stagedTo = s.stagedTo := rfl
@[simp] theorem post_logNext : (post e s).logNext = s.logNext := rfl
@[simp] theorem post_faultMap : (post e s).faultMap = s.faultMap := rfl
@[simp] theorem post_mapDirty : (post e s).mapDirty = s.mapDirty := rfl
@[simp] theorem post_drain : (post e s).drain = s.drain := rfl
@[simp] theorem post_drainPend : (post e s).drainPend = s.drainPend := rfl
@[simp] theorem post_scrubPaused : (post e s).scrubPaused = s.scrubPaused := rfl
@[simp] theorem post_scrubPausedAt : (post e s).scrubPausedAt = s.scrubPausedAt := rfl
@[simp] theorem post_scrubPassTick : (post e s).scrubPassTick = s.scrubPassTick := rfl
@[simp] theorem post_inject : (post e s).inject = s.inject := rfl
@[simp] theorem post_scrubbed : (post e s).scrubbed = s.scrubbed := rfl
@[simp] theorem post_rereads : (post e s).rereads = s.rereads := rfl
@[simp] theorem post_lastingWords : (post e s).lastingWords = s.lastingWords := rfl
@[simp] theorem post_injWords : (post e s).injWords = s.injWords := rfl
@[simp] theorem post_lastPass : (post e s).lastPass = s.lastPass := rfl
@[simp] theorem post_corrected : (post e s).corrected = s.corrected := rfl
@[simp] theorem post_mailboxes : (post e s).mailboxes = s.mailboxes := rfl
@[simp] theorem post_sessions : (post e s).sessions = s.sessions := rfl
@[simp] theorem post_host : (post e s).host = s.host := rfl
@[simp] theorem post_eventLog : (post e s).eventLog = s.eventLog := rfl
@[simp] theorem post_nextEvent : (post e s).nextEvent = s.nextEvent := rfl
@[simp] theorem post_heldEvents : (post e s).heldEvents = s.heldEvents := rfl
@[simp] theorem post_hearth : (post e s).hearth = s.hearth := rfl
@[simp] theorem post_debugLevel : (post e s).debugLevel = s.debugLevel := rfl
@[simp] theorem post_tapOpen : (post e s).tapOpen = s.tapOpen := rfl
@[simp] theorem post_nonces : (post e s).nonces = s.nonces := rfl
@[simp] theorem post_quotes : (post e s).quotes = s.quotes := rfl
@[simp] theorem post_signingStopped : (post e s).signingStopped = s.signingStopped := rfl
@[simp] theorem post_dbg : (post e s).dbg = s.dbg := rfl
@[simp] theorem post_fuses : (post e s).fuses = s.fuses := rfl
@[simp] theorem post_mram : (post e s).mram = s.mram := rfl
@[simp] theorem post_boot : (post e s).boot = s.boot := rfl
@[simp] theorem post_pins : (post e s).pins = s.pins := rfl
@[simp] theorem post_sliceReset : (post e s).sliceReset = s.sliceReset := rfl
@[simp] theorem post_quadReset : (post e s).quadReset = s.quadReset := rfl

end

/-! ## postWork -/

section

variable (s : State) (e : PEvent)

@[simp] theorem postWork_pending : (postWork e s).pending = s.pending := rfl
@[simp] theorem postWork_fresh : (postWork e s).fresh = s.fresh := rfl
@[simp] theorem postWork_seqr : (postWork e s).seqr = s.seqr := rfl
@[simp] theorem postWork_devIncs : (postWork e s).devIncs = s.devIncs := rfl
@[simp] theorem postWork_devPerfs : (postWork e s).devPerfs = s.devPerfs := rfl
@[simp] theorem postWork_devEvents : (postWork e s).devEvents = s.devEvents := rfl
@[simp] theorem postWork_counters : (postWork e s).counters = s.counters := rfl
@[simp] theorem postWork_perfs : (postWork e s).perfs = s.perfs := rfl
@[simp] theorem postWork_clears : (postWork e s).clears = s.clears := rfl
@[simp] theorem postWork_perfClears : (postWork e s).perfClears = s.perfClears := rfl
@[simp] theorem postWork_changes : (postWork e s).changes = s.changes := rfl
@[simp] theorem postWork_regWrites : (postWork e s).regWrites = s.regWrites := rfl
@[simp] theorem postWork_answers : (postWork e s).answers = s.answers := rfl
@[simp] theorem postWork_cmds : (postWork e s).cmds = s.cmds := rfl
@[simp] theorem postWork_plans : (postWork e s).plans = s.plans := rfl
@[simp] theorem postWork_admissions : (postWork e s).admissions = s.admissions := rfl
@[simp] theorem postWork_cores : (postWork e s).cores = s.cores := rfl
@[simp] theorem postWork_crumbUnits : (postWork e s).crumbUnits = s.crumbUnits := rfl
@[simp] theorem postWork_dram : (postWork e s).dram = s.dram := rfl
@[simp] theorem postWork_words : (postWork e s).words = s.words := rfl
@[simp] theorem postWork_lostStacks : (postWork e s).lostStacks = s.lostStacks := rfl
@[simp] theorem postWork_rows : (postWork e s).rows = s.rows := rfl
@[simp] theorem postWork_newRows : (postWork e s).newRows = s.newRows := rfl
@[simp] theorem postWork_fpGen : (postWork e s).fpGen = s.fpGen := rfl
@[simp] theorem postWork_fpTick : (postWork e s).fpTick = s.fpTick := rfl
@[simp] theorem postWork_fpFlags : (postWork e s).fpFlags = s.fpFlags := rfl
@[simp] theorem postWork_fpLive : (postWork e s).fpLive = s.fpLive := rfl
@[simp] theorem postWork_stk : (postWork e s).stk = s.stk := rfl
@[simp] theorem postWork_ports : (postWork e s).ports = s.ports := rfl
@[simp] theorem postWork_rings : (postWork e s).rings = s.rings := rfl
@[simp] theorem postWork_accepted : (postWork e s).accepted = s.accepted := rfl
@[simp] theorem postWork_tlinkOut : (postWork e s).tlinkOut = s.tlinkOut := rfl
@[simp] theorem postWork_tlinkHeld : (postWork e s).tlinkHeld = s.tlinkHeld := rfl
@[simp] theorem postWork_heldAway : (postWork e s).heldAway = s.heldAway := rfl
@[simp] theorem postWork_quads : (postWork e s).quads = s.quads := rfl
@[simp] theorem postWork_therm : (postWork e s).therm = s.therm := rfl
@[simp] theorem postWork_power : (postWork e s).power = s.power := rfl
@[simp] theorem postWork_cfg : (postWork e s).cfg = s.cfg := rfl
@[simp] theorem postWork_layouts : (postWork e s).layouts = s.layouts := rfl
@[simp] theorem postWork_layoutOwners : (postWork e s).layoutOwners = s.layoutOwners := rfl
@[simp] theorem postWork_pools : (postWork e s).pools = s.pools := rfl
@[simp] theorem postWork_descs : (postWork e s).descs = s.descs := rfl
@[simp] theorem postWork_seqs : (postWork e s).seqs = s.seqs := rfl
@[simp] theorem postWork_tables : (postWork e s).tables = s.tables := rfl
@[simp] theorem postWork_shadows : (postWork e s).shadows = s.shadows := rfl
@[simp] theorem postWork_layoutCopies : (postWork e s).layoutCopies = s.layoutCopies := rfl
@[simp] theorem postWork_journal : (postWork e s).journal = s.journal := rfl
@[simp] theorem postWork_jpend : (postWork e s).jpend = s.jpend := rfl
@[simp] theorem postWork_nextJournal : (postWork e s).nextJournal = s.nextJournal := rfl
@[simp] theorem postWork_flits : (postWork e s).flits = s.flits := rfl
@[simp] theorem postWork_frames : (postWork e s).frames = s.frames := rfl
@[simp] theorem postWork_fseqs : (postWork e s).fseqs = s.fseqs := rfl
@[simp] theorem postWork_foldBuf : (postWork e s).foldBuf = s.foldBuf := rfl
@[simp] theorem postWork_absorbed : (postWork e s).absorbed = s.absorbed := rfl
@[simp] theorem postWork_edgeCredits : (postWork e s).edgeCredits = s.edgeCredits := rfl
@[simp] theorem postWork_slots : (postWork e s).slots = s.slots := rfl
@[simp] theorem postWork_records : (postWork e s).records = s.records := rfl
@[simp] theorem postWork_links : (postWork e s).links = s.links := rfl
@[simp] theorem postWork_seals : (postWork e s).seals = s.seals := rfl
@[simp] theorem postWork_sealAsked : (postWork e s).sealAsked = s.sealAsked := rfl
@[simp] theorem postWork_sealed : (postWork e s).sealed = s.sealed := rfl
@[simp] theorem postWork_sealNext : (postWork e s).sealNext = s.sealNext := rfl
@[simp] theorem postWork_chain : (postWork e s).chain = s.chain := rfl
@[simp] theorem postWork_linkCount : (postWork e s).linkCount = s.linkCount := rfl
@[simp] theorem postWork_chainTick : (postWork e s).chainTick = s.chainTick := rfl
@[simp] theorem postWork_markers : (postWork e s).markers = s.markers := rfl
@[simp] theorem postWork_ledgers : (postWork e s).ledgers = s.ledgers := rfl
@[simp] theorem postWork_cmdLog : (postWork e s).cmdLog = s.cmdLog := rfl
@[simp] theorem postWork_replay : (postWork e s).replay = s.replay := rfl
@[simp] theorem postWork_replayChanges : (postWork e s).replayChanges = s.replayChanges := rfl
@[simp] theorem postWork_evdLow : (postWork e s).evdLow = s.evdLow := rfl
@[simp] theorem postWork_teleStack : (postWork e s).teleStack = s.teleStack := rfl
@[simp] theorem postWork_teleDev : (postWork e s).teleDev = s.teleDev := rfl
@[simp] theorem postWork_staging : (postWork e s).staging = s.staging := rfl
@[simp] theorem postWork_stagedTo : (postWork e s).stagedTo = s.stagedTo := rfl
@[simp] theorem postWork_logNext : (postWork e s).logNext = s.logNext := rfl
@[simp] theorem postWork_faultMap : (postWork e s).faultMap = s.faultMap := rfl
@[simp] theorem postWork_mapDirty : (postWork e s).mapDirty = s.mapDirty := rfl
@[simp] theorem postWork_drain : (postWork e s).drain = s.drain := rfl
@[simp] theorem postWork_drainPend : (postWork e s).drainPend = s.drainPend := rfl
@[simp] theorem postWork_scrubPaused : (postWork e s).scrubPaused = s.scrubPaused := rfl
@[simp] theorem postWork_scrubPausedAt : (postWork e s).scrubPausedAt = s.scrubPausedAt := rfl
@[simp] theorem postWork_scrubPassTick : (postWork e s).scrubPassTick = s.scrubPassTick := rfl
@[simp] theorem postWork_inject : (postWork e s).inject = s.inject := rfl
@[simp] theorem postWork_scrubbed : (postWork e s).scrubbed = s.scrubbed := rfl
@[simp] theorem postWork_rereads : (postWork e s).rereads = s.rereads := rfl
@[simp] theorem postWork_lastingWords : (postWork e s).lastingWords = s.lastingWords := rfl
@[simp] theorem postWork_injWords : (postWork e s).injWords = s.injWords := rfl
@[simp] theorem postWork_lastPass : (postWork e s).lastPass = s.lastPass := rfl
@[simp] theorem postWork_corrected : (postWork e s).corrected = s.corrected := rfl
@[simp] theorem postWork_mailboxes : (postWork e s).mailboxes = s.mailboxes := rfl
@[simp] theorem postWork_sessions : (postWork e s).sessions = s.sessions := rfl
@[simp] theorem postWork_host : (postWork e s).host = s.host := rfl
@[simp] theorem postWork_eventLog : (postWork e s).eventLog = s.eventLog := rfl
@[simp] theorem postWork_nextEvent : (postWork e s).nextEvent = s.nextEvent := rfl
@[simp] theorem postWork_heldEvents : (postWork e s).heldEvents = s.heldEvents := rfl
@[simp] theorem postWork_hearth : (postWork e s).hearth = s.hearth := rfl
@[simp] theorem postWork_debugLevel : (postWork e s).debugLevel = s.debugLevel := rfl
@[simp] theorem postWork_tapOpen : (postWork e s).tapOpen = s.tapOpen := rfl
@[simp] theorem postWork_nonces : (postWork e s).nonces = s.nonces := rfl
@[simp] theorem postWork_quotes : (postWork e s).quotes = s.quotes := rfl
@[simp] theorem postWork_signingStopped : (postWork e s).signingStopped = s.signingStopped := rfl
@[simp] theorem postWork_dbg : (postWork e s).dbg = s.dbg := rfl
@[simp] theorem postWork_fuses : (postWork e s).fuses = s.fuses := rfl
@[simp] theorem postWork_mram : (postWork e s).mram = s.mram := rfl
@[simp] theorem postWork_boot : (postWork e s).boot = s.boot := rfl
@[simp] theorem postWork_pins : (postWork e s).pins = s.pins := rfl
@[simp] theorem postWork_sliceReset : (postWork e s).sliceReset = s.sliceReset := rfl
@[simp] theorem postWork_quadReset : (postWork e s).quadReset = s.quadReset := rfl

end

end Sys2Proof.Machine
end

