-- ==== Sys2Proof/Laws/Tables.lean ====
section
/-! SUPPORT. Reading after writing in tables and byte memories, and that every memory operation keeps the canonical form. -/

namespace Sys2Proof.Machine

/-! ## Tables -/

@[simp] theorem Tab.get_nil {α : Type} (k : Nat) : Tab.get ([] : Tab α) k = none := rfl

/-- A value set is read back. -/
@[simp] theorem Tab.get_set_same {α : Type} (t : Tab α) (k : Nat) (v : α) : Tab.get (Tab.set t k v) k = some v := by
  induction t with
  | nil => simp [Tab.set, Tab.get]
  | cons e t ih =>
    obtain ⟨j, w⟩ := e
    simp only [Tab.set]
    split
    · simp [Tab.get]
    · split
      · simp [Tab.get]
      · rename_i h _
        simp [Tab.get, h, ih]

/-- A value set leaves every other key. -/
theorem Tab.get_set_other {α : Type} (t : Tab α) {k j : Nat} (v : α) (h : j ≠ k) : Tab.get (Tab.set t k v) j = Tab.get t j := by
  induction t with
  | nil => simp [Tab.set, Tab.get, Ne.symm h]
  | cons e t ih =>
    obtain ⟨i, w⟩ := e
    simp only [Tab.set]
    split
    · rename_i hik
      subst hik
      simp [Tab.get, Ne.symm h]
    · split
      · simp [Tab.get, Ne.symm h]
      · simp [Tab.get, ih]

@[simp] theorem Tab.getD_set_same {α : Type} (t : Tab α) (k : Nat) (v d : α) : Tab.getD (Tab.set t k v) k d = v := by simp [Tab.getD]

theorem Tab.getD_set_other {α : Type} (t : Tab α) {k j : Nat} (v d : α) (h : j ≠ k) :
    Tab.getD (Tab.set t k v) j d = Tab.getD t j d := by simp [Tab.getD, Tab.get_set_other t v h]

/-! ## Byte memories -/

@[simp] theorem Mem.get_nil (k : Nat) : Mem.get [] k = 0 := rfl

/-- The form of a memory above a bound, cell by cell. -/
theorem Mem.above_cons (lo j : Nat) (v : BitVec 8) (t : Mem) :
    Mem.above lo ((j, v) :: t) = true ↔ lo < j ∧ v ≠ 0#8 ∧ Mem.above j t = true := by
  simp [Mem.above, and_assoc]

/-- The canonical form, cell by cell. -/
theorem Mem.wf_cons (j : Nat) (v : BitVec 8) (t : Mem) : Mem.wf ((j, v) :: t) = true ↔ v ≠ 0#8 ∧ Mem.above j t = true := by
  simp [Mem.wf]

/-- A bound may be lowered. -/
theorem Mem.above_mono (m : Mem) {lo hi : Nat} (h : Mem.above hi m = true) (hl : lo ≤ hi) : Mem.above lo m = true := by
  cases m with
  | nil => rfl
  | cons e t =>
    rw [Mem.above_cons] at h ⊢
    exact ⟨by omega, h.2⟩

/-- A memory above a bound has the canonical form. -/
theorem Mem.wf_of_above (m : Mem) {lo : Nat} (h : Mem.above lo m = true) : Mem.wf m = true := by
  cases m with
  | nil => rfl
  | cons e t => exact (Mem.wf_cons ..).2 ((Mem.above_cons ..).1 h).2

/-- Nothing below the first address is listed. -/
theorem Mem.get_below (m : Mem) {lo k : Nat} (h : Mem.above lo m = true) (hk : k ≤ lo) : Mem.get m k = 0 := by
  induction m generalizing lo with
  | nil => rfl
  | cons e t ih =>
    obtain ⟨j, v⟩ := e
    rw [Mem.above_cons] at h
    have hj : j ≠ k := by omega
    simpa [Mem.get, hj] using ih h.2.2 (by omega)

/-- What a write at a listed address, before it or beyond it leaves. -/
theorem Mem.set_cons (j k : Nat) (w v : BitVec 8) (t : Mem) : Mem.set ((j, w) :: t) k v
    = if j = k then (if v = 0#8 then t else (k, v) :: t)
      else if k < j then (if v = 0#8 then (j, w) :: t else (k, v) :: (j, w) :: t) else (j, w) :: Mem.set t k v := rfl

/-- A byte written above a bound leaves the memory above it. -/
theorem Mem.above_set (m : Mem) {lo k : Nat} (v : BitVec 8) (h : Mem.above lo m = true) (hk : lo < k) :
    Mem.above lo (Mem.set m k v) = true := by
  induction m generalizing lo with
  | nil => by_cases hv : v = 0#8 <;> simp [Mem.set, Mem.above, hv, hk]
  | cons e t ih =>
    obtain ⟨j, w⟩ := e
    have h' := (Mem.above_cons ..).1 h
    have hm := Mem.above_mono t (lo := lo) h'.2.2 (by omega)
    rw [Mem.set_cons]
    split_ifs with h1 h2 h3 h4
    · exact hm
    · exact (Mem.above_cons ..).2 ⟨hk, h2, h1 ▸ h'.2.2⟩
    · exact h
    · exact (Mem.above_cons ..).2 ⟨hk, h4, (Mem.above_cons ..).2 ⟨h3, h'.2⟩⟩
    · exact (Mem.above_cons ..).2 ⟨h'.1, h'.2.1, ih h'.2.2 (by omega)⟩

/-- A byte written keeps the canonical form. -/
theorem Mem.wf_set (m : Mem) (k : Nat) (v : BitVec 8) (h : Mem.wf m = true) : Mem.wf (Mem.set m k v) = true := by
  cases m with
  | nil => by_cases hv : v = 0#8 <;> simp [Mem.set, Mem.wf, Mem.above, hv]
  | cons e t =>
    obtain ⟨j, w⟩ := e
    have h' := (Mem.wf_cons ..).1 h
    rw [Mem.set_cons]
    split_ifs with h1 h2 h3 h4
    · exact Mem.wf_of_above t h'.2
    · exact (Mem.wf_cons ..).2 ⟨h2, h1 ▸ h'.2⟩
    · exact h
    · exact (Mem.wf_cons ..).2 ⟨h4, (Mem.above_cons ..).2 ⟨h3, h'⟩⟩
    · exact (Mem.wf_cons ..).2 ⟨h'.1, Mem.above_set t v h'.2 (by omega)⟩

/-- Bytes written keep the canonical form. -/
theorem Mem.wf_write (l : List Byte) (m : Mem) (a : Nat) (h : Mem.wf m = true) : Mem.wf (Mem.write m a l) = true := by
  induction l generalizing m a with
  | nil => exact h
  | cons b l ih => exact ih _ _ (Mem.wf_set m a b h)

/-- Cells written one by one keep the canonical form. -/
theorem Mem.wf_foldl {α : Type} (l : List α) (f : α → Nat) (g : α → BitVec 8) (m : Mem) (h : Mem.wf m = true) :
    Mem.wf (l.foldl (fun m e => Mem.set m (f e) (g e)) m) = true := by
  induction l generalizing m with
  | nil => exact h
  | cons e l ih => exact ih _ (Mem.wf_set m _ _ h)

/-- Bytes dropped keep a bound. -/
theorem Mem.above_filter (p : Host.Cell → Bool) (m : Mem) {lo : Nat} (h : Mem.above lo m = true) : Mem.above lo (m.filter p) = true := by
  induction m generalizing lo with
  | nil => rfl
  | cons e t ih =>
    have h' := (Mem.above_cons ..).1 h
    rw [List.filter_cons]
    split_ifs
    · exact (Mem.above_cons ..).2 ⟨h'.1, h'.2.1, ih h'.2.2⟩
    · exact Mem.above_mono _ (ih h'.2.2) (by omega)

/-- Bytes dropped keep the canonical form. -/
theorem Mem.wf_filter (p : Host.Cell → Bool) (m : Mem) (h : Mem.wf m = true) : Mem.wf (m.filter p) = true := by
  cases m with
  | nil => rfl
  | cons e t =>
    have h' := (Mem.wf_cons ..).1 h
    rw [List.filter_cons]
    split_ifs
    · exact (Mem.wf_cons ..).2 ⟨h'.1, Mem.above_filter p t h'.2⟩
    · exact Mem.wf_of_above _ (Mem.above_filter p t h'.2)

/-- A byte written is read back. -/
theorem Mem.get_set_same (m : Mem) (k : Nat) (v : BitVec 8) (h : Mem.wf m = true) : Mem.get (Mem.set m k v) k = v := by
  induction m with
  | nil => by_cases hv : v = 0#8 <;> simp [Mem.set, Mem.get, hv]
  | cons e t ih =>
    obtain ⟨j, w⟩ := e
    have h' := (Mem.wf_cons ..).1 h
    rw [Mem.set_cons]
    split_ifs with h1 h2 h3 h4
    · exact (Mem.get_below t h'.2 (by omega)).trans h2.symm
    · simp [Mem.get]
    · simpa [Mem.get, h1, h4] using Mem.get_below t h'.2 (k := k) (by omega)
    · simp [Mem.get]
    · simpa [Mem.get, h1] using ih (Mem.wf_of_above t h'.2)

/-- A byte written leaves every other address. -/
theorem Mem.get_set_other (m : Mem) {k j : Nat} (v : BitVec 8) (h : j ≠ k) : Mem.get (Mem.set m k v) j = Mem.get m j := by
  induction m with
  | nil => by_cases hv : v = 0#8 <;> simp [Mem.set, Mem.get, hv, Ne.symm h]
  | cons e t ih =>
    obtain ⟨i, w⟩ := e
    rw [Mem.set_cons]
    split_ifs with h1 h2 h3 h4
    · simp [Mem.get, h1, Ne.symm h]
    · simp [Mem.get, h1, Ne.symm h]
    · rfl
    · simp [Mem.get, Ne.symm h]
    · simp [Mem.get, ih]

/-- A byte outside the bytes written is left. -/
theorem Mem.get_write_other (l : List Byte) (m : Mem) {a j : Nat} (h : j < a ∨ a + l.length ≤ j) :
    Mem.get (Mem.write m a l) j = Mem.get m j := by
  induction l generalizing m a with
  | nil => rfl
  | cons b l ih =>
    simp only [List.length_cons] at h
    rw [Mem.write, ih _ (by omega), Mem.get_set_other m b (by omega)]

end Sys2Proof.Machine
end

