-- ==== Sys2Proof/Laws/Ops.lean ====
section
/-! SUPPORT. What each shared operation can do: units, tile and crumb instructions, flits, frames, packets and mailbox commands. -/

namespace Sys2Proof.Machine

open Sys2Proof

/-! ## Units -/

@[simp] theorem unit_true (k : Out) : unit true k = k := rfl
@[simp] theorem unit_false (k : Out) : unit false k = .fault .noSuchUnit := rfl

/-- A command answers a next state where the unit it names exists and what it runs does. -/
theorem unit_next {b : Bool} {k : Out} {t : State} (h : unit b k = .next t) : b = true ∧ k = .next t := by
  cases b <;> simp_all [unit]

theorem when_true (s t : State) : when true s t = .next t := rfl
theorem when_false (s t : State) : when false s t = .next s := rfl

/-- A command that waits or takes place answers one of the two states. -/
theorem when_next {b : Bool} {s t u : State} (h : when b s t = .next u) : u = s ∨ u = t := by
  cases b <;> simp_all [when]

/-! ## Reading back units by number -/

@[simp] theorem State.core_setCore (s : State) (c : Lcid) (k : CoreCtx) : (s.setCore c k).core c = k := by
  simp [State.core, State.setCore]

theorem State.core_setCore_other (s : State) {c d : Lcid} (k : CoreCtx) (h : d ≠ c) : (s.setCore c k).core d = s.core d := by
  have : d.toNat ≠ c.toNat := fun e => h (BitVec.eq_of_toNat_eq e)
  simp [State.core, State.setCore, Tab.getD_set_other _ _ _ this]

@[simp] theorem State.mbAt_setMb (s : State) (n : Nat) (v : Mailbox) : (s.setMb n v).mbAt n = v := by
  simp [State.mbAt, State.setMb]

theorem State.mbAt_setMb_other (s : State) {n k : Nat} (v : Mailbox) (h : k ≠ n) : (s.setMb n v).mbAt k = s.mbAt k := by
  simp [State.mbAt, State.setMb, Tab.getD_set_other _ _ _ h]

@[simp] theorem State.stackAt_setStack (s : State) (n : Nat) (v : Stack) : (s.setStack n v).stackAt n = v := by
  simp [State.stackAt, State.setStack]

theorem State.stackAt_setStack_other (s : State) {n k : Nat} (v : Stack) (h : k ≠ n) : (s.setStack n v).stackAt k = s.stackAt k := by
  simp [State.stackAt, State.setStack, Tab.getD_set_other _ _ _ h]

@[simp] theorem State.portAt_setPort (s : State) (n : Nat) (v : Port) : (s.setPort n v).portAt n = v := by
  simp [State.portAt, State.setPort]

theorem State.portAt_setPort_other (s : State) {n k : Nat} (v : Port) (h : k ≠ n) : (s.setPort n v).portAt k = s.portAt k := by
  simp [State.portAt, State.setPort, Tab.getD_set_other _ _ _ h]

@[simp] theorem State.thermAt_setTherm (s : State) (n : Nat) (v : Therm) : (s.setTherm n v).thermAt n = v := by
  simp [State.thermAt, State.setTherm]

@[simp] theorem State.quadAt_setQuad (s : State) (n : Nat) (v : Quad) : (s.setQuad n v).quadAt n = v := by
  simp [State.quadAt, State.setQuad]

@[simp] theorem State.crumbAt_setCrumb (s : State) (u : UnitId) (v : CrumbUnit) : (s.setCrumb u v).crumbAt u = v := by
  simp [State.crumbAt, State.setCrumb]

/-! ## Tile instructions -/

/-- What an issued instruction gives: its operation's core and state, nothing while it waits, or its core's fault. -/
theorem issue_next {c : Lcid} {op : BitVec 8} {h : Shape} {o : Op} {s t : State} {body : CoreCtx → Tr (CoreCtx × State)}
    (hn : issue c op h o s body = .next t) :
    t = s ∨ (∃ k u, body { s.core c with cycles := max (s.core c).cycles o.cyc } = .ok (k, u) ∧ t = endInstr c k u)
      ∨ ∃ cause, t = coreFault c cause s := by
  obtain ⟨-, hn⟩ := unit_next hn
  split at hn
  · dsimp only at hn
    split at hn
    · rename_i k u heq
      refine .inr (.inl ⟨k, u, ?_, (Host.Outcome.next.inj hn).symm⟩)
      simp only [bind, Except.bind] at heq
      split at heq
      · cases heq
      · split at heq
        · cases heq
        · split at heq
          · cases heq
          · rename_i q hq
            split at heq
            · cases heq
            · simp only [pure, Except.pure, Except.ok.injEq] at heq
              rw [hq, heq]
    · exact .inl (Host.Outcome.next.inj hn).symm
    · exact .inr (.inr ⟨_, (Host.Outcome.next.inj hn).symm⟩)
  · exact .inl (Host.Outcome.next.inj hn).symm

/-- An instruction that its core has fetched, with legal fields, no load of it pending, and cycles within the budget, gives what its
operation gives. -/
theorem issue_ok {c : Lcid} {op : BitVec 8} {h : Shape} {o : Op} {s u : State} {k : CoreCtx} {body : CoreCtx → Tr (CoreCtx × State)}
    (hv : validLcid c = true) (hi : issues s c op o = true) (hf : ∃ x, checkFields h o = .ok x)
    (hp : (s.core c).fieldPending h o = false) (hb : max (s.core c).cycles o.cyc ≤ (s.core c).budget)
    (he : body { s.core c with cycles := max (s.core c).cycles o.cyc } = .ok (k, u)) :
    issue c op h o s body = .next (endInstr c k u) := by
  obtain ⟨x, hf⟩ := hf
  have hw : await (!(s.core c).fieldPending h o) = .ok () := by rw [hp]; rfl
  have hn : need (decide (max (s.core c).cycles o.cyc ≤ (s.core c).budget)) 0xB = .ok () := by rw [decide_eq_true hb]; rfl
  unfold issue
  dsimp only
  rw [hv, unit_true, if_pos hi]
  simp only [bind, Except.bind, hf, hw, he, hn, pure, Except.pure]

/-! ## Crumb instructions -/

/-- What a crumb instruction gives: its operation's unit and state, nothing while it waits, a lost slice, a broken rule, or a fault of
its core. -/
theorem crumbRun_next {u : UnitId} {op : BitVec 6} {d a b : Bool} {imms : BitVec 17} {o : CrumbOp} {s t : State}
    {body : Lcid → CrumbJob → CrumbUnit → Except CStop (CrumbUnit × Nat × State)} (hn : crumbRun u op d a b imms o s body = .next t) :
    t = s ∨ ∃ c j, s.jobWhere u (fun j => j.started && !j.ended) = some (c, j)
      ∧ (t = loseReturns c u j s ∨ t = breakProgram c u j s ∨ t = progFault c 0xB j.pc (s.core c).slot s
        ∨ ∃ v n w, body c j (s.crumbAt u) = .ok (v, n, w)
            ∧ t = (if v.running && v.fetchBad then breakProgram c u j (incP .crumbCycles n (w.setCrumb u v))
                else incP .crumbCycles n (w.setCrumb u v))) := by
  obtain ⟨-, hn⟩ := unit_next hn
  dsimp only at hn
  split at hn
  · exact .inl (Host.Outcome.next.inj hn).symm
  · rename_i c j hj
    split at hn
    · split at hn
      · exact .inr ⟨c, j, hj, .inl (Host.Outcome.next.inj hn).symm⟩
      · split at hn
        · rename_i v n w heq
          refine .inr ⟨c, j, hj, .inr (.inr (.inr ⟨v, n, w, ?_, (Host.Outcome.next.inj hn).symm⟩))⟩
          simp only [bind, Except.bind] at heq
          split at heq
          · cases heq
          · exact heq
        · exact .inl (Host.Outcome.next.inj hn).symm
        · exact .inr ⟨c, j, hj, .inr (.inl (Host.Outcome.next.inj hn).symm)⟩
        · exact .inr ⟨c, j, hj, .inr (.inr (.inl (Host.Outcome.next.inj hn).symm))⟩
    · exact .inl (Host.Outcome.next.inj hn).symm

/-! ## Flits, frames and packets -/

/-- What the arrival of a flit does: nothing where it is not next; a reserved TYPE is counted and dropped; a second mismatch faults the
tick at its router; else what its kind does, or nothing more of a stopped attempt. -/
theorem arrive_next {kind : BitVec 4} {f : NetFlit} {bad : List Nat} {s t : State} {k : State → State} (hn : arrive kind f bad s k = .next t) :
    t = s ∨ ∃ u : State, u = { s with flits := s.flits.erase f }
      ∧ (t = devInc (.crcFail f.stack) 1 u
        ∨ (∃ r, t = reportFault (routerSite f.stack r) (devInc (.crcFail f.stack) 1 (devInc (.crcReplay f.stack) 1 u)))
        ∨ ∃ v : State, (v = u ∨ v = devInc (.crcReplay f.stack) 1 u)
          ∧ (t = k (incP (.flits f.stack) (s.forwards f) v) ∨ t = incP (.flits f.stack) (s.forwards f) v)) := by
  obtain ⟨-, hn⟩ := unit_next hn
  split at hn
  · dsimp only at hn
    split at hn
    · exact .inr ⟨_, rfl, .inl (Host.Outcome.next.inj hn).symm⟩
    · split at hn
      · refine .inr ⟨_, rfl, .inr ?_⟩
        split at hn
        · exact .inl ⟨_, (Host.Outcome.next.inj hn).symm⟩
        · split at hn
          · refine .inr ⟨_, ?_, .inl (Host.Outcome.next.inj hn).symm⟩
            split
            · exact .inl rfl
            · exact .inr rfl
          · refine .inr ⟨_, ?_, .inr (Host.Outcome.next.inj hn).symm⟩
            split
            · exact .inl rfl
            · exact .inr rfl
      · exact .inl (Host.Outcome.next.inj hn).symm
  · exact .inl (Host.Outcome.next.inj hn).symm

/-- What the arrival of a frame does: nothing where it is not next, REPLAY_REQ with its first mismatch, a fault with its second, and
else what its kind does, or nothing more of a stopped attempt. -/
theorem arriveFrame_next {kind : BitVec 4} {f : NetFrame} {bad : Nat} {s t : State} {k : State → State}
    (hn : arriveFrame kind f bad s k = .next t) :
    t = s ∨ t = k { s with frames := s.frames.erase f } ∨ t = { s with frames := s.frames.erase f }
      ∨ t = answerFrame f 4 f.flit (devInc (.frameReplay f.src) 1
          { s with frames := s.frames.map fun g => if g = f then { f with tries := 1, held := true } else g })
      ∨ t = reportFault (engineSite s f) (devInc (.frameFail f.src) 1 { s with frames := s.frames.erase f }) := by
  obtain ⟨-, hn⟩ := unit_next hn
  split at hn
  · dsimp only at hn
    split at hn
    · split at hn
      · exact .inr (.inl (Host.Outcome.next.inj hn).symm)
      · exact .inr (.inr (.inl (Host.Outcome.next.inj hn).symm))
    · split at hn
      · exact .inr (.inr (.inr (.inl (Host.Outcome.next.inj hn).symm)))
      · exact .inr (.inr (.inr (.inr (Host.Outcome.next.inj hn).symm)))
  · exact .inl (Host.Outcome.next.inj hn).symm

/-- A packet that an open port takes without a replay is acted on, or sent on. -/
theorem arrivePacket_ok {port bad : Nat} {s : State} {k : State → State} (hv : validPort port = true) (ho : s.portOpen port = true)
    (hb : bad = 0) (hr : (s.portAt port).replays < 8) :
    arrivePacket port bad s k = .next (k (s.setPort port { s.portAt port with replays := 0 })) := by
  subst hb
  simp [arrivePacket, hv, ho, hr]

/-! ## Mailbox commands -/

/-- A command that is next and that no check stops is carried out. -/
theorem serveCmd_run {c : Cmd} {s : State} (ht : c.taken s = true) (hr : c.refusal s = none) :
    serveCmd c s = .next (c.run (c.served s)) := by
  have hv : validMailbox c.m.mb = true := by simp [Cmd.taken] at ht; exact ht.1.1
  simp [serveCmd, hv, ht, hr]

/-- A command that a check stops is answered with that check's status. -/
theorem serveCmd_refused {c : Cmd} {s : State} {v : Status × Nat} (ht : c.taken s = true) (hr : c.refusal s = some v) :
    serveCmd c s = .next (c.miss (answerUnknown s) v (complete c.op c.m v.1 v.2 0 [] (c.served s))) := by
  have hv : validMailbox c.m.mb = true := by simp [Cmd.taken] at ht; exact ht.1.1
  simp [serveCmd, hv, ht, hr]

/-- Everything a mailbox command can do. -/
theorem serveCmd_next {c : Cmd} {s t : State} (h : serveCmd c s = .next t) :
    t = s ∨ (c.taken s = true ∧ c.refusal s = none ∧ t = c.run (c.served s))
      ∨ ∃ v, c.taken s = true ∧ c.refusal s = some v
          ∧ t = c.miss (answerUnknown s) v (complete c.op c.m v.1 v.2 0 [] (c.served s)) := by
  by_cases ht : c.taken s = true
  · cases hr : c.refusal s with
    | none => rw [serveCmd_run ht hr] at h; exact .inr (.inl ⟨ht, rfl, by simpa using h.symm⟩)
    | some v => rw [serveCmd_refused ht hr] at h; exact .inr (.inr ⟨v, ht, rfl, by simpa using h.symm⟩)
  · obtain ⟨-, h⟩ := unit_next h
    simp only [ht, Bool.false_eq_true, if_false] at h
    exact .inl (by simpa [skip] using h.symm)

/-- A served mailbox command on an existing mailbox always answers a next state. -/
theorem serveCmd_answers (c : Cmd) (s : State) (hv : validMailbox c.m.mb = true) : ∃ t, serveCmd c s = .next t := by
  unfold serveCmd skip
  rw [hv, unit_true]
  split
  · split <;> exact ⟨_, rfl⟩
  · exact ⟨_, rfl⟩

/-! ## Edits of page tables (R186) -/

/-- A copy of a group's tables changes the shadows alone. -/
theorem copyLeaf_some {work : Bool} {slot gi n : Nat} {s t : State} (h : copyLeaf work slot gi n s = some t) :
    t = { s with shadows := t.shadows, work := t.work } := by
  unfold copyLeaf at h
  split at h
  · cases h; rfl
  · simp only [Option.bind_eq_some_iff, Option.map_eq_some_iff] at h
    obtain ⟨d, -, i, -, rfl⟩ := h
    cases work <;> rfl

/-- Copies one after the other change the shadows alone. -/
theorem copies_some {l : List (Nat × Nat × Nat)} {work : Bool} {s t : State}
    (h : l.foldl (fun t x => t.bind (copyLeaf work x.1 x.2.1 x.2.2)) (some s) = some t) :
    t = { s with shadows := t.shadows, work := t.work } := by
  induction l generalizing s with
  | nil => cases h; rfl
  | cons x l ih =>
    simp only [List.foldl_cons, Option.bind_some] at h
    cases hc : copyLeaf work x.1 x.2.1 x.2.2 s with
    | none =>
      rw [hc] at h
      have : ∀ m : List (Nat × Nat × Nat), m.foldl (fun t x => t.bind (copyLeaf work x.1 x.2.1 x.2.2)) none = none := fun m => by
        induction m with
        | nil => rfl
        | cons y m im => simpa using im
      rw [this] at h; cases h
    | some u =>
      rw [hc] at h
      rw [ih h, copyLeaf_some hc]

/-- An edit that is accepted stages its change and records its message, and changes the shadows beside. -/
theorem acceptEdit_eq (op : Nat) (m : Msg) (c : Change) (t : State) :
    ∃ u : State, u = { t with shadows := u.shadows, work := u.work } ∧ acceptEdit op m c t = accept op m [c] [] u := by
  unfold acceptEdit
  cases h : t.copied c with
  | none => exact ⟨t, rfl, rfl⟩
  | some u => exact ⟨u, copies_some h, rfl⟩

end Sys2Proof.Machine
end

