-- ==== Sys2Proof/Tests/Slice0.lean ====
section
/-! SUPPORT. Tests: ill-formed commands, values the spec gives, and for every statement with hypotheses a state and operands
that meet them. -/

namespace Sys2Proof.Tests

open Sys2Proof Sys2Proof.Machine Sys2Proof.Claims

set_option Elab.async false

/-! ## States to test on -/

/-- A core that has fetched the word of an opcode and its fields, with room to run and NOPs after it. -/
def coreOf (op : BitVec 8) (o : Op) : CoreCtx :=
  { CoreCtx.init with run := .running, budget := 100, resident := [(0, 64)],
                      bench := ((CoreCtx.init).put (runOf 0 (leBytes 8 (tileWord op o).toNat) false)).bench }

/-- A tick executes with one core, of logical core 0. -/
def tile (op : BitVec 8) (o : Op) (f : CoreCtx → CoreCtx) : State :=
  { State.reset with seqr := { State.reset.seqr with phase := .executing }, cores := [(0, f (coreOf op o))] }

/-- A tile descriptor of a format, shape and base, dense, rows packed. -/
def desc (fmt rows cols base : Nat) : BitVec 128 := BitVec.ofNat 128 (fmt * 2 ^ 124 + rows * 2 ^ 48 + cols * 2 ^ 32 + base)

/-- Three registers, all fields else zero. -/
def r3 (d a b : BitVec 5) : Op := ⟨d, a, b, 0, 0, 0⟩

/-- The instruction is issued on the test state. -/
def runs (op : BitVec 8) (h : Shape) (o : Op) (f : CoreCtx → CoreCtx) : Bool := issued 0 op h o (tile op o f)

/-- The core after a command, where it answers a next state. -/
def after (r : Out) : CoreCtx := match r with | .next t => t.core 0 | _ => CoreCtx.init

/-- Scalar registers as given. -/
def regs (l : Tab W64) (k : CoreCtx) : CoreCtx := { k with s := l }

/-! ## Scalar instructions (R81-R83) -/

theorem wit_scalar_arithmetic : runs 0x00 ⟨.no, .no, .no, 0, 0, false⟩ (r3 0 0 0) id = true
    ∧ ([0x01, 0x02, 0x03, 0x04, 0x05, 0x06, 0x07, 0x08, 0x09].all fun op => runs op arithShape (r3 1 2 3) id) = true := by
  decide +kernel

/-- R81: ADD wraps at 2^64. -/
theorem test_add_wraps : (after (exec (.add 0 (r3 1 2 3)) (tile 0x01 (r3 1 2 3) (regs [(2, 0xFFFFFFFFFFFFFFFF), (3, 2)])))).sreg 1 = 1 := by
  decide +kernel

/-- R81: SRA keeps the sign, and a shift uses bits 5:0 alone. -/
theorem test_sra_sign : (after (exec (.sra 0 (r3 1 2 3)) (tile 0x09 (r3 1 2 3) (regs [(2, 0x8000000000000000), (3, 67)])))).sreg 1
    = 0xF000000000000000 := by decide +kernel

/-- R80: a write of s0 is discarded. -/
theorem test_s0_discards : (after (exec (.add 0 (r3 0 2 3)) (tile 0x01 (r3 0 2 3) (regs [(2, 5), (3, 2)])))).sreg 0 = 0 := by
  decide +kernel

theorem wit_compare_and_li : ([0, 5].all fun m => runs 0x0A ⟨.s, .s, .s, 7, 0, true⟩ ⟨1, 2, 3, m, 0, 0⟩ id) = true
    ∧ ([0, 1].all fun m => runs 0x0B ⟨.s, .no, .no, 1, 0xFFFFFFFF, false⟩ ⟨1, 0, 0, m, 7, 0⟩ id) = true := by decide +kernel

/-- R81: CMP of condition 4 is unsigned. -/
theorem test_cmp_unsigned : (after (exec (.cmp 0 ⟨1, 2, 3, 4, 0, 0⟩) (tile 0x0A ⟨1, 2, 3, 4, 0, 0⟩ (regs [(2, 1), (3, 0xFFFFFFFFFFFFFFFF)])))).sreg 1
    = 1 := by decide +kernel

/-- R81: LI of the high half keeps the low half. -/
theorem test_li_high : (after (exec (.li 0 ⟨1, 0, 0, 1, 7, 0⟩) (tile 0x0B ⟨1, 0, 0, 1, 7, 0⟩ (regs [(1, 0x12345678)])))).sreg 1
    = 0x0000000712345678 := by decide +kernel

/-- R80: the word of ADD s1, s2, s3 from Table: Instruction word. -/
theorem test_word_add : tileWord 0x01 (r3 1 2 3) = 0x0108860000000000 := by decide +kernel

theorem wit_control_flow :
    runs 0x10 ⟨.no, .no, .no, 3, 0xFFFFFFFF, false⟩ ⟨0, 0, 0, 0, 1, 0⟩ id = true
    ∧ ([1, 2].all fun m => runs 0x10 ⟨.no, .s, .no, 3, 0xFFFFFFFF, false⟩ ⟨0, 2, 0, m, 1, 0⟩ id) = true
    ∧ runs 0x11 ⟨.no, .no, .no, 0, 0xFFFFFFFF, false⟩ ⟨0, 0, 0, 0, 2, 0⟩ id = true
    ∧ runs 0x12 ⟨.no, .no, .no, 0, 0, false⟩ (r3 0 0 0) (regs [(31, 16)]) = true
    ∧ runs 0x13 ⟨.no, .s, .no, 0, 0xFFF, false⟩ ⟨0, 2, 0, 0, 4095, 0⟩ (regs [(2, 3)]) = true
    ∧ runs 0x13 ⟨.no, .s, .no, 0, 0xFFF, false⟩ ⟨0, 2, 0, 0, 1, 0⟩
        (fun k => { k with loops := List.replicate 3 ⟨0, 8, 1⟩ }) = true := by decide +kernel

/-- R81: CALL saves the next instruction's address in s31 and goes IMM instructions on. -/
theorem test_call : let k := after (exec (.call 0 ⟨0, 0, 0, 0, 2, 0⟩) (tile 0x11 ⟨0, 0, 0, 0, 2, 0⟩ id))
    k.sreg 31 = 8 ∧ k.pc = 16 := by decide +kernel

/-- R82: a LOOP of count zero skips its body. -/
theorem test_loop_zero : (after (exec (.loop 0 ⟨0, 2, 0, 0, 3, 0⟩) (tile 0x13 ⟨0, 2, 0, 0, 3, 0⟩ id))).pc = 32 := by decide +kernel

theorem wit_bench_load_store :
    (let s := tile 0x0C ⟨1, 2, 0, 0, 0, 0⟩ (regs [(2, 0x3FFFF8)])
     issued 0 0x0C ⟨.s, .s, .no, 0, 0xFFFFFFFF, false⟩ ⟨1, 2, 0, 0, 0, 0⟩ s && reachable (found 0 ⟨1, 2, 0, 0, 0, 0⟩ s) 0x3FFFF8 8
      && decide (benchAddr (found 0 ⟨1, 2, 0, 0, 0, 0⟩ s) ⟨1, 2, 0, 0, 0, 0⟩ = 0x3FFFF8)) = true
    ∧ (let o : Op := ⟨0, 2, 3, 0, 64, 0⟩
       let s := tile 0x0D o id
       issued 0 0x0D ⟨.no, .s, .s, 0, 0xFFFFFFFF, false⟩ o s && reachable (found 0 o s) 64 8 && !(found 0 o s).isResident 64 8
        && !(found 0 o s).reading 64 8 && decide (benchAddr (found 0 o s) o = 64)) = true := by decide +kernel

/-- R3, R81: ST is little-endian. -/
theorem test_st_little_endian :
    Mem.read (after (exec (.st 0 ⟨0, 2, 3, 0, 64, 0⟩) (tile 0x0D ⟨0, 2, 3, 0, 64, 0⟩ (regs [(3, 0x0102030405060708)])))).bench 64 8
      = [8, 7, 6, 5, 4, 3, 2, 1] := by decide +kernel

theorem wit_control_registers : ([0, 1, 2, 3].all fun i => runs 0x15 ⟨.s, .no, .no, 0, 0xFFF, false⟩ ⟨1, 0, 0, 0, i, 0⟩ id) = true
    ∧ runs 0x16 ⟨.no, .s, .no, 0, 0xFFF, false⟩ ⟨0, 2, 0, 0, 3, 0⟩ id = true
    ∧ ((tile 0x16 ⟨0, 2, 0, 0, 3, 0⟩ id).core 0).loadsOut = false := by decide +kernel

/-- R83: reserved bits of FLAGS stay zero. -/
theorem test_wrcsr_flags : (after (exec (.wrcsr 0 ⟨0, 2, 0, 0, 3, 0⟩) (tile 0x16 ⟨0, 2, 0, 0, 3, 0⟩ (regs [(2, 0xFFFFFFFFFFFFFFFF)])))).flags
    = 0xFF0F := by decide +kernel

theorem wit_core_frames : (coreOf 0 (r3 0 0 0)).fetchTrap = none := by decide +kernel

theorem wit_reserved_fields :
    issues (tile 0x01 ⟨1, 2, 3, 1, 0, 0⟩ id) 0 0x01 ⟨1, 2, 3, 1, 0, 0⟩ = true
    ∧ issues (tile 0x42 (r3 8 0 0) id) 0 0x42 (r3 8 0 0) = true ∧ issues (tile 0x42 (r3 7 8 0) id) 0 0x42 (r3 7 8 0) = true := by
  decide +kernel

/-! ## Descriptors, tiles, accumulators and vectors (R69-R90) -/

/-- The instruction is issued on the test state and its operation goes through. -/
def goes {α : Type} (op : BitVec 8) (h : Shape) (body : Lcid → Op → State → CoreCtx → Tr α) (o : Op) (f : CoreCtx → CoreCtx) : Bool :=
  runs op h o f && passes (body 0 o (tile op o f) (found 0 o (tile op o f)))

/-- Descriptors d1, d2 and d3 name tiles of one format and shape at 0x1000, 0x2000 and 0x3000. -/
def tiles (fmt rows cols : Nat) (k : CoreCtx) : CoreCtx :=
  { k with d := [(1, desc fmt rows cols 0x1000), (2, desc fmt rows cols 0x2000), (3, desc fmt rows cols 0x3000)] }

/-- Bytes put in bench memory. -/
def holds (a : Nat) (l : List Byte) (k : CoreCtx) : CoreCtx := k.put (runOf a l false)

theorem wit_descriptors :
    (let o : Op := ⟨1, 2, 0, 0, 0, 0⟩
     let s := tile 0x20 o (regs [(2, 0x3FFFF0)])
     runs 0x20 ⟨.d, .s, .no, 0, 0xFFFFFFFF, false⟩ o (regs [(2, 0x3FFFF0)]) && reachable (found 0 o s) 0x3FFFF0 16
       && decide (benchAddr (found 0 o s) o = 0x3FFFF0) && !(found 0 o s).dirty 0x3FFFF0 16) = true
    ∧ ([0, 4, 8, 12].all fun m => runs 0x21 ⟨.d, .no, .s, 0x0F, 0, true⟩ ⟨1, 0, 3, m, 0, 0⟩ id) = true := by decide +kernel

/-- R84: DMOD adds to COLS within its 16 bits and leaves the neighbouring fields. -/
theorem test_dmod_cols : (after (exec (.dmod 0 ⟨1, 0, 3, 0x0C, 0, 0⟩) (tile 0x21 ⟨1, 0, 3, 0x0C, 0, 0⟩
    (fun k => regs [(3, 2)] { k with d := [(1, desc 0 5 0xFFFF 0x40)] })))).dreg 1 = desc 0 5 1 0x40 := by decide +kernel

theorem wit_tile_moves :
    goes 0x24 ⟨.d, .d, .no, 0, 0, false⟩ (fun _ o _ => bodyTcopy o) (r3 1 2 0) (tiles 0 2 2) = true
    ∧ (let o := r3 1 0 0
       runs 0x25 ⟨.d, .no, .no, 0, 0, false⟩ o (tiles 0 2 2)
         && passes ((tileD ((found 0 o (tile 0x25 o (tiles 0 2 2))).dreg 1)).canWrite (found 0 o (tile 0x25 o (tiles 0 2 2))))) = true
    ∧ goes 0x26 ⟨.acc, .d, .no, 0, 0, false⟩ (fun _ o _ => bodyAload o) (r3 7 1 0) (tiles 0 32 16) = true
    ∧ goes 0x27 ⟨.d, .acc, .no, 0, 0, false⟩ (fun _ o _ => bodyAstore o) (r3 1 7 0) (tiles 0 2 2) = true := by decide +kernel

/-- R70: 1.5 of FP32 is 0x3FC0 as BF16. -/
theorem test_tcopy_bf16 : Mem.read (after (exec (.tcopy 0 (r3 1 2 0)) (tile 0x24 (r3 1 2 0) fun k =>
    holds 0x2000 [0, 0, 0xC0, 0x3F] { k with d := [(1, desc 1 1 1 0x1000), (2, desc 0 1 1 0x2000)] }))).bench 0x1000 2 = [0xC0, 0x3F] := by
  decide +kernel

theorem wit_accumulators :
    ([0, 1].all fun m => runs 0x28 ⟨.acc, .no, .no, 1, 0, false⟩ ⟨7, 0, 0, m, 0, 0⟩ id) = true
    ∧ runs 0x42 ⟨.acc, .acc, .no, 0, 0, false⟩ (r3 7 1 0) id = true
    ∧ runs 0x41 ⟨.acc, .acc, .acc, 0, 0, false⟩ (r3 7 1 2) id = true
    ∧ runs 0x43 ⟨.acc, .acc, .s, 0, 0, false⟩ (r3 7 1 3) id = true
    ∧ (((tile 0x41 (r3 7 1 2) id).core 0).areg 1).int = false ∧ (((tile 0x41 (r3 7 1 2) id).core 0).areg 2).int = false := by decide +kernel

/-- A 1 × 32 INT8 tile of twos at 0x1000 and a 32 × 1 tile of threes at 0x2000. -/
def intTiles (k : CoreCtx) : CoreCtx :=
  holds 0x1000 (List.replicate 32 2) (holds 0x2000 (List.replicate 32 3)
    { k with d := [(1, desc 7 1 32 0x1000), (2, desc 7 32 1 0x2000)] })

theorem wit_mma : goes 0x40 ⟨.acc, .d, .d, 3, 0, false⟩ (fun _ o _ => bodyMma o) ⟨0, 1, 2, 1, 0, 0⟩ intTiles = true := by decide +kernel

/-- R73, R86: an INT8 product over 32 elements of 2 × 3 is 192, in an accumulator of type INT32. -/
theorem test_mma_int8 : let k := after (exec (.mma 0 ⟨0, 1, 2, 1, 0, 0⟩) (tile 0x40 ⟨0, 1, 2, 1, 0, 0⟩ intTiles))
    (k.areg 0).at 0 0 = 192 ∧ (k.areg 0).int = true := by decide +kernel

theorem wit_integer_blocks : (tileD (desc 7 32 1 0x2000 + (1 <<< 64))).sparse = 0 ∧ (tileD (desc 7 32 1 0x2000 + (1 <<< 64))).stride ≠ 0
    ∧ (tileD (desc 7 32 1 0x2000 + (1 <<< 64))).rows = 32 * (0 + 1) := by decide +kernel

theorem wit_vectors :
    (let two (o : Op) : Shape := vShape o (if o.mod.getLsbD 7 then .acc else .d) 0x1C0
     goes 0x60 (two (r3 1 2 3)) (fun _ o _ => vbinBody (fun x y => (val32 x).add (val32 y)) (some fun x y => x + y) o) (r3 1 2 3) (tiles 0 1 2)
     && goes 0x61 (two (r3 1 2 3)) (fun _ o _ => vbinBody (fun x y => (val32 x).add (val32 y).neg) (some fun x y => x - y) o) (r3 1 2 3) (tiles 0 1 2)
     && goes 0x62 (two (r3 1 2 3)) (fun _ o _ => vbinBody (fun x y => (val32 x).mul (val32 y)) none o) (r3 1 2 3) (tiles 0 1 2)
     && goes 0x63 (two (r3 1 2 3)) (fun _ o _ => bodyVfma o) (r3 1 2 3) (tiles 0 1 2)
     && goes 0x64 (two (r3 1 2 3)) (fun _ o _ => vbinBody (fun x y => (val32 (fmax x y), 0)) (some fun x y => max x y) o) (r3 1 2 3) (tiles 0 1 2)
     && goes 0x65 (two (r3 1 2 3)) (fun _ o _ => vbinBody (fun x y => (val32 (fmin x y), 0)) (some fun x y => min x y) o) (r3 1 2 3) (tiles 0 1 2)
     && goes 0x66 (vShape (r3 1 2 3) .s 0x140) (fun _ o _ => vscalBody (fun x y => (val32 x).mul (val32 y)) o) (r3 1 2 3) (tiles 0 1 2)
     && goes 0x67 (vShape (r3 1 2 3) .s 0x140) (fun _ o _ => vscalBody (fun x y => (val32 x).add (val32 y)) o) (r3 1 2 3) (tiles 0 1 2)
     && goes 0x68 (vShape ⟨1, 2, 0, 7, 0, 0⟩ .no 0x14F) (fun _ o _ => bodyVfunc o) ⟨1, 2, 0, 7, 0, 0⟩ (tiles 0 1 2)) = true := by decide +kernel

theorem wit_vector_reductions :
    (goes 0x69 ⟨.d, .d, .no, 0x100, 0, false⟩ (fun _ o _ => vreduceBody fadd o) (r3 1 2 0)
       (fun k => { k with d := [(1, desc 0 1 1 0x1000), (2, desc 0 1 2 0x2000)] })
     && goes 0x6A ⟨.d, .d, .no, 0x100, 0, false⟩ (fun _ o _ => vreduceBody (fun x y => (fmax x y, 0)) o) (r3 1 2 0)
       (fun k => { k with d := [(1, desc 0 1 1 0x1000), (2, desc 0 1 2 0x2000)] })
     && goes 0x6B (vShape (r3 1 2 3) .d 0x140) (fun _ o _ => vbcastBody true (fun x y => (val32 x).add (val32 y)) o) (r3 1 2 3) (tiles 0 1 2)
     && goes 0x6C (vShape (r3 1 2 3) .d 0x140) (fun _ o _ => vbcastBody true (fun x y => (val32 x).mul (val32 y)) o) (r3 1 2 3) (tiles 0 1 2)
     && goes 0x6D (vShape (r3 1 2 3) .d 0x140) (fun _ o _ => vbcastBody false (fun x y => (val32 x).mul (val32 y)) o) (r3 1 2 3)
       (fun k => { k with d := [(1, desc 0 1 2 0x1000), (2, desc 0 1 2 0x2000), (3, desc 0 1 1 0x3000)] })) = true := by decide +kernel

/-- R88: 1.0 + 2.0 = 3.0. -/
theorem test_vadd : Mem.read (after (exec (.vadd 0 (r3 1 2 3)) (tile 0x60 (r3 1 2 3) fun k =>
    holds 0x2000 [0, 0, 0x80, 0x3F] (holds 0x3000 [0, 0, 0, 0x40] (tiles 0 1 1 k))))).bench 0x1000 4 = [0, 0, 0x40, 0x40] := by decide +kernel

/-- R72: a sum that rounds to nearest even: 1 + 2^-24 is 1. -/
theorem test_fadd_ties_even : (fadd 0x3F800000 0x33800000).1 = 0x3F800000 := by decide +kernel

/-- R88: VMAX holds +0 above −0. -/
theorem test_fmax_zeros : fmax 0x80000000 0 = 0 := by decide +kernel

/-- R89: SQRT of 4 is 2, and of −1 NaN with INV. -/
theorem test_vfunc_sqrt : (vfuncW 8 0x40800000).1 = 0x40000000 ∧ vfuncW 8 0xBF800000 = (0x7FC00000, flInv) := by decide +kernel

/-! ## Slice transfers, routing and scoring (R60, R84, R94-R110, R171-R203) -/

/-- The instruction is issued in a state made from the test state, and its operation goes through. -/
def goesIn {α : Type} (op : BitVec 8) (h : Shape) (body : Lcid → Op → State → CoreCtx → Tr α) (o : Op) (f : CoreCtx → CoreCtx)
    (g : State → State) : Bool :=
  let s := g (tile op o f)
  issued 0 op h o s && passes (body 0 o s (found 0 o s))

/-- A journal record of one payload byte. -/
def rec1 : JRec := { index := 0, seqSlot := 5, arrival := 1, plan := 0, source := 0, payload := [7], home := 0, bad := false, consumedBy := none }

/-- Two records consumed in the tick by the plan of slot 0, and stack 0 online. -/
def inputs2 (s : State) : State :=
  { s with work := { s.work with inputs := [(0, [rec1, rec1])] }, stk := [(0, { Stack.init with status := 0 })] }

theorem wit_slice_transfers :
    (goesIn 0x22 ⟨.s, .s, .s, 1, 0, false⟩ bodyTload ⟨1, 2, 3, 1, 0, 0⟩ (regs [(1, 0x1000), (2, 0), (3, 2048)]) id
     && goesIn 0x22 ⟨.s, .s, .s, 1, 0, false⟩ bodyTload ⟨1, 2, 3, 0, 0, 0⟩ (regs [(1, 0x1000), (2, 0), (3, 64)]) id
     && goesIn 0x23 ⟨.s, .s, .s, 0, 0, false⟩ bodyTstore (r3 1 2 3) (regs [(1, 0x1000), (2, 0), (3, 64)]) id
     && goesIn 0x29 ⟨.s, .s, .no, 0, 0xFFFFFFFF, false⟩ bodySld ⟨1, 2, 0, 0, 8, 0⟩ id id
     && runs 0xC0 ⟨.s, .no, .no, 0, 0, false⟩ (r3 1 0 0) id
     && goesIn 0xC1 ⟨.s, .s, .s, 0, 0, false⟩ (fun _ => bodyTin) (r3 1 2 3) (regs [(2, 0x1000), (3, 1)]) inputs2) = true := by decide +kernel

theorem wit_slice_transfer_done :
    let s : State := (tile 0 (r3 0 0 0) fun k => { k with xfers := [{ SliceXfer.init .tload 0 64 with bench := 64 }] })
    ∃ x l, (s.core 0).xfers = x :: l ∧ s.seqr.phase = .executing ∧ x.todo = [] ∧ x.away = 0 := ⟨_, _, rfl, rfl, rfl, rfl⟩

theorem wit_tin_beyond : (let s := inputs2 (tile 0xC1 (r3 1 2 3) (regs [(3, 2)]))
    issued 0 0xC1 ⟨.s, .s, .s, 0, 0, false⟩ (r3 1 2 3) s && decide ((s.inputsOf (s.core 0).slot).length ≤ ((s.core 0).sreg 3).toNat % 2 ^ 32)
      && decide (((s.core 0).sreg 2).toNat % 64 = 0)) = true := by decide +kernel

/-- R60: TIN gives payload length, sequence slot and status together; here 1, 5 and OK. -/
theorem test_tin_result : (match exec (.tin 0 (r3 1 2 3)) (inputs2 (tile 0xC1 (r3 1 2 3) (regs [(2, 0x1000), (3, 1)]))) with
    | .next t => (match exec (.sliceTransferDone 0) t with | .next u => (u.core 0).sreg 1 | _ => 0) | _ => 0) = 0x0000000500000001 := by
  decide +kernel

/-- A route table at 0x400 of two experts on core 1, top 1, whose gates are the logits. -/
def rtable : List Byte := [2, 0, 1, 3, 0, 0, 0, 0] ++ List.replicate 24 0 ++ [4, 0, 0, 0, 1, 0, 0, 0] ++ [4, 0, 4, 0, 1, 0, 0, 0]

/-- A receive list at 0x800 of one row, its record copy at 0x900, without sources. -/
def rlist : List Byte := [0, 0, 1, 0, 0, 0, 0, 9, 0, 0] ++ List.replicate 6 0

/-- A core bound to the table, with a slot list at 0x600, a record area at 0x700 and logits, tile or rows of one row. -/
def bound (n fmt cols : Nat) (k : CoreCtx) : CoreCtx :=
  holds 0x400 rtable (holds 0x800 rlist { tiles fmt 1 cols k with route := [(0, ⟨true, 0x400, 0x600, 0x700, [], (0x700, n)⟩)] })

theorem wit_routing :
    (goesIn 0x90 ⟨.no, .s, .s, 3, 0xFFFFFFFF, false⟩ bodyRcfg ⟨0, 2, 3, 0, 0x700, 0⟩ (fun k => holds 0x400 rtable (regs [(2, 0x400), (3, 0x600)] k)) id
     && goesIn 0x91 ⟨.s, .d, .no, 3, 0, false⟩ bodyRgate (r3 5 1 0) (bound 0 0 2) id
     && goesIn 0x92 ⟨.no, .d, .no, 7, 0, false⟩ bodyRsend ⟨0, 1, 0, 4, 0, 0⟩ (bound 1 0 2) id
     && goesIn 0x93 ⟨.ds, .s, .no, 0, 0, false⟩ (fun _ => bodyRrecv) (r3 1 4 0) (fun k => regs [(4, 0x800)] (bound 0 0 2 k)) id
     && goesIn 0x94 ⟨.no, .ds, .no, 0, 0, false⟩ bodyRret (r3 0 1 0) (fun k => regs [(1, 0x800)] (bound 0 0 2 k)) id
     && goesIn 0x95 ⟨.d, .d, .d, 3, 0, false⟩ (fun _ o _ => bodyRcomb o) (r3 1 2 3)
       (fun k => holds 0x700 [2] { bound 1 0 2 k with d := [(1, desc 0 1 2 0x1000), (2, desc 0 1 2 0x2000), (3, desc 0 1 2 0x3000)] }) id
     && goesIn 0x96 ⟨.s, .d, .s, 0, 0, false⟩ (fun _ => bodyRexit) (r3 5 1 3) (bound 0 0 1) id
     && goesIn 0x97 ⟨.ds, .d, .s, 0, 0xFFFFFFFF, false⟩ (fun _ o _ => bodyRcompact o) ⟨1, 2, 3, 0, 0x700, 0⟩ (bound 0 0 2) id
     && goesIn 0x98 ⟨.s, .no, .no, 3, 7, false⟩ (fun _ o _ => bodyRstat o) ⟨5, 0, 0, 0, 4, 0⟩ (bound 0 0 2) id) = true := by decide +kernel

/-- R107: REXIT sets the bit of a row whose score is at least the threshold. -/
theorem test_rexit : (after (exec (.rexit 0 (r3 5 1 3)) (tile 0x96 (r3 5 1 3) fun k => regs [(3, 0x3F800000)]
    (holds 0x1000 [0, 0, 0x80, 0x3F, 0, 0, 0, 0x3F] { k with d := [(1, desc 0 2 1 0x1000)] })))).sreg 5 = 1 := by decide +kernel

/-- R98: among equal scores the lower expert index ranks first. -/
theorem test_rank_ties : rankIn (1, 0x3F800000) (rankIn (0, 0x3F800000) []) = [(0, 0x3F800000), (1, 0x3F800000)] := by decide +kernel

/-- A partial of one row of 64 at 0x4000, statistics at 0x5000. -/
def part0 : List Byte := [0, 0x40, 0, 0, 0, 0x50, 0, 0, 0, 0x60, 0, 0, 1, 0, 0, 0]

/-- A walk of sequence 0 whose query is one position of a partial of one row. -/
def walk0 : List Byte := [0, 0, 0, 0, 0, 0, 0, 1] ++ List.replicate 40 0 ++ part0

/-- A core with a bound scoring context, walk and append blocks, and partials. -/
def scoring (k : CoreCtx) : CoreCtx :=
  holds 0x400 walk0 (holds 0x600 [0, 0, 0, 0, 0, 0, 1, 0, 0, 0x40, 0, 0, 0, 0, 0, 0] (holds 0x700 part0
    { k with score := [(0, ⟨true, 0x500⟩)], resident := [(0, 64), (0x500, 64)], s := [(2, 0x400), (3, 0x500), (4, 0x600), (5, 0x700)],
             d := [(1, desc 0 1 64 0x7000)] }))

/-- A layout of one head of 64 BF16 elements in slot 0. -/
def layout0 (s : State) : State := { s with layouts := [(0, { headDim := 64, fmt := 1, heads := 1, gqa := 1 })] }

theorem wit_scoring :
    (goesIn 0x80 ⟨.no, .s, .no, 3, 0, false⟩ (fun _ => bodyScfg) (r3 0 3 0) scoring layout0
     && goesIn 0x81 ⟨.s, .s, .no, 3, 0, false⟩ bodySwalk (r3 6 2 0) scoring layout0
     && goesIn 0x82 ⟨.s, .s, .no, 3, 0, false⟩ bodySappend (r3 6 4 0) scoring layout0
     && goesIn 0x83 ⟨.no, .s, .s, 4, 0, false⟩ (fun _ o _ => bodySmerge o) (r3 0 5 5) scoring layout0
     && goesIn 0x84 ⟨.d, .s, .no, 4, 0, false⟩ (fun _ o _ => bodySnorm o) (r3 1 5 0) scoring layout0
     && goesIn 0x85 ⟨.s, .s, .no, 0, 15, false⟩ (fun _ => bodySlen) ⟨6, 7, 0, 0, 15, 0⟩ scoring layout0
     && goesIn 0x86 ⟨.s, .no, .no, 0, 7, false⟩ (fun _ o _ => bodySstat o) ⟨6, 0, 0, 0, 5, 0⟩ scoring layout0) = true := by decide +kernel

/-- R200: SLEN of a closed slot is all ones. -/
theorem test_slen_closed : (after (exec (.slen 0 ⟨6, 7, 0, 0, 0, 0⟩) (tile 0x85 ⟨6, 7, 0, 0, 0, 0⟩ id))).sreg 6 = BitVec.allOnes 64 := by
  decide +kernel

/-! ## Crumb programs (R138-R168) -/

/-- A plan of crumb section, multicast group 1 and fold group 2 over cores 0 and 1, admitted, without costs. -/
def plan0 : Plan :=
  { st := .admitted, hash := List.replicate 48 0, priority := 0, retain := false, periodMin := 1, periodMax := 2, maxInputs := 4,
    maxInputBytes := 256, image := [], cores := [⟨0, 0, 100, []⟩, ⟨1, 0, 100, []⟩], crumbs := [⟨0, 0, 100, 10, BitVec.allOnes 48, []⟩], evds := [],
    nets := [], groups := [⟨1, true, 0, false, 0, 0, 3, 0, 64, [0, 1], 0⟩, ⟨2, false, 0, false, 0, 0, 4, 0, 64, [0, 1], 0⟩], streams := [],
    rings := [], costs := [], routes := [], globals := [], capture := true, order := 0, owner := 0, fn := 0, backpressured := false, consume := 0 }

/-- The plan in slot 0, and stack 0 online. -/
def planned (s : State) : State := { s with plans := [(0, plan0)], stk := [(0, { Stack.init with status := 0 })] }

theorem wit_crumb_class :
    (goesIn 0xB0 ⟨.s, .s, .s, 0, 0xFFFFFFFF, false⟩ bodyCvec ⟨1, 2, 3, 0, 8128, 0⟩ (regs [(1, 1), (2, 0x1000), (3, 64)]) planned
     && goesIn 0xB1 ⟨.s, .s, .s, 0, 0xFFFF003F, false⟩ bodyCissue ⟨1, 2, 3, 0, 63, 0⟩ (regs [(1, 1), (2, 0x1000), (3, 0x2000)]) planned
     && runs 0xB2 ⟨.no, .no, .no, 0, 0, false⟩ (r3 0 0 0) id && passes (bodyFenceCrumb (found 0 (r3 0 0 0) (tile 0xB2 (r3 0 0 0) id)))
     && goesIn 0xB3 ⟨.s, .no, .no, 0, 0, false⟩ (fun _ o _ => bodyCstat o) (r3 1 0 0) id planned) = true := by decide +kernel

/-- The unit of bank 0 of slice 0. -/
def unit0 : UnitId := ⟨0, 0⟩

/-- A program issued to the unit by core 0, started or not, returning 64 bytes. -/
def job (b : Bool) : CrumbJob :=
  { slice := 0, bank := 0, start := 0, params := [9], retBase := 0x1000, retLen := 64, pc := 0, order := 0, started := b, ended := false,
    back := [], flags := 0 }

/-- A tick executes with a crumb unit at the word of a crumb instruction, END after it, and registers as given. -/
def crumb (op : BitVec 6) (o : CrumbOp) (b : Bool) (q : Tab W32) (g : CrumbUnit → CrumbUnit) : State :=
  planned { State.reset with
    seqr := { State.reset.seqr with phase := .executing }
    cores := [(0, { coreOf 0 (r3 0 0 0) with jobs := [job b] })]
    crumbUnits := [(0, g { CrumbUnit.init with prog := [crumbWord op o, 0, 0], q := q, running := b })] }

theorem wit_crumb_start : let s := crumb 0 ⟨0, 0, 0, 0⟩ false [] id
    s.jobWhere unit0 (fun x => !x.ended) = some (0, job false) ∧ s.sliceDead 0 = false ∧ s.slotFree unit0 = true
      ∧ (s.crumbAt unit0).prog[0]? = some 0 := by decide +kernel

/-- R150: a crumb program starts with its parameters in its registers. -/
theorem test_crumb_params : (match exec (.crumbProgramStart unit0) (crumb 0 ⟨0, 0, 0, 0⟩ false [] id) with
    | .next t => (t.crumbAt unit0).reg 0 | _ => 0) = 9 := by decide +kernel

/-- The crumb instruction is issued, its program is in progress, and its operation goes through. -/
def crumbGoes (op : BitVec 6) (d a b : Bool) (imms : BitVec 17) (o : CrumbOp) (q : Tab W32) (g : CrumbUnit → CrumbUnit)
    (body : UnitId → CrumbOp → State → Lcid → CrumbJob → CrumbUnit → Except CStop (CrumbUnit × Nat × State)) : Bool :=
  let s := crumb op o true q g
  crumbIssued unit0 op d a b imms o s && decide (inProgress unit0 s = some (0, job true))
    && (match body unit0 o s 0 (job true) (s.crumbAt unit0) with | .ok _ => true | .error _ => false)

theorem wit_crumb_programs :
    (crumbGoes 0x00 false false false 0 ⟨0, 0, 0, 0⟩ [] id (fun _ _ s => bodyEndProgram s)
     && crumbGoes 0x05 false true true 0xF ⟨0, 1, 2, 8⟩ [(1, 32)] id (fun _ o s _ _ v => (bodyFmt o v).map fun w => (w, 1, s))
     && crumbGoes 0x06 true true true 1 ⟨1, 2, 3, 1⟩ [(3, 1)] (fun v => { v with fmt := some (2, 32, 0) }) bodyMv
     && crumbGoes 0x07 false true true 1 ⟨0, 1, 2, 1⟩ [(2, 512)] id (fun _ => bodyClra)
     && crumbGoes 0x08 true true true 1 ⟨1, 2, 3, 0⟩ [(3, 16)] id bodyRetv
     && crumbGoes 0x09 true true true 0 ⟨1, 2, 3, 0⟩ [(3, 16)] id bodyStv
     && crumbGoes 0x0A false true false 0xF ⟨0, 1, 0, 1⟩ [(1, 3)] id (fun _ => bodyCrumbLoop)
     && crumbGoes 0x01 true false false 0x1FFFF ⟨1, 0, 0, 5⟩ [] id (fun _ => bodyClra)
     && crumbGoes 0x02 true true false 0x1FFFF ⟨1, 2, 0, 5⟩ [] id (fun _ => bodyClra)
     && crumbGoes 0x03 true true true 0 ⟨1, 2, 3, 0⟩ [] id (fun _ => bodyClra)
     && crumbGoes 0x04 true true true 0 ⟨1, 2, 3, 0⟩ [] id (fun _ => bodyClra)) = true := by decide +kernel

/-- R146: ADDI adds the sign-extended immediate. -/
theorem test_crumb_addi : (match exec (.addi unit0 ⟨1, 2, 0, 0x1FFFF⟩) (crumb 0x02 ⟨1, 2, 0, 0x1FFFF⟩ true [(2, 5)] id) with
    | .next t => (t.crumbAt unit0).reg 1 | _ => 0) = 4 := by decide +kernel

/-- R142: an INT8 record of ones against a vector of twos, K = 32, adds 64. -/
theorem test_rowdot_int8 : (rowDot { CrumbUnit.init with vec := (List.range 32).map fun i => (i, 2) } 7 32 0 (List.replicate 32 1) 1).1 = 65 := by
  decide +kernel

/-- R145: the word of ADDI q1, q2, 5 from Table: Crumb word. -/
theorem test_word_crumb : crumbWord 0x02 ⟨1, 2, 0, 5⟩ = 0x08A00005 := by decide +kernel

/-! ## Network (R235-R263) -/

theorem wit_network :
    (goesIn 0xA0 ⟨.s, .s, .s, 0, 0x3F, false⟩ bodyNput ⟨1, 2, 3, 0, 63, 0⟩ (regs [(1, 0x00400001), (2, 0x1000), (3, 64)]) planned
     && goesIn 0xA1 ⟨.s, .s, .s, 0, 0xFF, false⟩ bodyMcast ⟨1, 2, 3, 0, 1, 0⟩ (regs [(2, 0x1000), (3, 64)]) planned
     && goesIn 0xA2 ⟨.no, .s, .s, 0, 0xFF, false⟩ bodyFold ⟨0, 2, 3, 0, 2, 0⟩ (regs [(2, 0x1000), (3, 64)]) planned
     && goesIn 0xA5 ⟨.s, .s, .s, 0, 0x3F07, false⟩ bodyStsend ⟨1, 2, 3, 0, 0x3F07, 0⟩ (regs [(1, 1), (2, 0x1000), (3, 64)]) planned
     && runs 0xA6 ⟨.s, .no, .no, 0, 7, false⟩ ⟨1, 0, 0, 0, 5, 0⟩ id) = true := by decide +kernel

/-- A multicast to two cores of which the second lacks its flits, or a put all of whose copies have landed. -/
def out1 (kind : BitVec 4) (rep : List Nat) : NetXfer := { NetXfer.init kind 1 3 none [0, 1] [(0, List.replicate 64 5, false)] with reported := rep }

theorem wit_nsync : runs 0xA4 ⟨.s, .no, .no, 0, 0, false⟩ (r3 1 0 0) id = true
    ∧ ((coreOf 0xA4 (r3 1 0 0)).netOut = [] ∧ ({ coreOf 0xA4 (r3 1 0 0) with outbound := [out1 3 []] } : CoreCtx).netOut ≠ []) := by
  decide +kernel

/-- Window 3 of one line at 0x1000, from cores 0 and 1. -/
def win3 : WinState :=
  { xfer := 3, base := 0x1000, len := 64, ranges := [(0x1000, 64)], fold := false, srcs := [0, 1], miss := 0, landed := [], conflict := false,
    complete := false, retired := false, status := .ok, missing := [], flags := 0 }

/-- The window completed by a poisoned line. -/
def win3Poison : WinState := { win3 with complete := true, landed := [(0, 0, 1, 0, true)] }

theorem wit_nwait : let s := tile 0xA3 ⟨1, 0, 0, 0, 3, 0⟩ fun k => { k with windows := [win3Poison] }
    issued 0 0xA3 ⟨.s, .no, .no, 0, 0x3F, false⟩ ⟨1, 0, 0, 0, 3, 0⟩ s = true ∧ (s.core 0).win 3 = some win3Poison := by decide +kernel

/-- R251: a window with a poisoned line gives POISON, code 6. -/
theorem test_nwait_poison : (after (exec (.nwait 0 ⟨1, 0, 0, 0, 3, 0⟩) (tile 0xA3 ⟨1, 0, 0, 0, 3, 0⟩ fun k => { k with windows := [win3Poison] }))).sreg 1
    = BitVec.ofNat 64 Status.poison.code := by decide +kernel

/-- A tick executes with core 0 and its windows and transfers, and flits in flight. -/
def net (l : List NetFlit) (w : List WinState) (o : List NetXfer) : State :=
  planned { tile 0 (r3 0 0 0) (fun k => { k with windows := w, outbound := o }) with flits := l }

theorem wit_network_completion :
    netReady (net [] [] [out1 3 [0, 1]]) 0 (out1 3 [0, 1]) = true
    ∧ ((List.range 2).any fun d => !(out1 4 [0]).reported.contains d && !(out1 4 [0]).missing.contains d) = true
    ∧ lostSources (net [] [win3] []) win3 = [] ∧ lostSources { net [] [win3] [] with quadReset := [0] } win3 ≠ []
    ∧ (net [] [{ win3 with landed := [(0, 0, 1, 0, false)] }] []).stackGone 0 = false := by decide +kernel

/-- A flit of a kind of core 0's transfer 0, at site 0 of stack 0. -/
def flit (kind : BitVec 4) (last sys : Bool) : NetFlit :=
  { stack := 0, tag := 0, seq := 0, group := 3, dest := 0, src := 1, kind := kind, vc := 1, poison := false, last := last, status := 0, orig := 0,
    sys := sys, offset := 0, payload := List.replicate 64 5, node := (0, 0), ofFold := false, far := none,
    core := 0 }

/-- A put whose range of bench memory has yet to be sent. -/
def unsentPut : NetXfer := { NetXfer.init 4 0 0 none [1] [] with reads := [(64, 8)], unsent := [flit 3 true false] }

theorem wit_store_waits : let o : Op := ⟨0, 2, 3, 0, 64, 0⟩
    let s := tile 0x0D o fun k => { k with outbound := [unsentPut] }
    issued 0 0x0D ⟨.no, .s, .s, 0, 0xFFFFFFFF, false⟩ o s && reachable (found 0 o s) 64 8 && !(found 0 o s).isResident 64 8
      && (found 0 o s).reading 64 8 = true := by decide +kernel

/-- A fold flit of group 2 at a level, or the credit of one. -/
def foldF (kind : BitVec 4) (l : Nat) : NetFlit := { flit kind true false with group := 2, node := (l, 0), ofFold := true }

theorem wit_flits :
    ([0, 1, 2, 3, 4, 6, 7, 8, 9, 0xB].all fun n =>
      let f := flit (BitVec.ofNat 4 n) (n == 6) (n == 0xB)
      let s := net [f] [win3] [{ out1 4 [] with id := 0, xfer := 4 }]
      arrived (BitVec.ofNat 4 n) f s && !leaving f && !s.noSlice f && !s.siteDown f && decide (s.memberAt f = some 0)
        && (s.netOf 0 0).isSome) = true
    ∧ arrived 6 (flit 6 false false) (net [flit 6 false false] [] []) = true := by decide +kernel

theorem wit_fold_flits :
    (let f := foldF 5 1
     arrived 5 f (net [f] [] []) && decide (foldLive 2 (f.node.1 % 256) ≤ 1)) = true
    ∧ (let f := foldF 5 0
       let s := net [f] [] []
       arrived 5 f s && decide (1 < foldLive 2 0) && !s.subtreeGone ⟨2, false, 0, false, 0, 0, 4, 0, 64, [0, 1], 0⟩ 0 0
         && !s.subtreeGone ⟨2, false, 0, false, 0, 0, 4, 0, 64, [0, 1], 0⟩ 0 1) = true
    ∧ (let f := foldF 0xA 0
       arrived 0xA f (net [f] [] [{ out1 5 [] with group := 2, unsent := [foldF 5 0] }])) = true := by decide +kernel

/-- R239: a flit landing in a window writes its line there. -/
theorem test_put_lands : (match exec (.flitPut (flit 3 true false) []) (net [flit 3 true false] [win3] []) with
    | .next t => Mem.read (t.core 0).bench 0x1000 2 | _ => []) = [5, 5] := by decide +kernel

/-- R235: header bits [95:32] of the first fold flit from (5, 10), as the worked example of 09_network_and_fold.md gives them. -/
theorem test_flit_header : ((flitHeader { flit 5 false false with
      tag := 0xFFFF, group := 7, dest := 0x59, src := 0x5A, orig := 3 }) >>> 32).setWidth 64 = (0x000007595A540018 : BitVec 64) := by decide +kernel

/-- R57: a generation is newer across the wrap, and not where the two lie 2^31 apart. -/
theorem test_newer_gen : newerGen 1 0xFFFFFFFF = true ∧ newerGen 0xFFFFFFFF 1 = false ∧ newerGen 0x80000000 0 = false := by decide +kernel

/-- R243: FSUM at a node: 1.0 + 1.0 = 2.0. -/
theorem test_fold_fsum : ((foldPayload 0 [0, 0, 0x80, 0x3F] [0, 0, 0x80, 0x3F]).1.take 4) = [0, 0, 0, 0x40] := by decide +kernel

/-- The flits without one whose TYPE is reserved. -/
def reserved : NetFlit := flit 0xC true false

theorem wit_crc :
    (let f := { flit 5 true false with dest := 1, src := 0 }
     let s := net [f] [] []
     ([0, 7, 1].filter fun n => (s.pathOf f).contains n) = [0, 1] ∧ s.flitFirst f = true)
    ∧ (let f := flit 9 true false
       let s := net [f] [] []
       ([7, 0].filter fun n => (s.pathOf f).contains n) = [0] ∧ arrived 9 f s = true ∧ leaving f = false)
    ∧ ((net [reserved] [] []).flitFirst reserved = true ∧ 0xC ≤ reserved.kind.toNat)
    ∧ ([0, 1].all fun n =>
        let f : NetFrame := ⟨0, 1, 0, 8, 8, 1, false, true, n, false, 64, flit 3 true false⟩
        State.frameFirst { net [] [] [] with frames := [f] } f) = true := by decide +kernel

theorem wit_frames : ([0, 1, 2, 3, 4].all fun n =>
    [0, 3, 8].all fun kind =>
      let f : NetFrame := ⟨1, 0, 0, 8, 8, BitVec.ofNat 4 n, false, true, 0, false, 64, flit kind true false⟩
      let s : State := { net [] [] [] with frames := [f] }
      frameIn (BitVec.ofNat 4 n) f s && !s.refusing 0 && State.refusing { s with stk := [] } 0) = true := by decide +kernel

/-! ## Ticks, reports and recovery (R29-R49, R297-R301) -/

/-- A device at a stage of bring-up, released and powered, with every stack online and no core. -/
def atStage (n : Nat) : State :=
  { State.reset with
    boot := { State.reset.boot with released := true, stage := n, last := n - 1, env := some ⟨true, true, 100⟩ }
    stk := (List.range 20).map fun i => (i, { Stack.init with status := 0 }) }

/-- A device that is ready and runs ticks. -/
def ready : State :=
  { atStage 10 with
    boot := { (atStage 10).boot with st := .ready, readyIndex := some 0 }
    hearth := { State.reset.hearth with running := true }
    seqr := { State.reset.seqr with count := 5, time := 5000000000000 } }

/-- The ready device with its sequencer changed. -/
def seq (g : Seqr → Seqr) : State := { ready with seqr := g ready.seqr }

/-- The ready device with a tick executing. -/
def runningTick : State := seq fun q => { q with phase := .executing }

/-- Nothing measured at a boundary. -/
def env0 : BoundaryEnv := ⟨none, [], [], [], [], [], 0⟩

theorem wit_boundaries :
    (ready.ticking && !ready.seqr.external && !ready.seqr.awaitEdge && decide (ready.seqr.flywheelRun < 16)
      && (seq fun q => { q with external := true }).ticking && (seq fun q => { q with awaitEdge := true }).ticking) = true
    ∧ (50 * 195999 < 49 * 200000 ∧ 49 * 200000 ≤ 50 * 196000 ∧ 50 * 204000 ≤ 51 * 200000 ∧ 50 * 404000 ≤ 101 * 200000)
    ∧ 16 ≤ (seq fun q => { q with flywheelRun := 16 }).seqr.flywheelRun := by decide +kernel

/-- R31, R446: an edge 0.98 periods after the last boundary is taken, and one a nanosecond earlier is counted early. -/
theorem test_edge_window : let s := seq fun q => { q with external := true }
    exec (.tickInEdge 196000 16 env0) s = .next (takeBoundary 196000 false env0 s)
    ∧ exec (.tickInEdge 195999 16 env0) s = .next (devInc .earlyEdge 1 s) := ⟨rfl, rfl⟩

theorem wit_reports :
    (let s : State := { runningTick with cores := [(0, { coreOf 0 (r3 0 0 0) with run := .halting })] }
     decide ((s.core 0).run = .halting) && (s.core 0).drained && decide ((s.core 0).crumbFault = none) && !(s.core 0).netFault) = true
    ∧ (decide (runningTick.seqr.boundaries < 4) && runningTick.online.contains 19 && !runningTick.work.reported.contains 19
        && runningTick.stackDone 19) = true
    ∧ (issued 0 0x14 ⟨.no, .no, .no, 0, 0, false⟩ (r3 0 0 0) (planned (tile 0x14 (r3 0 0 0) id)) = true
        ∧ (planned (tile 0x14 (r3 0 0 0) id)).evdOf 0 = none) := by decide +kernel

/-- The plan with an evidence window at 0x1000 on core 0. -/
def witnessed (s : State) : State := { planned s with plans := [(0, { plan0 with evds := [⟨0, 0x1000, 4⟩] })] }

theorem wit_capture : let s := witnessed (tile 0x14 (r3 0 0 0) id)
    issued 0 0x14 ⟨.no, .no, .no, 0, 0, false⟩ (r3 0 0 0) s = true ∧ s.evdOf 0 = some ⟨0, 0x1000, 4⟩
    ∧ captureAll 0 (found 0 (r3 0 0 0) s) s.tickCsr ⟨0, 0x1000, 4⟩ = .ok [] ∧ (s.planAt (s.core 0).slot).isSome = true := by decide +kernel

/-- A spare shift waits at column 3 of row 2 of stack 0. -/
def shifting : State := seq fun q => { q with shift := some ⟨0, 2, 3⟩ }

theorem wit_faults_shifts : (runningTick.seqr.phase = .executing ∧ 4 ≤ (seq fun q => { q with phase := .executing, boundaries := 4 }).seqr.boundaries)
    ∧ validFault ⟨19, 255, .crumb, 47, 6⟩ = true
    ∧ (shifting.seqr.shift = some ⟨0, 2, 3⟩ ∧ shifting.seqr.phase ≠ .executing ∧ shifting.power.coolantStop = false) := by decide +kernel

theorem wit_eighth_attempt : ((seq fun q => { q with attempt := 8 }).seqr.attempt = 8)
    ∧ ({ seq (fun q => { q with attempt := 8 }) with plans := [(0, plan0)] } : State).admitted ≠ [] := by decide +kernel

/-- R19: after a failure at column 3 the core of column 5 moves to physical column 6. -/
theorem test_shift : ((FpRow.init.fail 3).1.physCol 5) = some 6 ∧ ((FpRow.init.fail 3).1.physCol 2) = some 2 := by decide +kernel

theorem wit_serving : FpRow.init.shifted = false ∧ ({ FpRow.init with sites := 0xC0000001 } : FpRow).physCol 0 = none
    ∧ ((FpRow.init.fail 14).1.physCol 14) = some 15 := by decide +kernel

theorem wit_storage : (0 : Nat) < privateSize 6 ∧ privateSize 0 - 1 < privateSize 0 ∧ globalSize 1 - 1 < globalSize 1 ∧ globalSize 6 - 1 < globalSize 6 := by
  decide +kernel

/-- R114, R115: with two global steps the first private granules lie in banks 0, 1 and 2, and the next skips bank 3. -/
theorem test_private_banks : privLoc 2 (3 * 2048) = 4 * 0x400000 := by decide +kernel

theorem wit_counters : (⟨0xFFFFFFFE, false⟩ : CtrVal).val.toNat + 1 ≤ 0xFFFFFFFF ∧ 0xFFFFFFFF < (⟨0xFFFFFFFF, false⟩ : CtrVal).val.toNat + 1 := by
  decide +kernel

/-! ## Links (R255-R279) -/

/-- The ready device with one stack changed. -/
def stack (n : Nat) (g : Stack → Stack) : State := ready.setStack n (g (ready.stackAt n))

/-- The ready device with one port, up, changed. -/
def port (n : Nat) (g : Port → Port) : State := ready.setPort n (g { Port.init with up := true, width := 8 })

theorem wit_stacks_lanes :
    (ready.stackUp 19 = true ∧ (ready.stackAt 19).isolated = none)
    ∧ ((stack 19 fun k => { k with inReset := true }).stackAt 19).inReset = true ∧ (stack 19 fun k => { k with inReset := true }).stackUp 19 = true
    ∧ validLane ⟨19, 2, true, 33⟩ = true ∧ validLane ⟨31, 8, false, 8⟩ = true ∧ validLane ⟨31, 3, false, 0⟩ = true
    ∧ ((port 5 fun p => { p with swaps := [(false, 8, 0)] }).portAt 5).swaps.any (fun w => w.1 == false && w.2.1 == 8) = true
    ∧ ((stack 3 fun k => { k with swaps := [(2, true, 7, 33)] }).stackAt 3).swaps = [(2, true, 7, 33)]
    ∧ ready.drain.getLsbD 6 = false ∧ ready.drainPend = [] ∧ ready.pins.laserSpareOk = true := by decide +kernel

/-- A packet to this device on ring 0 for the plan of slot 0, its sequence 5. -/
def pkt : Packet :=
  { destDev := 0, srcDev := 3, route := 0, linkSeq := 0, tag := 5, ring := 0, status := 0, plan := 0, seq := 5, srcIndex := 0, payload := [1] }

/-- An open sequence of the plan of slot 0 at home on stack 0. -/
def seq5 : SeqRec := { isOpen := true, home := 0, groups := [], hold := 0, gen := 0, plan := 0, owner := 1, fn := 0 }

/-- A ready device with port 0 open, the plan admitted, its sequence open and its ring at the I/O die. -/
def linked : State :=
  { port 0 id with plans := [(0, plan0)], seqs := [(5, seq5)], rings := [(0, ⟨0, 0, 0, [], false⟩)] }

theorem wit_packets : packetHere 0 pkt linked = true ∧ (Tab.get linked.rings pkt.ring.toNat).isSome = true ∧ linked.nextFrom { pkt with srcIndex := 1 } = false := by
  decide +kernel

theorem wit_input_held : linked.nextFrom pkt = true ∧ linked.replay = none ∧ State.stackGone { linked with stk := [] } 0 = true := by decide +kernel

theorem wit_input : linked.nextFrom pkt = true ∧ linked.planAt pkt.plan.toNat = some plan0 ∧ linked.seqAt (pkt.seq.toNat % 2 ^ 17) = some seq5
    ∧ linked.replay = none ∧ linked.stackGone 0 = false ∧ recBytes pkt.payload.length ≤ linked.ringFree 0 := by decide +kernel

/-- R42: an input with the next index of its source is kept for the journal. -/
theorem test_input_waits : ((takeInput 0 pkt linked).jpend.map fun j => j.record.payload) = [[1]] := by decide +kernel

theorem wit_ports_journal :
    (((ready.portAt 5).up = false ∧ ready.portGated 5 = false) ∧ ready.serialOk = true ∧ (linked.portAt 0).up = true)
    ∧ ([({ index := 0, dest := 1, plan := 0, seq := 0, payload := [], tag := 0x8000 } : RingEntry)].find? fun x => (tagAge 0 x.tag).isNone).isSome = true
    ∧ (takeInput 0 pkt linked).jpend ≠ [] ∧ ((takeInput 0 pkt linked).jpend.all fun j => j.answer.isNone && !linked.stackGone j.record.home) = true := by
  decide +kernel

/-- R56: a tag 32,767 behind is in range and one 32,768 behind is stale; two ahead counts as new. -/
theorem test_tag_age : tagAge 32767 0 = some 32767 ∧ tagAge 32768 0 = none ∧ tagAge 5 7 = some 0 := by decide +kernel

/-! ## Heat and power (R317-R346) -/

/-- The ready device with its power state changed. -/
def power (g : Power → Power) : State := { ready with power := g ready.power }

/-- The ready device with the sensors of quadrant 79 changed. -/
def therm79 (g : Therm → Therm) : State := ready.setTherm 79 (g Therm.init)

/-- A sample of all 240 sensors at 40 °C, but for the crust sensor of quadrant 79. -/
def sample (c : BitVec 16) : List SensorTriple := List.replicate 79 ⟨640, 640, 640⟩ ++ [⟨640, 640, c⟩]

/-- What a sample leaves before the trip is decided. -/
def sampled (r : List SensorTriple) : State :=
  (List.range 20).foldl (sampleStack r) { ready with power := { ready.power with samples := ready.power.samples + 1 } }

theorem wit_sample : (sample 640).length = 80 ∧ ready.boot.off = false ∧ ready.ticking = true := by decide +kernel

theorem wit_sample_cool : (sampled (sample 640)).tooHot = false := by decide +kernel

theorem wit_sample_hot : (sampled (sample 1648)).tooHot = true := by decide +kernel

/-- R325: a crust sensor at 103 °C trips the device. -/
theorem test_trip : (match exec (.sensorSample (sample 1648)) ready with | .next t => t.pins.thermtrip | _ => false) = true := by
  decide +kernel

/-- R321: a logic reading of 108 °C gives f = 896 and no throttle starts at 100 °C. -/
theorem test_fraction : fraction 1728 0 = 896 ∧ fraction 1600 0 = 0 := by decide +kernel

theorem wit_cooling :
    (ready.power.reportLost = false ∧ (power fun p => { p with inlet := 721 }).degradeTrigger = true
      ∧ (power fun p => { p with inlet := 721 }).power.degraded = false)
    ∧ ((power fun p => { p with degraded := true, inlet := 721 }).degradeTrigger = true ∧ (power fun p => { p with degraded := true, flow := 200 }).degradeClear = true)
    ∧ ((therm79 fun t => { t with split := true, close := 20000 }).thermAt 79).close = 20000
    ∧ ((therm79 fun t => { t with band := 1, cool := 2000 }).thermAt 79).cool = 2000
    ∧ (therm79 fun t => { t with band := 1, cool := 2000 }).regWrites = [] := by decide +kernel

theorem wit_restart_stop :
    (let s := power fun p => { p with state := .rack, coolSamples := 200000 }
     s.power.state = .rack ∧ s.power.coolantStop = false ∧ s.power.rackLatch = false ∧ s.boot.st ≠ .halted ∧ s.power.vcoreOk = true)
    ∧ (let s : State := { atStage 4 with power := { ready.power with state := .rack, coolSamples := 200000 } }
       s.boot.readyIndex = none ∧ s.boot.stage < 5 ∧ s.boot.st ≠ .halted)
    ∧ (runningTick.boot.off = false ∧ runningTick.power.flowFault = false ∧ runningTick.ticking = true ∧ runningTick.power.coolantStop = false)
    ∧ (power fun p => { p with coolantStop := true }).power.coolantStop = true
    ∧ (power fun p => { p with entering := some .dormant }).power.entering = some .dormant
    ∧ (power fun p => { p with entering := some .active }).power.coolantStop = false
    ∧ 79 ∈ (power fun p => { p with ungating := [79] }).power.ungating := by decide +kernel

theorem wit_budget : 80 + 19 ∈ (power fun p => { p with off := [99] }).power.off ∧ 80 + 19 ∉ ready.power.off
    ∧ ((therm79 fun t => { t with takesPart := true, f := 896 }).thermAt (4 * 19 + 3)).takesPart = true
    ∧ (therm79 fun t => { t with takesPart := true, f := 896 }).stackF 19 = 896 ∧ ready.stackF 19 = 0 := by decide +kernel

/-- R324: at f = 896, k is 0.3, and a budget of 4 gives 1. -/
theorem test_budget : (therm79 fun t => { t with takesPart := true, f := 896 }).effBudget 19 = 1 ∧ ready.effBudget 19 = 4 := by decide +kernel

/-! ## Memory upkeep, identity and firmware (R125-R136, R280-R312, R397-R417) -/

theorem wit_upkeep :
    ({ ready with cfg := { ready.cfg with zeroing := true } } : State).cfg.zeroing = true
    ∧ (let s : State := { ready with scrubPaused := true }
       s.scrubPaused = true ∧ s.scrubPausedAt + 3600000000000 ≤ s.seqr.time)
    ∧ ({ ready with mapDirty := true } : State).mapDirty = true
    ∧ (let s : State := { ready with scrubbed := [(0, 98687)] }
       s.scrubPaused = false ∧ s.seqr.late = false ∧ s.sliceGone 0 = false ∧ Tab.getD s.scrubbed 0 0 < 98688 ∧ s.scrubSkips 0 (scrubLoc 4096) = false)
    ∧ (seq fun q => { q with late := true }).seqr.late = true
    ∧ ready.sliceGone 0 = false ∧ Tab.getD ready.scrubbed 0 0 < 98688 ∧ ready.scrubSkips 0 (scrubLoc (Tab.getD ready.scrubbed 0 0)) = false
    ∧ Tab.get ({ ready with rereads := [(9, true)] } : State).rereads 9 = some true := by decide +kernel

/-- A session with debug level 2 opened at the start. -/
def debugging : Session :=
  { fn := 0, key := 7, grants := BitVec.allOnes 32, dbgLevel := some 2, tap := true, owner := true, pendingOpen := false, lifetime := 60, since := 0 }

/-- A quote whose message is ready. -/
def quote (n : Nat) : QuoteReq := { mb := 0, seq := 1, nonce := [], bufLen := n, msg := some [1, 2], dmaWr := true }

/-- An image that has been verified at timestamp zero. -/
def staged1 : FwStage := { session := 1, measurement := List.replicate 32 7, svn := 3, image := [], since := 0 }

theorem wit_security :
    0 < ({ ready with seals := [⟨1, 0, 0, [], [], 0, 0, none⟩] } : State).sealsPending
    ∧ ((quote 9894).bufLen < ([1, 2] : List Byte).length + 9893 ∧ ([1, 2] : List Byte).length + 9893 ≤ (quote 9895).bufLen ∧ ready.sealsPending = 0)
    ∧ (debugging.dbgLevel = some 2 ∧ debugging.since + debugging.lifetime * 1000000000 ≤ ready.seqr.time)
    ∧ (validFn 63 = true ∧ 0 + 300000000000 ≤ ready.seqr.time ∧ staged1.since + 600000000000 ≤ ready.seqr.time)
    ∧ ready.changes = [] ∧ ready.hearth.handover = none
    ∧ (ready.boot.st ≠ .halted ∧ ready.boot.released = true ∧ ready.hearth.up = true ∧ ready.boot.readyIndex ≠ none) := by decide +kernel

/-! ## Bring-up and supplies (R347-R366, R436-R453) -/

theorem wit_reset_pin : State.reset.boot.released = false ∧ ready.boot.released = true := by decide +kernel

theorem wit_stages :
    ((atStage 0).atStage 0 && (atStage 1).atStage 1 && (atStage 2).atStage 2 && (atStage 3).starting && (atStage 7).atStage 7
      && (atStage 7).storeOnline && (atStage 8).atStage 8 && (atStage 9).atStage 9 && powerGood ⟨true, true, 95⟩) = true
    ∧ ((atStage 7).boot.fetchWait = false ∧ ({ atStage 7 with stk := [] } : State).storeOnline = false ∧ (atStage 7).boot.kind ≠ .hearthRestart)
    ∧ (let s : State := { atStage 7 with stk := [], boot := { (atStage 7).boot with kind := .hearthRestart } }
       s.atStage 7 = true ∧ s.boot.fetchWait = false ∧ s.storeOnline = false ∧ s.boot.kind = .hearthRestart)
    ∧ (atStage 1).boot.lostClocks = [] ∧ (atStage 1).power.vcoreOk = true := by decide +kernel

/-- R349, R438: 94 ms from the last rail to the release is too short. -/
theorem test_power_good : powerGood ⟨true, true, 94⟩ = false := by decide +kernel

/-- A device at a stage whose stack 5 is to run stage `c`, its sensors at a temperature in 1/16 °C. -/
def stackAt5 (n c : Nat) (t : BitVec 16) : State :=
  { atStage n with boot := { (atStage n).boot with stk := [(5, c)] }, therm := (List.range 4).map fun i => (20 + i, { Therm.init with a := t, b := t, c := t }) }

theorem wit_stack_stages :
    (let s := stackAt5 4 4 0
     s.starting = true ∧ s.power.coolantStop = false ∧ s.stkCode 5 % 10 = 4 ∧ s.crustWarm 5 = true)
    ∧ (let s := stackAt5 5 25 160
       s.stkCode 5 % 10 = 5 ∧ ((List.range 4).all fun i => s.quadWarm (20 + i)) = true ∧ s.power.vcoreOk = true)
    ∧ ((atStage 6).boot.stage = 6 ∧ (stackAt5 10 16 160).stkCode 5 % 10 = 6 ∧ (stackAt5 10 16 160).boot.stage ≠ 6 ∧ (stackAt5 10 16 160).starting = true)
    ∧ ((atStage 2).starting = true ∧ (stackAt5 4 4 0).stkCode 5 ≠ 0)
    ∧ ((stackAt5 4 4 0xFFFF).crustWarm 5 = false ∧ (stackAt5 5 5 159).quadWarm 20 = false ∧ (stackAt5 5 5 159).stkCode (20 / 4) % 10 = 5) := by
  decide +kernel

theorem wit_supplies :
    ready.boot.off = false ∧ ready.pins.thermtrip = false ∧ State.reset.ticking = false
    ∧ ready.boot.released = true ∧ ({ ready with pins := { ready.pins with serial := false } } : State).pins.serial = false
    ∧ ready.boot.lostClocks = [] ∧ RefClock.tlink ∈ ({ ready with boot := { ready.boot with lostClocks := [.tlink, .pcie, .sysclk] } } : State).boot.lostClocks := by
  decide +kernel

/-- R440: a fault of VAON leaves the device off and its DRAM empty. -/
theorem test_vaon : (match exec (.supplyFault .vaon) ready with | .next t => t.boot.off && t.dram.isEmpty | _ => false) = true := by decide +kernel

theorem wit_flr : validFn 63 = true ∧ (0 : Nat) < 63
    ∧ (({ ready with sessions := [(1, { debugging with fn := 63 }), (2, debugging)] } : State).sessions.map Prod.fst).Nodup := by decide +kernel

theorem wit_sideband :
    (ready.boot.off = false ∧ 2 ≤ ready.boot.stage ∧ (atStage 1).boot.stage < 2)
    ∧ 122 ∈ (power fun p => { p with off := [122] }).power.off
    ∧ (State.reset.boot.off = false ∧ State.reset.boot.released = false ∧ ready.boot.released = true ∧ ready.tapOpen = false)
    ∧ ({ ready with tapOpen := true } : State).tapOpen = true := by decide +kernel

/-! ## Registers and BAR2 (R30, R132, R282, R367-R369, R459) -/

/-- The ready device with expert register and memory access held open. -/
def expert : State := { ready with host := { ready.host with regHolders := [1], memHolders := [1] }, debugLevel := 2 }

theorem wit_bar2 :
    (expert.bar2In 0 8 = true ∧ expert.bar2Outcome 0 8 false = 0 ∧ expert.bar2Outcome 0 8 true = 0 ∧ isReserve 0 = false)
    ∧ (let s : State := { expert with host := { expert.host with bar2Base := devReserve } }
       s.bar2In 0x29100000 8 = true ∧ s.bar2Outcome (s.host.bar2Base + 0x29100000) 8 true = 0 ∧ isReserve (s.host.bar2Base + 0x29100000) = true)
    ∧ (ready.bar2In 0 8 = true ∧ ready.memOpen = false) := by decide +kernel

theorem wit_register_writes :
    (expert.expertOpen = true ∧ expert.regOpen = true ∧ ready.regOpen = false)
    ∧ ((periodOutcome expert 200000).1 = .ok ∧ (periodOutcome expert 19960).1 ≠ .ok ∧ (periodOutcome expert 10000000).1 = .ok)
    ∧ (expert.inUse = false ∧ ({ expert with plans := [(0, plan0)] } : State).inUse = true)
    ∧ (({ expert with stk := [] } : State).wavesOk 16 = true ∧ ({ expert with stk := [] } : State).wavesOk 4 = true ∧ expert.wavesOk 17 = false)
    ∧ (blockAt 0x03008008 = some (.thermal, 0x08) ∧ blockAt 0x0300801C = some (.thermal, 0x1C)) := by decide +kernel

theorem wit_counter_clear : (match Block.counters .tick with
    | some c => decide (blockAt (0x03002000 + c.clear) = some (.tick, c.clear)) | none => false) = true := by decide +kernel

/-- R30: a period that is no multiple of 40 ns is not taken. -/
theorem test_period_multiple : (periodOutcome expert 200020).1 ≠ .ok := by decide +kernel

/-! ## Mailboxes (R5, R9, R39, R373-R380) -/

/-- A message of session 1 with a body, and the bytes DMA reads for it. -/
def msg (words : List W64) (dma : List Byte) : Msg :=
  { mb := 0, session := 1, key := 7, tag := 5, seq := 1, rsv := false, words := words, dma := some dma, dmaWr := true }

/-- The message area of a mailbox that holds a message. -/
def areaOf (op : Nat) (m : Msg) : List Host.Cell :=
  Mem.write [] 0 (leBytes 2 op ++ leBytes 2 (8 * m.words.length) ++ leBytes 2 m.session.toNat ++ leBytes 2 m.tag.toNat ++ leBytes 4 m.key.toNat
    ++ leBytes 4 m.seq.toNat ++ List.replicate 16 0 ++ m.words.flatMap fun w => leBytes 8 w.toNat)

/-- The ready device with session 1 open, a message waiting in mailbox 0, and a change of the rest. -/
def boxed (op : Nat) (m : Msg) (f : State → State) : State :=
  f { ready with sessions := [(1, debugging)], debugLevel := 3
                 mailboxes := [(0, { Mailbox.init with busy := true, area := areaOf op m })] }

/-- A command of session 1 is served, with words and a host buffer, on a changed device. -/
def servedOn (op : Nat) (c : Msg → Cmd) (words : List W64) (dma : List Byte) (f : State → State) : Bool :=
  served (c (msg words dma)) (boxed op (msg words dma) f)

/-- An object word of a kind and number. -/
def object (k n : Nat) : W64 := BitVec.ofNat 64 (2 ^ 32 * k + n)

/-- A form-R command of an object is served with a buffer of 4,096 bytes. -/
def reads (op : Nat) (c : Msg → Cmd) (o : W64) (f : State → State) : Bool := servedOn op c [o, 0, 0x1000, 0x1000] [] f

/-- A form-S command of an object is served with a structure of whole lines. -/
def takes (op : Nat) (c : Msg → Cmd) (o : W64) (b : List Byte) (f : State → State) : Bool :=
  servedOn op c [o, 0, 0x1000, BitVec.ofNat 64 b.length] b f

theorem wit_mailbox :
    (validMailbox 255 = true ∧ ready.boxesUp = true ∧ (0x301 : BitVec 32).getLsbD 0 = true)
    ∧ (({ ready with mailboxes := [(255, { Mailbox.init with busy := true })] } : State).mbAt 255).busy = true ∧ (ready.mbAt 255).busy = false
    ∧ (0 : BitVec 32).toNat = (ready.mbAt 255).evHead.toNat := by decide +kernel

/-- R375: GO on a busy mailbox sets OVERRUN. -/
theorem test_go_overrun : (match exec (.mailboxGo 3 1) { ready with mailboxes := [(3, { Mailbox.init with busy := true })] } with
    | .next t => (t.mbAt 3).overrun | _ => false) = true := by decide +kernel

theorem wit_checks :
    verdict ready 0x0302 4 readAuth { msg [] [] with session := 4097 } Check.ok = some (.nospt, 0)
    ∧ verdict (boxed 0x0402 (msg [0] []) id) 0x0402 1 ⟨some gMem, true, [], true⟩ (msg [0] []) Check.ok = none := by decide +kernel

/-- R56, R379: a tag 32,768 ticks from the present is stale. -/
theorem test_stale_tag : let m := { msg [0] [] with tag := 0x8005 }
    (cmdMemFence m).refusal (boxed 0x0402 m id) = some (.stalemsg, 0) := by decide +kernel

theorem wit_refused : let m := msg [0, 200020] []
    (cmdTickSetPeriod m).taken (boxed 0x0300 m id) = true ∧ (cmdTickSetPeriod m).refusal (boxed 0x0300 m id) = some (.nospt, 0) := by
  decide +kernel

theorem wit_commit_order : ready.replaying = false ∧ ({ ready with changes := [] ++ [.budget 2] } : State).regWrites = []
    ∧ ({ ready with regWrites := [] ++ [.budget 2] } : State).replaying = false := by decide +kernel

/-! ## Mailbox commands (R388-R392) -/

theorem wit_read_commands :
    (reads 0x0302 cmdTickRead 0 id && reads 0x1003 cmdQuotaRead (object 4 79) id && reads 0x1003 cmdQuotaRead 0 id && reads 0x0700 cmdNetRead (object 3 19) id
      && reads 0x0804 cmdLinkRead (object 3 19) id && reads 0x0804 cmdLinkRead 0 id && reads 0x0900 cmdThermRead (object 4 79) id
      && reads 0x0900 cmdThermRead 0 id && reads 0x0901 cmdThermTelemetryRead (object 3 19) id && reads 0x0901 cmdThermTelemetryRead 0 id
      && reads 0x0A06 cmdPwrRead 0 id && reads 0x0B00 cmdFaultLogRead 0 id && reads 0x0B01 cmdFaultMapRead 0 id && reads 0x0C03 cmdSecSessionRead 0 id
      && reads 0x0C12 cmdSecCertRead 0 (fun s => { s with mram := { s.mram with life := .deployed } }) && reads 0x0F00 cmdCapRead 0 id
      && reads 0x0F01 cmdCapEventRead 0 id && reads 0x0F02 cmdCapStatus 0 id && reads 0x0E03 cmdFwStatus 0 id) = true := by decide +kernel

/-- Sequences 5 and 6 of one group each, the second empty, with a layout and a pool of two frames, the first allocated. -/
def pooled (s : State) : State :=
  { s with layouts := [(0, { headDim := 64, fmt := 1, heads := 1, gqa := 1 })]
           seqs := [(5, { seq5 with groups := [⟨0, 0, 8, 300, none, [], none⟩], hold := 1 }), (6, { seq5 with groups := [⟨0, 0, 8, 0, none, [], none⟩] })]
           pools := [(0, { lcid := 0, layout := 0, pageLog2 := 8, base := 0, frames := 2, firstPfn := 0, free := [20], count := 1, owner := 1, fn := 0, low := false })]
           descs := [(0, { lcid := 0, st := .allocated, pageLog2 := 8, off := 0, refs := 0, layout := 0, pool := 0 })] }

/-- The first and last tables of the group of sequence 5 copied already in this tick. -/
def copied (s : State) : State := { pooled s with shadows := [⟨5, 0, 0, 0, [(0, 1), (63, 2)]⟩] }

/-- A plan loaded and not admitted, and one suspended. -/
def plansIn (st : PlanSt) (s : State) : State := { s with plans := [(0, { plan0 with st := st, owner := 1 })] }

theorem wit_object_reads :
    (reads 0x0105 cmdSeqRead (object 2 131071) id && reads 0x0508 cmdKvRead (object 7 0) pooled && reads 0x0508 cmdKvRead (object 2 5) pooled
      && reads 0x0205 cmdPlanRead 0 id && reads 0x0205 cmdPlanRead (object 1 0) (plansIn .loaded) && reads 0x0602 cmdEvdRead (object 3 19) id
      && reads 0x0603 cmdEvdLinks 0 id && reads 0x0604 cmdEvdJournalRead (object 1 127) id && reads 0x0606 cmdEvdStatus 0 id) = true := by decide +kernel

theorem wit_register_commands :
    (servedOn 0x0300 cmdTickSetPeriod [0, 200000] [] id && servedOn 0x0304 cmdTickWrapEn [0, 511] [] id
      && servedOn 0x1000 cmdQuotaSliceSet [object 4 79, 0] [] id && servedOn 0x1001 cmdQuotaStreamSet [object 4 79, 0] [] id
      && servedOn 0x1002 cmdQuotaCrumbSet [0, 8] [] id && servedOn 0x0403 cmdMemConfig [0, 6] [] id
      && servedOn 0x0803 cmdLinkGlobalWaves [0, 16] [] (fun s => { s with stk := [] }) && servedOn 0x0903 cmdThermFlowMin [0, 65535] [] id
      && servedOn 0x0904 cmdThermWarmup [0, 1] [] id && servedOn 0x0301 cmdTickSetSource [0, 1] [] id && servedOn 0x0303 cmdTickCntClear [0, 31] [] id
      && servedOn 0x0701 cmdNetCntClear [object 3 19, 127] [] id && servedOn 0x0404 cmdMemWindowSet [0, 0x40000000] [] id
      && servedOn 0x0800 cmdLinkSetAddr [0, 511, 63] [] id && servedOn 0x0902 cmdThermCalibrate [0, 1, 2, 3, 4, 5] [] id) = true := by decide +kernel

/-- A sequence record of SEQ_OPEN: one group of core 0, layout 0 and page size 2^8. -/
def seqStruct : List Byte := [0, 0, 1, 0, 0, 0, 0, 0, 0xFF, 0xFF] ++ List.replicate 54 0 ++ [0, 0, 0, 8] ++ List.replicate 444 0

theorem wit_sequence_commands :
    (takes 0x0100 cmdSeqOpen (object 2 7) seqStruct pooled && servedOn 0x0101 cmdSeqClose [object 2 5] [] pooled
      && servedOn 0x0102 cmdSeqHold [object 2 5] [] pooled && servedOn 0x0103 cmdSeqRelease [object 2 5] [] pooled
      && servedOn 0x0104 cmdSeqIngest [0x10000, 0x1000, 128] ([5, 0, 0, 0, 1] ++ List.replicate 59 0 ++ [9] ++ List.replicate 63 0)
          (fun s => pooled (plansIn .admitted s))) = true := by decide +kernel

/-- A plan image of no sections. -/
def image0 : List Byte :=
  [1, 0, 0, 0, 15, 0, 0, 0] ++ leBytes 4 20000 ++ leBytes 4 20000 ++ leBytes 4 1 ++ leBytes 4 16384 ++ leBytes 4 64 ++ leBytes 4 0 ++ leBytes 4 64
    ++ leBytes 4 0 ++ leBytes 8 64 ++ List.replicate 16 0

theorem wit_plan_commands :
    (servedOn 0x0200 cmdPlanLoad [127, 0x1000, 64] image0 id && servedOn 0x0201 cmdPlanUnload [object 1 0] [] (plansIn .loaded)
      && servedOn 0x0203 cmdPlanSuspend [object 1 0] [] (plansIn .admitted)) = true := by decide +kernel

theorem wit_pool_commands :
    (takes 0x0500 cmdKvLayoutSet (object 8 255) ([64, 0, 1, 1, 1] ++ List.replicate 59 0) pooled
      && servedOn 0x0501 cmdKvPoolCreate [object 7 1, 0, 4, 0x1000000, 1] [] pooled
      && servedOn 0x0502 cmdKvPoolDestroy [object 7 0] [] (fun s => { s with pools := [(0, { lcid := 0, layout := 0, pageLog2 := 8, base := 0, frames := 1, firstPfn := 0, free := [0], count := 1, owner := 1, fn := 0, low := false })] })
      && servedOn 0x0503 cmdKvFork [object 2 5, 6, 300] [] copied && servedOn 0x0504 cmdKvTruncate [object 2 5, 299] [] copied
      && servedOn 0x0505 cmdKvRetirePages [object 2 5, 0, 0, 2] [] copied && servedOn 0x0506 cmdKvMap [object 2 5, 0, 4095, 0, 7] [] copied
      && servedOn 0x0507 cmdKvUnmap [object 2 5, 0, 4095] [] copied && servedOn 0x0509 cmdKvRetireFrame [0, 0] [] pooled
      && servedOn 0x050A cmdKvRepage [object 2 5, 0, 12] [] pooled && servedOn 0x050B cmdKvRehome [object 2 5, 19] [] pooled
      && takes 0x050C cmdKvRestore (object 2 5) ([0, 0, 1] ++ List.replicate 61 0 ++ [0, 0, 0, 8] ++ List.replicate 444 0) pooled
      && servedOn 0x050D cmdKvDigest [object 2 5, 0] [] pooled) = true := by decide +kernel

theorem wit_memory_commands :
    (servedOn 0x0400 cmdMemRead [0, 0x1000, 64] [] id && servedOn 0x0401 cmdMemWrite [0, 0x1000, 64] (List.replicate 64 1) id
      && servedOn 0x0402 cmdMemFence [0] [] id) = true := by decide +kernel

/-- The plan of slot 0 in a state, with the default period in its range. -/
def timed (st : PlanSt) (s : State) : State :=
  let p : Plan := { plan0 with st := st, owner := 1, periodMin := 20000, periodMax := 400000, crumbs := [⟨0, 0, 100, 10, 1, []⟩] }
  { s with plans := [(0, p)] }

theorem wit_admission :
    (servedOn 0x0202 cmdPlanAdmit [object 1 0] [] (fun s => { timed .loaded s with mram := { s.mram with life := .deployed } })
      && servedOn 0x0204 cmdPlanResume [object 1 0] [] (fun s => { timed .suspended s with mram := { s.mram with life := .deployed } })) = true := by
  decide +kernel

/-- A ledger record of no plan at tick 9, and the journal link over it. -/
def ledger9 : List Byte := [9] ++ List.replicate 31 0
def replay9 : List Byte :=
  ledger9 ++ ([9] ++ List.replicate 79 0 ++ shake256 ledger9 ++ List.replicate 16 0) ++ List.replicate 32 0

/-- Replay mode from tick 8. -/
def replaying8 (s : State) : State :=
  { s with replay := some { base := 8, head := List.replicate 32 0, running := none, next := none, records := [], cmds := [] } }

theorem wit_evidence_commands :
    (servedOn 0x0600 cmdEvdCapture [object 1 0, 1] [] (timed .admitted) && servedOn 0x0601 cmdEvdSeal [0] [] id
      && servedOn 0x0605 cmdEvdAck [0, 7, 0] [] id && servedOn 0x0607 cmdEvdReplayBegin [0, 8, 1, 2, 3, 4] [] id
      && takes 0x0608 cmdEvdReplayTick 0 replay9 replaying8 && servedOn 0x0609 cmdEvdReplayEnd [0] [] replaying8) = true := by decide +kernel

theorem wit_device_commands :
    (servedOn 0x0801 cmdLinkRetrain [object 3 19] [] id && servedOn 0x0802 cmdLinkRejoin [object 3 19] [] id
      && servedOn 0x0A00 cmdPwrState [0, 2] [] id && servedOn 0x0A00 cmdPwrState [0, 0] [] (fun s => { s with power := { s.power with state := .rack } })
      && servedOn 0x0A01 cmdPwrGate [object 5 121] [] id && servedOn 0x0A02 cmdPwrUngate [object 5 79] [] id
      && servedOn 0x0A03 cmdPwrClockHalf [object 3 19, 1, 1] [] id
      && servedOn 0x0A04 cmdPwrStackOff [object 3 19] [] (fun s => { s with cfg := { s.cfg with globalSteps := 0 } })
      && servedOn 0x0A05 cmdPwrStackOn [object 3 19] [] id && servedOn 0x0B02 cmdFaultRetire [object 12 0] [] id
      && servedOn 0x0B03 cmdFaultScrub [0, 1] [] id && servedOn 0x0B04 cmdFaultInject [0, 0, 64, 0] [] id
      && servedOn 0x0B04 cmdFaultInject [object 3 19, 2, 0x1FF, 3] [] id && servedOn 0x0B04 cmdFaultInject [object 6 5, 3, 0, 0] [] id
      && servedOn 0x0B05 cmdFaultDramFuse [object 3 19, 255, 98303] [] id) = true := by decide +kernel

/-- The device in a lifecycle state. -/
def inLife (l : Life) (s : State) : State := { s with mram := { s.mram with life := l } }

/-- A session that opens another from mailbox 0, with no session named. -/
def opening : Msg := { msg [1, 0, 0] [] with session := 0, key := 0 }

theorem wit_session_commands :
    (served (cmdSecSessionOpen opening) (boxed 0x0C00 opening id) && servedOn 0x0C01 cmdSecSessionClose [0] [] id
      && servedOn 0x0C02 cmdSecSessionAdopt [0] [] id && servedOn 0x0C04 cmdSecFunctionLimit [object 11 63, 31] [] id
      && servedOn 0x0C05 cmdSecMailboxAssign [object 10 255, 63] [] id && servedOn 0x0C06 cmdSecExpertOpen [0, 1] [] id
      && servedOn 0x0C07 cmdSecExpertClose [0, 1] [] id && servedOn 0x0C10 cmdSecNonce [] [] id
      && servedOn 0x0C11 cmdSecQuote [1, 2, 3, 4, 0x1000, 16384] [] id && servedOn 0x0C13 cmdSecProvision [0] [] id
      && takes 0x0C15 cmdSecDeploy 0 (List.replicate 128 0) (inLife .provisioned) && servedOn 0x0C16 cmdSecReturn [0] [] (inLife .provisioned)
      && servedOn 0x0C17 cmdSecSvnCommit [0] [] id) = true := by decide +kernel

/-- Every level of debug is granted to session 1. -/
def full (s : State) : State := { s with sessions := [(1, { debugging with dbgLevel := some 3 })] }

theorem wit_debug_commands :
    (servedOn 0x0D00 cmdDbgRead [0, 0x1000, 64] [] id && servedOn 0x0D00 cmdDbgRead [4, 0x1000, 64] [] full
      && servedOn 0x0D01 cmdDbgWrite [3, 0x1000, 64] (List.replicate 34 0xFF ++ List.replicate 30 0) full
      && servedOn 0x0D02 cmdDbgScan [object 4 79, 0x1000, 64] [] full && servedOn 0x0D03 cmdDbgTapOpen [0] [] id
      && servedOn 0x0D04 cmdDbgClose [0] [] id
      && servedOn 0x0E02 cmdFwActivate [0] [] (fun s => { s with hearth := { s.hearth with staged := some staged1 } })) = true := by decide +kernel

/-! ## Commands whose checks verify a signature: a state and operands that meet all but the signature, which the model leaves open -/

/-- An image of 60 bytes of payload, SVN 0. -/
def fw0 : List Byte := leBytes 2 1 ++ List.replicate 10 0 ++ leBytes 4 60 ++ leBytes 4 124 ++ List.replicate 2924 0

/-- The messages of FW_LOAD and FW_REPLACE with the image. -/
def fwMsg : Msg := msg [0x1000, 2944] fw0

theorem slice_whole (l : List Byte) (n : Nat) (h : l.length = n) : slice l 0 n = l := by
  subst h
  apply List.ext_getElem
  · simp [slice]
  · intro i h1 h2
    simp [slice, List.getD_eq_getElem?_getD, h2]

/-- The image's signature holds on a device. -/
def fwSigned : Prop := Config.xmssVerify 0x12 (List.replicate 32 0) (slice fw0 0 124) (slice fw0 124 2820) = true

theorem fw0_passes (h : fwSigned) (f : State → State) (op : Nat) (hf : (answerUnknown (boxed op fwMsg f)).fuses = Fuses.init)
    (hm : (answerUnknown (boxed op fwMsg f)).mram = Mram.init) : imageOut fwMsg (answerUnknown (boxed op fwMsg f)) = none := by
  have hd : fwMsg.dma.isSome = true := by decide +kernel
  have hn : fwMsg.bufLen 0 = 2944 := by decide +kernel
  have hb : imageOf fwMsg = fw0 := slice_whole fw0 2944 (by decide +kernel)
  simp only [imageOut, hd, hn, hb, if_true, imageFail, hf, hm]
  have hs : field fw0 0x10 4 = 124 := by decide +kernel
  have hv : Config.xmssVerify 0x12 Fuses.init.fwDigest (slice fw0 0 124) (slice fw0 124 2820) = true := h
  rw [hs, hv, if_neg (by decide +kernel), if_neg (by decide +kernel), if_neg (by decide +kernel), if_neg (by decide), if_neg (by decide +kernel)]

theorem wit_fw_replace (h : fwSigned) : servedOn 0x0E01 cmdFwReplace [0x1000, 2944] fw0 id = true := by
  have hi : imageOut (msg [0x1000, 2944] fw0) (answerUnknown (boxed 0x0E01 (msg [0x1000, 2944] fw0) id)) = none :=
    fw0_passes h id 0x0E01 (by decide +kernel) (by decide +kernel)
  simp only [servedOn, served, Cmd.refusal, cmdFwReplace, cmdElse, imageCheck, hi]
  decide +kernel

/-- MB0 waits for an image. -/
def waiting (s : State) : State := { s with boot := { (atStage 7).boot with fetchWait := true } }

theorem wit_fw_load (h : fwSigned) : servedOn 0x0E00 cmdFwLoad [0x1000, 2944] fw0 waiting = true := by
  have hi : imageOut (msg [0x1000, 2944] fw0) (answerUnknown (boxed 0x0E00 (msg [0x1000, 2944] fw0) waiting)) = none :=
    fw0_passes h waiting 0x0E00 (by decide +kernel) (by decide +kernel)
  simp only [servedOn, served, Cmd.refusal, cmdFwLoad, cmdElse, imageCheck, hi]
  decide +kernel

/-- A device certificate of a key of zeros, its signature zeros. -/
def cert0 : List Byte :=
  [0x54, 0x5A, 0x2D, 0x43, 0x45, 0x52, 0x54, 0x31, 0, 0xFF, 1, 0, 2, 0, 0, 0] ++ List.replicate 18608 0

/-- The device with that key as its identity. -/
def keyed (s : State) : State := { s with mram := { s.mram with identity := some (List.replicate 68 0) } }

theorem wit_cert_install (h : Config.xmssVerify 2 (List.replicate 32 0) (slice cert0 0 144) (slice cert0 144 18469) = true) :
    servedOn 0x0C14 cmdSecCertInstall [0, 0, 0x1000, 18624] cert0 keyed = true := by
  have hb : structBytes (msg [0, 0, 0x1000, 18624] cert0) = cert0 := slice_whole cert0 18624 (by decide +kernel)
  have hf : (answerUnknown (boxed 0x0C14 (msg [0, 0, 0x1000, 18624] cert0) keyed)).fuses.caDigest = List.replicate 32 0 := by decide +kernel
  have hc : certOk (answerUnknown (boxed 0x0C14 (msg [0, 0, 0x1000, 18624] cert0) keyed)) cert0 = true := by
    unfold certOk
    rw [hf, h]
    decide +kernel
  simp only [servedOn, served, Cmd.refusal, cmdSecCertInstall, cmd, structFits, hb, hc]
  decide +kernel

/-! ## The machine, and commands that are not well formed -/

/-- A ready device with a byte of memory and a command waiting. -/
def queued : State := { ready with pending := [.zeroingDone, .hearthWatchdogExpiry], dram := [(5, 1)], cfg := { ready.cfg with zeroing := true } }

theorem wit_machine : Mem.wf queued.dram = true ∧ queued.pending = [.zeroingDone, .hearthWatchdogExpiry] ∧ (∃ t, step queued = .next t)
    ∧ (∃ t, exec .zeroingDone queued = .next t) ∧ ready.pending = []
    ∧ ({ ready with fuses := { ready.fuses with erased := true }, mram := { ready.mram with identity := some [] } } : State).fuses.erased = true :=
  ⟨by decide +kernel, rfl, ⟨_, rfl⟩, ⟨_, rfl⟩, rfl, rfl⟩

/-- Each check of well-formedness refuses a term. -/
theorem test_ill_formed :
    Instr.wf (.collectionReport 20) = false ∧ Instr.wf (.nop 0x1400 (r3 0 0 0)) = false ∧ Instr.wf (.nop 0x000F (r3 0 0 0)) = false
    ∧ Instr.wf (.crumbGrant 5120) = false ∧ Instr.wf (.endProgram ⟨5120, 0⟩ ⟨0, 0, 0, 0⟩) = false ∧ Instr.wf (.endProgram ⟨0, 48⟩ ⟨0, 0, 0, 0⟩) = false
    ∧ Instr.wf (.refreshBandFall 80) = false ∧ Instr.wf (.tlinkPortDown 6) = false ∧ Instr.wf (.mailboxGo 256 1) = false
    ∧ Instr.wf (.tickRead { msg [] [] with mb := 256 }) = false ∧ Instr.wf (.functionLevelReset 64) = false ∧ Instr.wf (.laneSwap ⟨20, 0, true, 0⟩) = false
    ∧ Instr.wf (.laneSwap ⟨0, 3, true, 0⟩) = false ∧ Instr.wf (.laneSwap ⟨31, 3, true, 9⟩) = false ∧ Instr.wf (.faultReport ⟨20, 0, .core, 0, 1⟩) = false
    ∧ Instr.wf (.faultReport ⟨0, 256, .core, 0, 1⟩) = false ∧ Instr.wf (.stageP6 20) = false ∧ Instr.wf (.stageP6 31) = true
    ∧ Instr.wf (.laneSwap ⟨31, 8, true, 8⟩) = true := by decide +kernel

/-- A command that names a unit that does not exist faults. -/
theorem test_no_such_unit : (match exec (.mailboxGo 256 1) ready with | .fault .noSuchUnit => true | _ => false) = true := by decide +kernel

end Sys2Proof.Tests
end

section
/-! ## SUPPORT: what the shared operations of registers, mailbox commands and commits do (chapters 00 and 14 of the spec) -/

namespace Sys2Proof.Machine

open Sys2Proof

/-! ### Counters (R6) -/

/-- Below the top a counter counts exactly. -/
theorem CtrVal.bump_of_le {v : CtrVal} {n : Nat} (h : v.val.toNat + n ≤ 0xFFFFFFFF) : v.bump n = ⟨v.val + BitVec.ofNat 32 n, v.ovf⟩ :=
  if_pos h

/-- A count that would pass the top stops there and marks the overflow. -/
theorem CtrVal.bump_of_lt {v : CtrVal} {n : Nat} (h : 0xFFFFFFFF < v.val.toNat + n) : v.bump n = ⟨0xFFFFFFFF, true⟩ :=
  if_neg (by omega)

/-- The sum of a word and a number that fits the word. -/
theorem toNat_add_ofNat_of_le {x : BitVec 32} {n : Nat} (h : x.toNat + n ≤ 0xFFFFFFFF) : (x + BitVec.ofNat 32 n).toNat = x.toNat + n := by
  rw [BitVec.toNat_add, BitVec.toNat_ofNat]
  omega

/-! ### The expert ranges, open and closed (R387) -/

/-- Where the expert ranges are open, a register write takes place. -/
theorem when_open {s t : State} (h : s.expertOpen = true) : when s.expertOpen s t = .next t := by rw [h, when_true]

/-- Where they are closed, it is ignored. -/
theorem when_closed {s t : State} (h : s.expertOpen = false) : when s.expertOpen s t = .next s := by rw [h, when_false]

/-- Access that no session holds open is closed to the host. -/
theorem expertOpen_of_regOpen_false {s : State} (h : s.regOpen = false) : s.expertOpen = false := by simp [State.expertOpen, h]

/-! ### Register writes that wait for the next commit (R380, R459) -/

theorem writePeriod_ok {s : State} {v : BitVec 32} (h : (periodOutcome s v.toNat).1 = .ok) :
    writePeriod v s = markPending (.period v.toNat) (regWrite (.period v.toNat) s) := if_pos h

theorem writePeriod_reject {s : State} {v : BitVec 32} (h : (periodOutcome s v.toNat).1 ≠ .ok) :
    writePeriod v s = { s with seqr := { s.seqr with periodReject := true } } := if_neg h

theorem writeRate_slice_ok {q : Nat} {v : BitVec 32} {s : State} (h : v.toNat % 2048 ≤ 1920) :
    writeRate q false v s = markPending (.rate q false (v.toNat % 2048)) (regWrite (.rate q false (v.toNat % 2048)) s) :=
  if_neg (Nat.not_lt.2 h)

theorem writeRate_slice_reject {q : Nat} {v : BitVec 32} {s : State} (h : 1920 < v.toNat % 2048) :
    writeRate q false v s = s.setQuad q { s.quadAt q with rateReject := true } := if_pos h

theorem writeRate_stream_ok {q : Nat} {v : BitVec 32} {s : State} (h : v.toNat % 512 ≤ 448) :
    writeRate q true v s = markPending (.rate q true (v.toNat % 512)) (regWrite (.rate q true (v.toNat % 512)) s) :=
  if_neg (Nat.not_lt.2 h)

theorem writeSteps_ok {v : BitVec 32} {s : State} (hv : v.toNat % 16 ≤ 6) (hu : s.inUse = false) :
    writeSteps v s = markPending (.globalSteps (v.toNat % 16)) (regWrite (.globalSteps (v.toNat % 16)) s) :=
  if_neg (by simp [hu, hv])

theorem writeSteps_reject {v : BitVec 32} {s : State} (h : 6 < v.toNat % 16 ∨ s.inUse = true) :
    writeSteps v s = { s with cfg := { s.cfg with memReject := true } } := if_pos h

theorem writeBudget_ok {v : BitVec 32} {s : State} (h1 : 1 ≤ v.toNat % 16) (h8 : v.toNat % 16 ≤ 8) :
    writeBudget v s = markPending (.budget (v.toNat % 16)) (regWrite (.budget (v.toNat % 16)) s) := if_neg (by omega)

theorem writeBudget_reject {v : BitVec 32} {s : State} (h : v.toNat % 16 < 1 ∨ 8 < v.toNat % 16) :
    writeBudget v s = { s with cfg := { s.cfg with budgetReject := true } } := if_pos h

theorem writeWaves_ok {v : BitVec 32} {s : State} (h : s.wavesOk (v.toNat % 32) = true) :
    writeWaves v s = markPending (.globalWaves (v.toNat % 32)) (regWrite (.globalWaves (v.toNat % 32)) s) := if_pos h

theorem writeWaves_reject {v : BitVec 32} {s : State} (h : s.wavesOk (v.toNat % 32) = false) :
    writeWaves v s = { s with cfg := { s.cfg with linkReject := true } } := if_neg (by simp [h])

/-- No value outside 4 to 16 is a number of global wavelengths (R264). -/
theorem wavesOk_of_out_of_range {s : State} {x : Nat} (h : x < 4 ∨ 16 < x) : s.wavesOk x = false := by
  have hr : (decide (4 ≤ x) && decide (x ≤ 16)) = false := by
    rw [Bool.and_eq_false_iff, decide_eq_false_iff_not, decide_eq_false_iff_not]
    omega
  simp [State.wavesOk, hr]

/-! ### Register writes that act at once -/

theorem writeBase_ok {v : Nat} {s : State} (h : v % 2 ^ 30 = 0) : writeBase v s = { s with host := { s.host with bar2Base := v } } := if_pos h

theorem writeBase_reject {v : Nat} {s : State} (h : v % 2 ^ 30 ≠ 0) : writeBase v s = { s with host := { s.host with cfgReject := true } } :=
  if_neg h

theorem writeCtrl_internal {v : BitVec 32} {s : State} (h : v.toNat % 4 = 0) :
    writeCtrl v s = selectSource false { s with seqr := { s.seqr with lateEvtEn := v.getLsbD 8 } } := by simp only [writeCtrl, h]

theorem writeCtrl_external {v : BitVec 32} {s : State} (h : v.toNat % 4 = 1) (hr : s.replay = none) :
    writeCtrl v s = selectSource true { s with seqr := { s.seqr with lateEvtEn := v.getLsbD 8 } } := by simp [writeCtrl, h, hr]

/-- THERMAL_CONFIG_WRITE at an offset of the thermal block. -/
theorem execThermalConfigWrite_of_block {off r : Nat} {v : BitVec 32} {s : State} (h : blockAt off = some (.thermal, r)) :
    execThermalConfigWrite off v s = when s.expertOpen s (writeThermal r v s) := by simp only [execThermalConfigWrite, h]

/-- THERMAL_CONFIG_WRITE is ignored while expert access is closed, whatever its offset. -/
theorem execThermalConfigWrite_closed {off : Nat} {v : BitVec 32} {s : State} (h : s.expertOpen = false) :
    execThermalConfigWrite off v s = .next s := by
  unfold execThermalConfigWrite
  split
  · exact when_closed h
  · rfl

/-- COUNTER_CLEAR at the CNT_CLEAR word of a block. -/
theorem execCounterClear_of_block {off : Nat} {b : Block} {c : Counters} {v : BitVec 32} {s : State} (ho : s.expertOpen = true)
    (hb : blockAt off = some (b, c.clear)) (hc : b.counters = some c) : execCounterClear off v s = .next (clearCounters c v s) := by
  simp [execCounterClear, hb, hc, ho, when_true]

/-- COUNTER_CLEAR is ignored while expert access is closed, whatever its offset. -/
theorem execCounterClear_closed {off : Nat} {v : BitVec 32} {s : State} (h : s.expertOpen = false) : execCounterClear off v s = .next s := by
  unfold execCounterClear
  split
  · split
    · rw [h, Bool.false_and, when_false]
    · rfl
  · rfl

/-- A register write outside the mailboxes reaches the expert ranges. -/
theorem execRegisterWrite_expert {off size : Nat} {v : BitVec 64} {s : State} (h : off < 0x400000 ∨ 0x800000 ≤ off) :
    execRegisterWrite off size v s = when s.expertOpen s (writeRegs off size v s) := if_neg (by omega)

/-- A rate write names one of the 80 quadrants. -/
theorem execRateWrite_of_lt {q : Nat} {stream : Bool} {v : BitVec 32} {s : State} (h : q < 80) :
    execRateWrite q stream v s = when s.expertOpen s (writeRate q stream v s) := by
  rw [execRateWrite, validQuad, decide_eq_true h, unit_true]

/-- Reading MAX_RECOVERY_NS returns and clears it, where expert access is open. -/
theorem execMaxRecoveryNsRead_open {s : State} (h : s.expertOpen = true) : execMaxRecoveryNsRead s = .next { s with
    host := { s.host with lastRead := BitVec.ofNat 64 (s.seqr.maxRecovery % 2 ^ 32) }, seqr := { s.seqr with maxRecovery := 0 } } := by
  obtain ⟨hp, hr⟩ : s.pins.hostUp = true ∧ s.regOpen = true := by simpa [State.expertOpen] using h
  rw [execMaxRecoveryNsRead, hp, when_true, if_pos hr]

/-! ### The checks of a command (R9, R379) -/

section

variable {s : State} {op len : Nat} {a : Auth} {m : Msg} {c : Check}

/-- A message that is not well formed, or names a value out of range, is answered first. -/
theorem verdict_malformed (h : m.rsv = true ∨ 4096 < m.session.toNat ∨ (s.mbAt m.mb).length ≠ 8 * len ∨ c.nospt = true) :
    verdict s op len a m c = some (.nospt, 0) :=
  if_pos (by simpa [or_assoc] using h)

/-- What the checks of a command can answer, each with the checks that it has passed before. -/
theorem verdict_cases {r : Option (Status × Nat)} (h : verdict s op len a m c = r) :
    r = some (.nospt, 0)
    ∨ (m.rsv = false ∧ (s.mbAt m.mb).length = 8 * len ∧ c.nospt = false)
      ∧ ((∃ d, r = some (.denied, d))
        ∨ (authDenied s a m = none ∧ c.denied = none ∧ (s.replay = none ∨ a.replay = true))
          ∧ (r = some (.stalemsg, 0)
            ∨ (tagAge s.seqr.count m.tag).isSome = true
              ∧ ((∃ d, r = some (.unavail, d))
                ∨ (c.dma = false ∧ c.gone = false)
                  ∧ (r = some (.busy, 0)
                    ∨ (s.stageBusy m.mb op = false ∧ c.busy = false) ∧ r = c.limit.map fun d => (.limit, d))))) := by
  subst h
  unfold verdict
  split
  · exact .inl rfl
  · rename_i hform
    simp only [Bool.or_eq_true, not_or, Bool.not_eq_true, bne_eq_false_iff_eq] at hform
    obtain ⟨⟨⟨hrsv, -⟩, hlen⟩, hspt⟩ := hform
    refine .inr ⟨⟨hrsv, hlen, hspt⟩, ?_⟩
    split
    · exact .inl ⟨_, rfl⟩
    · rename_i hauth
      split
      · exact .inl ⟨_, rfl⟩
      · rename_i hdenied
        split
        · exact .inl ⟨_, rfl⟩
        · rename_i hreplay
          refine .inr ⟨⟨hauth, hdenied, ?_⟩, ?_⟩
          · cases hs : s.replay with
            | none => exact .inl rfl
            | some x => exact .inr (by simpa [hs] using hreplay)
          · split
            · exact .inl rfl
            · rename_i htag
              refine .inr ⟨by simpa [Option.isSome_iff_ne_none] using htag, ?_⟩
              split
              · exact .inl ⟨_, rfl⟩
              · split
                · exact .inl ⟨_, rfl⟩
                · rename_i hdma hgone
                  refine .inr ⟨⟨by simpa using hdma, by simpa using hgone⟩, ?_⟩
                  split
                  · exact .inl rfl
                  · rename_i hbusy
                    refine .inr ⟨by simpa using hbusy, ?_⟩
                    cases c.limit <;> rfl

end

/-- A command's own rules stop nothing when none of them does. -/
theorem Check.eq_ok {c : Check} (hn : c.nospt = false) (hd : c.denied = none) (hm : c.dma = false) (hg : c.gone = false) (hb : c.busy = false)
    (hl : c.limit = none) : c = Check.ok := by
  obtain ⟨n, d, m, g, b, l⟩ := c
  simp only at hn hd hm hg hb hl
  rw [hn, hd, hm, hg, hb, hl]
  rfl

/-! ### Responses (R375): what they change -/

@[simp] theorem sendVector_mbAt (fn vec n : Nat) (s : State) : (sendVector fn vec s).mbAt n = s.mbAt n := by
  unfold sendVector
  split <;> rfl

/-- A vector sent changes the host's queue of messages alone. -/
theorem sendVector_frame (fn vec : Nat) (s : State) : sendVector fn vec s = { s with host := (sendVector fn vec s).host } := by
  unfold sendVector
  split <;> rfl

/-- The mailbox that a response is written to. -/
theorem respond_mbAt (mb : Nat) (r : Resp) (s : State) : (respond mb r s).mbAt mb
    = { s.mbAt mb with done := true, lastStatus := BitVec.ofNat 8 r.status.code, busy := false, served := false, resp := some r } := by
  unfold respond
  dsimp only
  split
  · rw [sendVector_mbAt, State.mbAt_setMb]
  · rw [State.mbAt_setMb]

/-- A response changes the mailboxes and the host's queue of messages alone. -/
theorem respond_frame (mb : Nat) (r : Resp) (s : State) :
    respond mb r s = { s with mailboxes := (respond mb r s).mailboxes, host := (respond mb r s).host } := by
  unfold respond
  dsimp only
  split
  · rw [sendVector_frame]; rfl
  · rfl

/-- The state `t` is `s` but for what answering commands changes: mailboxes, the host's queue of messages, the Hearth's round robin and
the count of commands. -/
def AnswersOnly (s t : State) : Prop :=
  ∃ mailboxes host hearth devPerfs,
    t = { s with mailboxes := mailboxes, host := host, hearth := hearth, devPerfs := devPerfs }

theorem AnswersOnly.refl (s : State) : AnswersOnly s s := ⟨_, _, _, _, rfl⟩

theorem AnswersOnly.trans {s t u : State} (h : AnswersOnly s t) (k : AnswersOnly t u) : AnswersOnly s u := by
  obtain ⟨_, _, _, _, rfl⟩ := h
  obtain ⟨_, _, _, _, rfl⟩ := k
  exact ⟨_, _, _, _, rfl⟩

theorem answersOnly_respond (mb : Nat) (r : Resp) (s : State) : AnswersOnly s (respond mb r s) := ⟨_, _, _, _, respond_frame mb r s⟩

theorem answersOnly_countServed (mb : Nat) (s : State) : AnswersOnly s (countServed mb s) := ⟨_, _, _, _, rfl⟩

/-- Messages of unknown opcode are only answered. -/
theorem answersOnly_answerUnknown (s : State) : AnswersOnly s (answerUnknown s) := by
  unfold answerUnknown
  generalize s.mailboxes.filter _ = l
  suffices h : ∀ t, AnswersOnly s t → AnswersOnly s (l.foldl _ t) from h s (.refl s)
  induction l with
  | nil => exact fun _ h => h
  | cons e l ih => exact fun t h => ih _ (h.trans ((answersOnly_countServed e.1 t).trans (answersOnly_respond ..)))

/-- A command that a check stops, and whose refusal leaves nothing else, is only answered: with that check's status, in its mailbox. -/
theorem serveCmd_cmd_refused {op len : Nat} {a : State → Auth} {m : Msg} {k : State → Check} {run : State → State} {s : State}
    {v : Status × Nat} (ht : (cmd op len a m k run).taken s = true) (hr : (cmd op len a m k run).refusal s = some v) :
    ∃ t, serveCmd (cmd op len a m k run) s = .next t ∧ AnswersOnly s t ∧ (t.mbAt m.mb).lastStatus = BitVec.ofNat 8 v.1.code
      ∧ (t.mbAt m.mb).busy = false ∧ (t.mbAt m.mb).done = true := by
  refine ⟨complete op m v.1 v.2 0 [] ((cmd op len a m k run).served s), serveCmd_refused ht hr, ?_, ?_⟩
  · exact (answersOnly_answerUnknown s).trans ((answersOnly_countServed m.mb _).trans (answersOnly_respond ..))
  · unfold complete
    rw [respond_mbAt]
    exact ⟨rfl, rfl, rfl⟩

/-! ### Changes at a commit (R380) -/

/-- No recorded changes join the tick's own outside a replay tick. -/
theorem tickChanges_of_not_replaying {s : State} (h : s.replaying = false) : s.tickChanges = s.changes := by
  unfold State.replaying at h
  unfold State.tickChanges
  cases hr : s.replay with
  | none => exact List.append_nil _
  | some r =>
    rw [hr] at h
    simp only at h
    simp [h]

/-- The last register write is applied after everything else. -/
theorem publishChanges_regWrites_concat {s : State} {cs : List Change} {c : Change} (h : s.regWrites = cs ++ [c]) :
    publishChanges s = applyChange c (publishChanges { s with regWrites := cs }) := by
  unfold publishChanges
  rw [h, ← List.append_assoc, List.foldl_append]
  rfl

/-- Without register writes, the mailbox change accepted last is applied last. -/
theorem publishChanges_changes_concat {s : State} {cs : List Change} {c : Change} (hr : s.replaying = false) (hc : s.changes = cs ++ [c])
    (hw : s.regWrites = []) : publishChanges s = applyChange c (publishChanges { s with changes := cs }) := by
  have hr' : ({ s with changes := cs } : State).replaying = false := hr
  unfold publishChanges
  rw [tickChanges_of_not_replaying hr, tickChanges_of_not_replaying hr', hc, hw, List.append_nil, List.append_nil, List.foldl_append]
  rfl

/-- A commit with no changes applies none. -/
theorem publishChanges_nil {s : State} (hr : s.replaying = false) (hc : s.changes = []) (hw : s.regWrites = []) :
    publishChanges s = { s with replayChanges := [] } := by
  unfold publishChanges
  rw [tickChanges_of_not_replaying hr, hc, hw, List.append_nil, List.foldl_nil]

end Sys2Proof.Machine

/-! ## SUPPORT: mailbox commands that no check stops -/

namespace Sys2Proof.Claims

open Sys2Proof Sys2Proof.Machine

/-- A command served by its table entry has the effect of that entry's run. -/
theorem does_of_serveCmd {mk : Msg → Instr} {c : Msg → Cmd} {f : Msg → State → State} (he : ∀ m s, exec (mk m) s = serveCmd (c m) s)
    (hf : ∀ m t, (c m).run t = f m t) : Does mk c f := by
  intro m s h
  obtain ⟨ht, hr⟩ : (c m).taken s = true ∧ (c m).refusal s = none := by simpa [served] using h
  rw [he, serveCmd_run ht hr, hf]

/-- A command that stages its changes, read as one with the effect of staging them. -/
theorem stages_of_does {mk : Msg → Instr} {c : Msg → Cmd} {op : Nat} {cs : Msg → State → List Change} {body : Msg → List W64}
    (h : Does mk c fun m t => accept op m (cs m t) (body m) t) : Stages mk c op cs body := h

/-- A command that makes a register's value pending, read as one with that effect. -/
theorem pends_of_does {mk : Msg → Instr} {c : Msg → Cmd} {op : Nat} {ch : Msg → Change}
    (h : Does mk c fun m t => accept op m [ch m] [] (markPending (ch m) t)) : Pends mk c op ch := h

/-! ## The obligations of chapter 00 -/

/-- Settles O35: the two branches of the counter's definition. -/
theorem countersSaturate : Obligations.CountersSaturate := by
  unfold Obligations.CountersSaturate
  intro v n
  refine ⟨fun h => ?_, fun h => ?_⟩
  · rw [CtrVal.bump_of_le h]
    exact ⟨toNat_add_ofNat_of_le h, rfl⟩
  · rw [CtrVal.bump_of_lt h]
    exact ⟨rfl, rfl⟩

/-- Settles O53, by the outcome of each register's write, where the expert ranges are open and where they are closed. -/
theorem registerWrites : Obligations.RegisterWrites := by
  unfold Obligations.RegisterWrites
  refine ⟨fun s v ho => ?_, fun s v ho => ?_, fun s ho => ?_, fun s hr => ?_⟩
  · refine ⟨fun h => ?period, fun h => ?periodReject, when_open ho, fun q hq h => ?slice, fun q hq h => ?sliceReject, fun q hq h => ?stream,
      fun h hu => ?steps, fun h => ?stepsReject, fun h1 h8 => ?budget, fun h => ?budgetReject, fun off hb => ?flow, fun off hb => ?warmup⟩
    case period => rw [← writePeriod_ok h]; exact when_open ho
    case periodReject => rw [← writePeriod_reject h]; exact when_open ho
    case slice => rw [← writeRate_slice_ok h]; exact (execRateWrite_of_lt hq).trans (when_open ho)
    case sliceReject => rw [← writeRate_slice_reject h]; exact (execRateWrite_of_lt hq).trans (when_open ho)
    case stream => rw [← writeRate_stream_ok h]; exact (execRateWrite_of_lt hq).trans (when_open ho)
    case steps => rw [← writeSteps_ok h hu]; exact when_open ho
    case stepsReject => rw [← writeSteps_reject h]; exact when_open ho
    case budget => rw [← writeBudget_ok h1 h8]; exact when_open ho
    case budgetReject => rw [← writeBudget_reject h]; exact when_open ho
    case flow => exact (execThermalConfigWrite_of_block hb).trans (when_open ho)
    case warmup => exact (execThermalConfigWrite_of_block hb).trans (when_open ho)
  · refine ⟨fun h => ?_, fun h => ?_, wavesOk_of_out_of_range⟩
    · rw [← writeWaves_ok h]; exact when_open ho
    · rw [← writeWaves_reject h]; exact when_open ho
  · refine ⟨fun v h => ?_, fun v h => ?_, fun v h => ?_, fun v h hr => ?_, fun off b c v hb hc => execCounterClear_of_block ho hb hc,
      fun _ => execMaxRecoveryNsRead_open ho, fun off v h => ?_⟩
    · rw [← writeBase_ok h]; exact when_open ho
    · rw [← writeBase_reject h]; exact when_open ho
    · rw [← writeCtrl_internal h]; exact when_open ho
    · rw [← writeCtrl_external h hr]; exact when_open ho
    · exact ⟨(execRegisterWrite_expert h).trans (when_open ho), (execRegisterWrite_expert h).trans (when_open ho)⟩
  · have hc := expertOpen_of_regOpen_false hr
    exact ⟨fun off size v h => (execRegisterWrite_expert h).trans (when_closed hc),
      fun v => ⟨when_closed hc, when_closed hc, when_closed hc, when_closed hc, when_closed hc, when_closed hc⟩,
      fun v => when_closed hc, fun off v => execCounterClear_closed hc, fun off v => execThermalConfigWrite_closed hc,
      fun q stream v hq => (execRateWrite_of_lt hq).trans (when_closed hc)⟩

/-- Settles O55: each answer of the checks comes with the checks passed before it. -/
theorem checkOrder : Obligations.CheckOrder := by
  unfold Obligations.CheckOrder
  intro s op len a m c r
  refine ⟨verdict_malformed, fun hr => ?_, ?_⟩
  · obtain h | ⟨⟨hrsv, hlen, hspt⟩, ⟨_, h⟩ | ⟨⟨hauth, hden, hrep⟩, h | ⟨htag, ⟨_, h⟩ | ⟨⟨hdma, hgone⟩, h | ⟨⟨hstage, hbusy⟩, h⟩⟩⟩⟩⟩ :=
      verdict_cases hr
    · exact nomatch h
    · exact nomatch h
    · exact nomatch h
    · exact nomatch h
    · exact nomatch h
    · have hlim : c.limit = none := by simpa using h.symm
      exact ⟨hauth, Check.eq_ok hspt hden hdma hgone hbusy hlim, hstage, hrep, htag, hrsv, hlen⟩
  · obtain h | ⟨⟨-, -, hspt⟩, ⟨d, h⟩ | ⟨⟨hauth, hden, -⟩, h | ⟨-, ⟨d, h⟩ | ⟨⟨-, hgone⟩, h | ⟨⟨hstage, hbusy⟩, h⟩⟩⟩⟩⟩ :=
      verdict_cases (r := r) rfl
    · exact .inr ⟨_, _, h, by simp⟩
    · exact .inr ⟨_, _, h, by simp [hspt]⟩
    · exact .inr ⟨_, _, h, by simp⟩
    · exact .inr ⟨_, _, h, by simp⟩
    · exact .inr ⟨_, _, h, by simp [hauth, hden, hgone]⟩
    · cases hl : c.limit with
      | none => exact .inl fun v => by simp [h, hl]
      | some d => exact .inr ⟨d, .limit, by rw [h, hl]; rfl, by simp [hbusy, hstage]⟩

/-- Settles O56: a refusal only answers, an acceptance only stages, and a commit folds the changes in their order. -/
theorem commandsRefusedOrStaged : Obligations.CommandsRefusedOrStaged := by
  unfold Obligations.CommandsRefusedOrStaged
  refine ⟨?refused, ?accepted, ?committed⟩
  case refused =>
    intro op len a m k run s st d c ht hr
    obtain ⟨t, hs, ⟨_, _, _, _, rfl⟩, hstatus, hbusy, hdone⟩ := serveCmd_cmd_refused ht hr
    exact ⟨_, hs, hstatus, hbusy, hdone, rfl, rfl, rfl, rfl, rfl, rfl, rfl, rfl, rfl, rfl, rfl, rfl⟩
  case accepted =>
    intro op m cs body s t
    have hm : t.mbAt m.mb = { s.mbAt m.mb with served := true } := State.mbAt_setMb s m.mb _
    exact ⟨rfl, rfl, by rw [hm], by rw [hm], ⟨_, rfl, rfl, rfl, rfl, rfl⟩,
      fun n hn => State.mbAt_setMb_other s _ hn, rfl⟩
  case committed =>
    intro s c hr
    exact ⟨fun cs hc hw => publishChanges_changes_concat hr hc hw, fun cs hw => publishChanges_regWrites_concat hw,
      fun hc hw => publishChanges_nil hr hc hw, fun v => rfl, fun v => rfl, fun v => rfl, fun v => rfl, fun v => rfl⟩

/-- Settles O58: each command is served by its table entry, whose run is the effect stated. -/
theorem registerCommandsAccepted : Obligations.RegisterCommandsAccepted := by
  unfold Obligations.RegisterCommandsAccepted
  refine ⟨pends_of_does ?_, pends_of_does ?_, pends_of_does ?_, pends_of_does ?_, pends_of_does ?_, pends_of_does ?_, pends_of_does ?_,
    pends_of_does ?_, pends_of_does ?_, ?_, ?_, ?_, stages_of_does ?_, stages_of_does ?_, stages_of_does ?_⟩ <;>
  exact does_of_serveCmd (fun _ _ => rfl) (fun _ _ => rfl)

end Sys2Proof.Claims
end

section
/-! ## SUPPORT: which commands answer a next state (chapter 01 of the spec, log 1) -/

namespace Sys2Proof.Machine

open Sys2Proof

/-- The machine goes on: the answer is a next state. -/
def Runs (r : Out) : Prop := ∃ t, r = .next t

/-- An answer is a next state where the unit named is valid, and the fault noSuchUnit where it is not. -/
def Answers (r : Out) (valid : Bool) : Prop := (valid = true → Runs r) ∧ (valid = false → r = .fault .noSuchUnit)

/-! ### How answers are put together -/

/-- A next state, written as one or as a `skip` or a `when`, which unfold to one. -/
theorem runs_next (t : State) : Runs (.next t) := ⟨t, rfl⟩

/-- A choice between two answers that go on goes on. -/
theorem Runs.ite {p : Prop} [Decidable p] {a b : Out} (ha : Runs a) (hb : Runs b) : Runs (if p then a else b) := by
  split
  · exact ha
  · exact hb

/-- A command that names no unit answers as its meaning does. -/
theorem Runs.answers {r : Out} (h : Runs r) : Answers r true := ⟨fun _ => h, nofun⟩

/-- A command whose meaning stands behind the check of its unit. -/
theorem answers_unit {b : Bool} {k : Out} (h : Runs k) : Answers (unit b k) b := by
  cases b
  · exact ⟨nofun, fun _ => unit_false k⟩
  · exact h.answers

/-! ### The shared operations -/

/-- A tile instruction completes, waits, faults its core or is not the one fetched. -/
theorem answers_issue (c : Lcid) (op : BitVec 8) (h : Shape) (o : Op) (s : State) (body : CoreCtx → Tr (CoreCtx × State)) :
    Answers (issue c op h o s body) (validLcid c) := by
  refine answers_unit (.ite ?_ (runs_next _))
  dsimp only
  split <;> exact runs_next _

theorem answers_issueK (c : Lcid) (op : BitVec 8) (h : Shape) (o : Op) (s : State) (body : CoreCtx → Tr CoreCtx) :
    Answers (issueK c op h o s body) (validLcid c) := answers_issue ..

/-- A crumb instruction completes, waits, breaks its program or finds its slice lost. -/
theorem answers_crumbRun (u : UnitId) (op : BitVec 6) (d a b : Bool) (imms : BitVec 17) (o : CrumbOp) (s : State)
    (body : Lcid → CrumbJob → CrumbUnit → Except CStop (CrumbUnit × Nat × State)) :
    Answers (crumbRun u op d a b imms o s body) (validUnit u) := by
  refine answers_unit ?_
  dsimp only
  split
  · exact runs_next _
  · refine .ite (.ite (runs_next _) ?_) (runs_next _)
    split <;> exact runs_next _

theorem answers_crumbUnitOp (u : UnitId) (op : BitVec 6) (d a b : Bool) (imms : BitVec 17) (o : CrumbOp) (s : State)
    (f : CrumbUnit → Except CStop CrumbUnit) : Answers (crumbUnitOp u op d a b imms o s f) (validUnit u) := answers_crumbRun ..

theorem answers_arrive (kind : BitVec 4) (f : NetFlit) (bad : List Nat) (s : State) (k : State → State) :
    Answers (arrive kind f bad s k) (validStack f.stack) := by
  refine answers_unit (.ite (.ite (runs_next _) (.ite ?_ (runs_next _))) (runs_next _))
  split
  · exact runs_next _
  · exact .ite (runs_next _) (runs_next _)

theorem answers_arriveFrame (kind : BitVec 4) (f : NetFrame) (bad : Nat) (s : State) (k : State → State) :
    Answers (arriveFrame kind f bad s k) (validStack f.src && validStack f.dst) :=
  answers_unit (.ite (.ite (.ite (runs_next _) (runs_next _)) (.ite (runs_next _) (runs_next _))) (runs_next _))

theorem answers_takePacket (kind port : Nat) (p : Packet) (bad : Nat) (stale k : State → State) (s : State) :
    Answers (takePacket kind port p bad stale k s) (validPort port) :=
  answers_unit (.ite (.ite (runs_next _) (runs_next _)) (runs_next _))

theorem answers_serveCmd (c : Cmd) (s : State) : Answers (serveCmd c s) (validMailbox c.m.mb) := by
  refine ⟨serveCmd_answers c s, fun h => ?_⟩
  unfold serveCmd
  rw [h, unit_false]

theorem runs_tapScan (ir : BitVec 8) (s : State) : Runs (tapScan ir s) := .ite (runs_next _) (.ite (runs_next _) (runs_next _))

/-! ### Commands with branches of their own: cores, crumb units and the network -/

/-- HALT on a core whose crumb program has faulted reports that fault; else it is issued as any other. -/
theorem answers_execHalt (c : Lcid) (o : Op) (s : State) : Answers (execHalt c o s) (validLcid c) := by
  unfold execHalt
  split
  · exact answers_unit (runs_next _)
  · exact answers_issue ..

theorem answers_execFenceCrumb (c : Lcid) (o : Op) (s : State) : Answers (execFenceCrumb c o s) (validLcid c) := by
  unfold execFenceCrumb
  split
  · exact answers_unit (runs_next _)
  · exact answers_issue ..

theorem answers_execSliceTransferDone (c : Lcid) (s : State) : Answers (execSliceTransferDone c s) (validLcid c) := by
  refine answers_unit ?_
  split <;> exact runs_next _

theorem answers_execCoreCompletionReport (c : Lcid) (s : State) : Answers (execCoreCompletionReport c s) (validLcid c) := by
  refine answers_unit (.ite ?_ (runs_next _))
  split
  · exact runs_next _
  · exact .ite (runs_next _) (runs_next _)

theorem answers_execCrumbProgramStart (u : UnitId) (s : State) : Answers (execCrumbProgramStart u s) (validUnit u) := by
  refine answers_unit ?_
  split
  · exact runs_next _
  · exact .ite (runs_next _) (.ite (runs_next _) (runs_next _))

theorem answers_execNetworkTransferDone (c : Lcid) (n : Nat) (s : State) : Answers (execNetworkTransferDone c n s) (validLcid c) := by
  refine answers_unit ?_
  split <;> exact runs_next _

theorem answers_execMcastAbandon (c : Lcid) (n : Nat) (s : State) : Answers (execMcastAbandon c n s) (validLcid c) := by
  refine answers_unit ?_
  split
  · exact runs_next _
  · refine .ite (runs_next _) ?_
    dsimp only
    split <;> exact runs_next _

theorem answers_execWindowComplete (c : Lcid) (xfer : Nat) (s : State) : Answers (execWindowComplete c xfer s) (validLcid c) := by
  refine answers_unit ?_
  split
  · exact runs_next _
  · exact .ite (runs_next _) (.ite (runs_next _) (runs_next _))

/-! ### Commands with branches of their own: ticks and floor plan -/

theorem runs_execSpareShift (patrolFail : Option Nat) (s : State) : Runs (execSpareShift patrolFail s) := by
  unfold execSpareShift
  split
  · exact runs_next _
  · refine .ite (runs_next _) ?_
    cases patrolFail with
    | none => exact runs_next _
    | some col => exact runs_next _

/-! ### Commands with branches of their own: links -/

theorem answers_execTlinkStale (n : Nat) (s : State) : Answers (execTlinkStale n s) (decide (n < 128)) := by
  refine answers_unit ?_
  split
  · exact runs_next _
  · split <;> exact runs_next _

theorem runs_execJournalWrite (s : State) : Runs (execJournalWrite s) := by
  unfold execJournalWrite
  split <;> exact runs_next _

/-! ### Commands with branches of their own: heat and power -/

theorem runs_execPowerStateEntry (s : State) : Runs (execPowerStateEntry s) := by
  unfold execPowerStateEntry
  split <;> exact runs_next _

theorem runs_execSupplyFault (rail : Rail) (s : State) : Runs (execSupplyFault rail s) := by
  refine .ite (runs_next _) ?_
  cases rail with
  | vaon | vio18 | vcore | vser | vserh | vlas | vtransit | vdram | vpp | viod | vpho => exact runs_next _

theorem runs_execReferenceClockLoss (clk : RefClock) (s : State) : Runs (execReferenceClockLoss clk s) := by
  refine .ite (runs_next _) ?_
  cases clk with
  | sysclk | pcie | tlink => exact runs_next _

/-! ### Commands with branches of their own: integrity and security -/

theorem runs_execRewriteReread (word : Nat) (again : Bool) (s : State) : Runs (execRewriteReread word again s) := by
  unfold execRewriteReread
  split <;> exact runs_next _

theorem runs_execQuoteSigned (s : State) : Runs (execQuoteSigned s) := by
  unfold execQuoteSigned
  split
  · exact runs_next _
  · split
    · exact runs_next _
    · exact .ite (runs_next _) (runs_next _)

theorem runs_execDebugLevelLapse (n : Nat) (s : State) : Runs (execDebugLevelLapse n s) := by
  unfold execDebugLevelLapse
  split <;> exact runs_next _

theorem answers_execNonceExpiry (fn : Nat) (s : State) : Answers (execNonceExpiry fn s) (validFn fn) := by
  refine answers_unit ?_
  split <;> exact runs_next _

theorem runs_execFwStagingExpiry (s : State) : Runs (execFwStagingExpiry s) := by
  unfold execFwStagingExpiry
  split <;> exact runs_next _

theorem runs_execFirmwareHandover (ok : Bool) (s : State) : Runs (execFirmwareHandover ok s) := by
  unfold execFirmwareHandover
  split
  · exact .ite (runs_next _) (.ite (runs_next _) (runs_next _))
  · exact runs_next _

theorem runs_execDbgAccess (a : BitVec 32) (w : Option (BitVec 32)) (s : State) : Runs (execDbgAccess a w s) := by
  refine .ite (runs_next _) (.ite (runs_next _) (.ite (runs_next _) ?_))
  cases w with
  | none => exact runs_next _
  | some v => exact runs_next _

/-! ### Commands with branches of their own: bring-up -/

theorem answers_execStageTimeout (scope : Nat) (s : State) : Answers (execStageTimeout scope s) (validScope scope) :=
  answers_unit (.ite (runs_next _) (.ite
    (.ite (runs_next _) (.ite (.ite (runs_next _) (runs_next _)) (.ite (runs_next _) (runs_next _))))
    (.ite (runs_next _) (runs_next _))))

/-! ### Commands with branches of their own: registers and BAR2 -/

theorem runs_execBar2Read (off len : Nat) (s : State) : Runs (execBar2Read off len s) := by
  refine .ite (runs_next _) ?_
  dsimp only
  split <;> exact runs_next _

theorem runs_execBar2Write (off : Nat) (data : List Byte) (poisoned : Bool) (s : State) : Runs (execBar2Write off data poisoned s) := by
  refine .ite (runs_next _) ?_
  dsimp only
  split <;> exact runs_next _

theorem runs_execCounterClear (off : Nat) (v : BitVec 32) (s : State) : Runs (execCounterClear off v s) := by
  unfold execCounterClear
  split
  · split <;> exact runs_next _
  · exact runs_next _

theorem runs_execThermalConfigWrite (off : Nat) (v : BitVec 32) (s : State) : Runs (execThermalConfigWrite off v s) := by
  unfold execThermalConfigWrite
  split <;> exact runs_next _

/-! ### All commands -/

/-- Every command answers a next state where the units it names are valid, and noSuchUnit where they are not. -/
theorem exec_answers (i : Instr) (s : State) : Answers (exec i s) i.wf := by
  unfold exec
  cases i with
  | br _ _ | call _ _ | ret _ _ | loop _ _ | tload _ _ | tstore _ _ | sld _ _ | tin _ _ | rgate _ _ | rsend _ _ | rret _ _ | rexit _ _
  | swalk _ _ | sappend _ _ | cvec _ _ | cissue _ _ | nput _ _ | mcast _ _ | fold _ _ | stsend _ _ => exact answers_issue ..
  | nop _ _ | add _ _ | sub _ _ | mul _ _ | and _ _ | or _ _ | xor _ _ | shl _ _ | shr _ _ | sra _ _ | cmp _ _ | li _ _ | ld _ _
  | st _ _ | rdcsr _ _ | wrcsr _ _ | dset _ _ | dmod _ _ | tcopy _ _ | tzero _ _ | aload _ _ | astore _ _ | azero _ _ | mma _ _
  | aadd _ _ | amov _ _ | ascale _ _ | vadd _ _ | vsub _ _ | vmul _ _ | vfma _ _ | vmax _ _ | vmin _ _ | vscale _ _ | vadds _ _
  | vfunc _ _ | vrsum _ _ | vrmax _ _ | vbadd _ _ | vbmul _ _ | vcmul _ _ | tcount _ _ | rcfg _ _ | rrecv _ _ | rcomb _ _
  | rcompact _ _ | rstat _ _ | scfg _ _ | smerge _ _ | snorm _ _ | slen _ _ | sstat _ _ | cstat _ _ | nwait _ _ | nsync _ _ | nstat _ _
    => exact answers_issueK ..
  | endProgram _ _ | mv _ _ | clra _ _ | retv _ _ | stv _ _ | crumbLoop _ _ => exact answers_crumbRun ..
  | ldi _ _ | addi _ _ | crumbAdd _ _ | crumbSub _ _ | fmt _ _ => exact answers_crumbUnitOp ..
  | flitReadReq _ _ | flitReadData _ _ | flitWrite _ _ | flitPut _ _ | flitMcast _ _ _ | flitFold _ _ | flitRoute _ _ | flitCrumb _ _
  | flitNack _ _ | flitComplete _ _ | flitCredit _ _ | flitCtrl _ _ => exact answers_arrive ..
  | frameDescriptor _ _ | frameData _ _ | frameComplete _ _ | frameCredit _ _ | frameReplayReq _ _ => exact answers_arriveFrame ..
  | tlinkInput _ _ _ | tlinkAck _ _ _ | tlinkHold _ _ _ | tlinkRelease _ _ _ | tlinkMgmt _ _ _ => exact answers_takePacket ..
  | seqOpen _ | seqClose _ | seqHold _ | seqRelease _ | seqIngest _ | seqRead _ | planLoad _ | planUnload _ | planAdmit _
  | planSuspend _ | planResume _ | planRead _ | tickSetPeriod _ | tickSetSource _ | tickRead _ | tickCntClear _ | tickWrapEn _
  | memRead _ | memWrite _ | memFence _ | memConfig _ | memWindowSet _ | kvLayoutSet _ | kvPoolCreate _ | kvPoolDestroy _ | kvFork _
  | kvTruncate _ | kvRetirePages _ | kvMap _ | kvUnmap _ | kvRead _ | kvRetireFrame _ | kvRepage _ | kvRehome _ | kvRestore _
  | kvDigest _ | evdCapture _ | evdSeal _ | evdRead _ | evdLinks _ | evdJournalRead _ | evdAck _ | evdStatus _ | evdReplayBegin _
  | evdReplayTick _ | evdReplayEnd _ | netRead _ | netCntClear _ | linkSetAddr _ | linkRetrain _ | linkRejoin _ | linkGlobalWaves _
  | linkRead _ | thermRead _ | thermTelemetryRead _ | thermCalibrate _ | thermFlowMin _ | thermWarmup _ | pwrState _ | pwrGate _
  | pwrUngate _ | pwrClockHalf _ | pwrStackOff _ | pwrStackOn _ | pwrRead _ | faultLogRead _ | faultMapRead _ | faultRetire _
  | faultScrub _ | faultInject _ | faultDramFuse _ | secSessionOpen _ | secSessionClose _ | secSessionAdopt _ | secSessionRead _
  | secFunctionLimit _ | secMailboxAssign _ | secExpertOpen _ | secExpertClose _ | secNonce _ | secQuote _ | secCertRead _
  | secProvision _ | secCertInstall _ | secDeploy _ | secReturn _ | secSvnCommit _ | dbgRead _ | dbgWrite _ | dbgScan _ | dbgTapOpen _
  | dbgClose _ | fwLoad _ | fwReplace _ | fwActivate _ | fwStatus _ | capRead _ | capEventRead _ | capStatus _ | quotaSliceSet _
  | quotaStreamSet _ | quotaCrumbSet _ | quotaRead _ => exact answers_serveCmd ..
  | samplePreload | extest | extestPulse | extestTrain => exact (runs_tapScan ..).answers
  | internalBoundary _ | tickSourceLost | coolantReportLost | coolingDegraded | coolingDegradedStep | coolingRestored
  | throttleCapRaise | scrubPauseExpiry | scrubPositionSave | faultLogCopy | faultMapWrite | sealSignatureDone | zeroingDone
  | perstNAssert | vcoreRestore | configRequest | periodNsWrite _ | sourceWrite _ | wrapEnWrite _ | globalStepsWrite _ | budgetWrite _
  | globalWavesWrite _ | bar2BaseWrite _ | maxRecoveryNsRead | sidebandWake | i3cDynamicAddress _ | idcode | bypass | tapReset _
  | serialSupplyReturn | referenceClockReturn _ => exact (runs_next _).answers
  | faultReport _ | crumbGrant _ | bundleFrameTimeout _ | ioDieFrameTimeout _ | stackReset _ | tlinkLinkUp _ _ | refreshBandFall _
  | sensorSplitClear _ | refresh _ | dramRetrain _ | quadrantReady _ | p4ColdWaitTimeout _ | p5ColdTimeout _ | functionLevelReset _
  | mailboxGo _ _ | evTailWrite _ _ | rateWrite _ _ _ | tlinkPortDown _ | stackResetRelease _ _ | stackClockRegained _ _
    => exact answers_unit (runs_next _)
  | tickInEdge _ _ _ | stageP1 _ => exact Runs.answers (.ite (.ite (runs_next _) (.ite (runs_next _) (runs_next _))) (runs_next _))
  | flywheelBoundary _ | rackRestart | stageP2 _ => exact Runs.answers (.ite (.ite (runs_next _) (runs_next _)) (runs_next _))
  | attemptAbandon | sensorSample _ | suddenStopClear | perstNRelease _ | stageP0 _ | stageP8 _ | stageP9 | registerWrite _ _ _
    => exact Runs.answers (.ite (runs_next _) (runs_next _))
  | laserLoss | suddenStop _ | hearthWatchdogExpiry | stageP3 _ | sidebandReport _ _
    => exact Runs.answers (.ite (runs_next _) (.ite (runs_next _) (runs_next _)))
  | stageP7 => exact Runs.answers (.ite (.ite (.ite (runs_next _) (runs_next _)) (runs_next _)) (runs_next _))
  | collectionReport _ | frameIdle _ _ | laneSwap _ | stageP5 _ _ => exact answers_unit (.ite (runs_next _) (runs_next _))
  | laneMarginSample _ _ _ | stageP4 _ _ => exact answers_unit (.ite (.ite (runs_next _) (runs_next _)) (runs_next _))
  | patrolScrub _ _ | stageP6 _ => exact answers_unit (.ite (runs_next _) (.ite (runs_next _) (.ite (runs_next _) (runs_next _))))
  | coreCompletionReport _ => exact answers_execCoreCompletionReport ..
  | spareShift _ => exact (runs_execSpareShift ..).answers
  | halt _ _ => exact answers_execHalt ..
  | sliceTransferDone _ => exact answers_execSliceTransferDone ..
  | crumbProgramStart _ => exact answers_execCrumbProgramStart ..
  | fenceCrumb _ _ => exact answers_execFenceCrumb ..
  | mcastAbandon _ _ => exact answers_execMcastAbandon ..
  | networkTransferDone _ _ => exact answers_execNetworkTransferDone ..
  | windowComplete _ _ => exact answers_execWindowComplete ..
  | tlinkStale _ => exact answers_execTlinkStale ..
  | journalWrite => exact (runs_execJournalWrite ..).answers
  | rewriteReread _ _ => exact (runs_execRewriteReread ..).answers
  | quoteSigned => exact (runs_execQuoteSigned ..).answers
  | debugLevelLapse _ => exact (runs_execDebugLevelLapse ..).answers
  | nonceExpiry _ => exact answers_execNonceExpiry ..
  | fwStagingExpiry => exact (runs_execFwStagingExpiry ..).answers
  | firmwareHandover _ => exact (runs_execFirmwareHandover ..).answers
  | powerStateEntry => exact (runs_execPowerStateEntry ..).answers
  | stageTimeout _ => exact answers_execStageTimeout ..
  | supplyFault _ => exact (runs_execSupplyFault ..).answers
  | referenceClockLoss _ => exact (runs_execReferenceClockLoss ..).answers
  | bar2Read _ _ => exact (runs_execBar2Read ..).answers
  | bar2Write _ _ _ => exact (runs_execBar2Write ..).answers
  | counterClear _ _ => exact (runs_execCounterClear ..).answers
  | thermalConfigWrite _ _ => exact (runs_execThermalConfigWrite ..).answers
  | dbgAccess _ _ => exact (runs_execDbgAccess ..).answers

end Sys2Proof.Machine

/-! ## SUPPORT: the physical column that serves a logical column (R19, R20) -/

namespace Sys2Proof.Machine

open Sys2Proof

/-- In a rising list, an element stands at the place that counts the smaller ones. -/
theorem getElem?_length_filter_lt {l : List Nat} (h : l.Pairwise (· < ·)) {a : Nat} (ha : a ∈ l) :
    l[(l.filter fun p => decide (p < a)).length]? = some a := by
  induction l with
  | nil => simp at ha
  | cons x xs ih =>
    obtain ⟨hx, hxs⟩ := List.pairwise_cons.1 h
    obtain rfl | ha := List.mem_cons.1 ha
    · have hnone : (a :: xs).filter (fun p => decide (p < a)) = [] := by
        rw [List.filter_eq_nil_iff]
        intro p hp
        obtain rfl | hp := List.mem_cons.1 hp
        · simp
        · simpa using (hx p hp).le
      simp [hnone]
    · simpa [hx a ha] using ih hxs ha

namespace FpRow

theorem notHoles_rising (r : FpRow) (k : Nat) : (r.notHoles k).Pairwise (· < ·) := List.pairwise_lt_range.filter _

theorem mem_notHoles {r : FpRow} {k p : Nat} : p ∈ r.notHoles k ↔ p < 16 ∧ k ≤ p ∧ r.site p ≠ 1 := by
  simp [notHoles]

/-- The columns that serve: a logical column is served by its own site, left of the shift or without one, and from the shift on by the
next site that is not a hole; never by a field-failed site (R19, R20). -/
theorem physCol_some {r : FpRow} {lc p : Nat} (hlc : lc < 16) (h : r.physCol lc = some p) :
    r.site lc ≠ 1 ∧ r.site p ≠ 2
      ∧ (p = lc ∧ (r.shifted = true → lc < r.col.toNat)
        ∨ r.shifted = true ∧ ∃ n, (r.notHoles r.col.toNat)[n]? = some lc ∧ (r.notHoles r.col.toNat)[n + 1]? = some p) := by
  unfold physCol at h
  split at h
  · cases h
  · rename_i hhole
    have hhole : r.site lc ≠ 1 := by simpa using hhole
    refine ⟨hhole, ?_⟩
    split at h
    · rename_i hown
      split at h
      · cases h
      · rename_i hfailed
        cases h
        exact ⟨by simpa using hfailed, .inl ⟨rfl, fun hs => by simpa [hs] using hown⟩⟩
    · rename_i hmoved
      obtain ⟨hs, hcol⟩ : r.shifted = true ∧ r.col.toNat ≤ lc := by simpa using hmoved
      dsimp only at h
      split at h
      · cases h
      · rename_i q hq
        split at h
        · cases h
        · rename_i hfailed
          cases h
          have hmem : lc ∈ r.notHoles r.col.toNat := mem_notHoles.2 ⟨hlc, hcol, hhole⟩
          exact ⟨by simpa using hfailed, .inr ⟨hs, _, getElem?_length_filter_lt (r.notHoles_rising _) hmem, hq⟩⟩

/-- A serving site is one of the row's sixteen, and neither a hole nor field-failed. -/
theorem physCol_site {r : FpRow} {lc p : Nat} (hlc : lc < 16) (h : r.physCol lc = some p) : p < 16 ∧ r.site p ≠ 1 ∧ r.site p ≠ 2 := by
  obtain ⟨hhole, hfailed, ⟨rfl, -⟩ | ⟨-, n, -, hp⟩⟩ := physCol_some hlc h
  · exact ⟨hlc, hhole, hfailed⟩
  · obtain ⟨hlt, -, hp1⟩ := mem_notHoles.1 (List.mem_of_getElem? hp)
    exact ⟨hlt, hp1, hfailed⟩

/-- A site left of the shift, which serves its own column, is not among the sites that take part in it. -/
theorem notHoles_ne_of_lt_col {r : FpRow} {n p : Nat} (hp : p < r.col.toNat) : (r.notHoles r.col.toNat)[n]? ≠ some p := by
  intro hn
  obtain ⟨-, hcol, -⟩ := mem_notHoles.1 (List.mem_of_getElem? hn)
  omega

/-- On any row, two logical columns served by one site are one column. -/
theorem physCol_injective {r : FpRow} {i j p : Nat} (hi : i < 16) (hj : j < 16) (h : r.physCol i = some p)
    (h' : r.physCol j = some p) : i = j := by
  obtain ⟨-, -, ⟨rfl, hown⟩ | ⟨hs, n, hni, hnp⟩⟩ := physCol_some hi h <;>
    obtain ⟨-, -, ⟨rfl, hown'⟩ | ⟨hs', m, hmj, hmp⟩⟩ := physCol_some hj h'
  case inl.inl => rfl
  case inl.inr => exact absurd hmp (notHoles_ne_of_lt_col (hown hs'))
  case inr.inl => exact absurd hnp (notHoles_ne_of_lt_col (hown' hs))
  case inr.inr =>
    obtain ⟨hlt, -⟩ := List.getElem?_eq_some_iff.1 hnp
    have hnm : n + 1 = m + 1 := (List.getElem?_inj hlt (r.notHoles_rising _).nodup).1 (hnp.trans hmp.symm)
    rw [Nat.succ_injective hnm, hmj] at hni
    exact (Option.some.inj hni).symm

end FpRow

end Sys2Proof.Machine

namespace Sys2Proof.Claims

open Sys2Proof Sys2Proof.Machine

/-! ## The obligations of chapter 01 -/

/-- Settles O6: the check of its units stands before every meaning, and each meaning ends every branch in a next state. -/
theorem wellFormedCommandsRun : Obligations.WellFormedCommandsRun := by
  unfold Obligations.WellFormedCommandsRun
  exact exec_answers

/-- Settles O33: the column that serves is unique on every row, and so on the one that the failures leave. -/
theorem servingIsInjective : Obligations.ServingIsInjective := by
  unfold Obligations.ServingIsInjective
  intro r ks _ _ t
  exact ⟨fun i j p hi hj => FpRow.physCol_injective (by omega) (by omega), fun i p hi => FpRow.physCol_site (by omega)⟩

end Sys2Proof.Claims
end

section
/-! ## SUPPORT and obligations of chapter 02: tick execution -/

namespace Sys2Proof.Machine

open Sys2Proof

/-! ## SUPPORT: the time base -/

/-- Fewer than sixteen flywheel boundaries are no loss of the source. -/
theorem lossDue_of_lt {s : State} (h : s.seqr.flywheelRun < 16) : s.lossDue = false := decide_eq_false (by omega)

/-- An edge of TICK_IN that counts: ticks run, an outside source drives them or is awaited, none is lost, and the level held. -/
theorem execTickInEdge_open {dt high : Nat} {e : BoundaryEnv} {s : State} (ht : s.ticking = true)
    (hx : s.seqr.external = true ∨ s.seqr.awaitEdge = true) (hl : s.seqr.flywheelRun < 16) (hh : 16 ≤ high) :
    execTickInEdge dt high e s
      = if 50 * dt < 49 * s.seqr.placed then .next (devInc .earlyEdge 1 s)
        else if 50 * dt ≤ (if s.seqr.awaitEdge then 101 * s.seqr.placed else 51 * s.seqr.placed) then
          .next (takeBoundary dt false e { s with seqr := { s.seqr with flywheelRun := 0 } })
        else skip s :=
  if_pos (by simp [ht, hx, lossDue_of_lt hl, hh])

/-- The flywheel's boundary where ticks run, an outside source drives them or is awaited, and none is lost. -/
theorem execFlywheelBoundary_open (e : BoundaryEnv) {s : State} (ht : s.ticking = true)
    (hx : s.seqr.external = true ∨ s.seqr.awaitEdge = true) (hl : s.seqr.flywheelRun < 16) :
    execFlywheelBoundary e s
      = if s.seqr.awaitEdge then
          .next (takeBoundary (101 * s.seqr.placed / 50) true e { devInc .missedEdge 1 s with
            seqr := { (devInc .missedEdge 1 s).seqr with sourcePend := none, awaitEdge := false, flywheelRun := 16 } })
        else
          let t := if s.seqr.flywheelRun = 0 then post (event .tickEdgeMissed none []) (devInc .missedEdge 1 s) else devInc .missedEdge 1 s
          .next (takeBoundary (51 * s.seqr.placed / 50) true e { t with seqr := { t.seqr with flywheelRun := s.seqr.flywheelRun + 1 } }) :=
  if_pos (by simp [ht, hx, lossDue_of_lt hl])

end Sys2Proof.Machine

namespace Sys2Proof.Claims

open Sys2Proof Sys2Proof.Machine

/-! ## SUPPORT: instructions that complete -/

/-- An issued instruction whose operation gives an answer completes with it. -/
theorem issue_of_issued {c : Lcid} {op : BitVec 8} {h : Shape} {o : Op} {s t : State} {k : CoreCtx}
    {body : CoreCtx → Tr (CoreCtx × State)} (hi : issued c op h o s = true) (hb : body (found c o s) = .ok (k, t)) :
    issue c op h o s body = .next (endInstr c k t) := by
  simp only [issued, Bool.and_eq_true, Bool.not_eq_eq_eq_not, Bool.not_true, decide_eq_true_eq] at hi
  obtain ⟨⟨⟨⟨hv, hs⟩, hf⟩, hp⟩, hc⟩ := hi
  refine issue_ok hv hs ?_ hp hc hb
  revert hf
  cases checkFields h o with
  | ok x => exact fun _ => ⟨x, rfl⟩
  | error e => exact nofun

/-- The same of an operation on the core alone, which then stands at the next instruction. -/
theorem issueK_of_issued {c : Lcid} {op : BitVec 8} {h : Shape} {o : Op} {s : State} {k : CoreCtx} {body : CoreCtx → Tr CoreCtx}
    (hi : issued c op h o s = true) (hb : body (found c o s) = .ok k) :
    issueK c op h o s body = .next (endInstr c k.step s) :=
  issue_of_issued hi (by rw [hb]; rfl)

/-- An address in a register that is not poisoned. -/
theorem addr_ok {k : CoreCtx} {r : BitVec 5} (h : k.sbad r = false) : k.addr r = .ok (k.sreg r) := by
  rw [CoreCtx.addr, h]
  rfl

/-- TIN of an ordinal that no consumed record has. -/
theorem bodyTin_above {o : Op} {s : State} {k : CoreCtx} (ha : k.sbad o.a = false) (hb : k.sbad o.b = false)
    (hm : (k.sreg o.a).toNat % 64 = 0) (hn : (s.inputsOf k.slot).length ≤ (k.sreg o.b).toNat % 2 ^ 32) :
    bodyTin o s k = .ok ((k.sset o.dst (BitVec.allOnes 64) false).step, s) := by
  have hnone : (s.inputsOf k.slot)[(k.sreg o.b).toNat % 2 ^ 32]? = none := List.getElem?_eq_none hn
  have hneed : need (decide ((k.sreg o.a).toNat % 64 = 0)) 5 = .ok () := by rw [decide_eq_true hm]; rfl
  rw [bodyTin, addr_ok ha, addr_ok hb]
  simp only [bind, Except.bind, hneed]
  rw [hnone]
  rfl

/-! ## SUPPORT: HALT and its evidence -/

/-- HALT of a core without an evidence section leaves no record. -/
theorem bodyHalt_noSection {c : Lcid} {s : State} {k : CoreCtx} (hn : k.netFault = false) (he : s.evdOf c = none) :
    bodyHalt c s k = .ok ({ k with run := .halting }, { s with work := { s.work with records := s.work.records ++ [] } }) := by
  rw [bodyHalt, capture, he, hn]
  rfl

/-- HALT of a core with an evidence section leaves the records of its window, where its plan captures them. -/
theorem bodyHalt_section {c : Lcid} {s : State} {k : CoreCtx} {e : EvdSec} {l : List ARec} {p : Plan} (hn : k.netFault = false)
    (he : s.evdOf c = some e) (hl : captureAll c k s.tickCsr e = .ok l) (hp : s.planAt k.slot = some p) :
    bodyHalt c s k
      = .ok ({ k with run := .halting }, { s with work := { s.work with records := s.work.records ++ (if p.capture then l else []) } }) := by
  rw [bodyHalt, capture, he]
  simp only [hl, hp, hn]
  rfl

/-- HALT of a core that broke no crumb rule is issued as an instruction of its own. -/
theorem execHalt_noFault {c : Lcid} {o : Op} {s : State} (h : (s.core c).crumbFault = none) :
    execHalt c o s = issue c 0x14 ⟨.no, .no, .no, 0, 0, false⟩ o s (bodyHalt c s) := by
  rw [execHalt, h]

/-! ## SUPPORT: the reports of a tick -/

/-- A stack that may report is counted, and completes the tick where none is left. -/
theorem execCollectionReport_open {n : Nat} {s : State} (hv : validStack n = true) (hp : s.seqr.phase = .executing)
    (hb : s.seqr.boundaries < 4) (ho : n ∈ s.online) (hr : n ∉ s.work.reported) (hd : s.stackDone n = true) :
    execCollectionReport n s
      = .next (if (State.toReport { s with work := { s.work with reported := n :: s.work.reported } }).isEmpty then
          completeTick { s with work := { s.work with reported := n :: s.work.reported } }
        else { s with work := { s.work with reported := n :: s.work.reported } }) := by
  rw [execCollectionReport, hv, unit_true, if_pos (by simp [hp, hb, ho, hr, hd])]

/-- With one stack's report, none is left just where each other online one has reported. -/
theorem toReport_reported_isEmpty {n : Nat} {s : State} :
    (State.toReport { s with work := { s.work with reported := n :: s.work.reported } }).isEmpty = true
      ↔ ∀ m ∈ s.online, m = n ∨ m ∈ s.work.reported := by
  simp only [State.toReport, List.isEmpty_iff, List.filter_eq_nil_iff, Bool.not_eq_true', Bool.not_eq_false, List.contains_iff_mem,
    List.mem_cons]
  rfl

end Sys2Proof.Claims

namespace Sys2Proof.Machine

open Sys2Proof

/-! ## SUPPORT: attempts that fail -/

/-- Suspending a plan adds at most its entry to the plans to be suspended. -/
theorem suspendPlan_adds (slot cause : Nat) (s : State) :
    ∃ l, suspendPlan slot cause s = { s with seqr := { s.seqr with suspend := l } } ∧ s.seqr.suspend ⊆ l ∧ ∃ q ∈ l, q.1 = slot := by
  unfold suspendPlan
  split
  case isTrue h =>
    obtain ⟨q, hq, hs⟩ := List.any_eq_true.1 h
    exact ⟨_, rfl, List.Subset.refl _, q, hq, beq_iff_eq.1 hs⟩
  case isFalse => exact ⟨_, rfl, List.subset_append_left .., (slot, cause), by simp, rfl⟩

/-- Plans left out and suspended one after another: each has its entry, and nothing but those two lists changes. -/
theorem suspendPlans_adds (cause : Nat) (slots : List Nat) (s : State) :
    ∃ l, slots.foldl (fun u i => suspendPlan i cause (leaveOut i u)) s
        = { s with seqr := { s.seqr with suspend := l, leftOut := s.seqr.leftOut ++ slots } }
      ∧ s.seqr.suspend ⊆ l ∧ ∀ i ∈ slots, ∃ q ∈ l, q.1 = i := by
  induction slots generalizing s with
  | nil => exact ⟨_, by rw [List.append_nil]; rfl, List.Subset.refl _, nofun⟩
  | cons i slots ih =>
    obtain ⟨l, hl, hsub, hi⟩ := suspendPlan_adds i cause (leaveOut i s)
    obtain ⟨l', hl', hsub', hslots⟩ := ih (suspendPlan i cause (leaveOut i s))
    rw [hl] at hl' hsub'
    refine ⟨l', ?_, List.Subset.trans hsub hsub', List.forall_mem_cons.2 ⟨?_, hslots⟩⟩
    · rw [List.foldl_cons, hl, hl']
      simp [leaveOut]
    · obtain ⟨q, hq, he⟩ := hi
      exact ⟨q, hsub' hq, he⟩

/-- The state in which the tick runs again, before an eighth failure suspends its plans. -/
def rerunState (s : State) : State :=
  devInc .rerun 1 { discard s with
    seqr := { s.seqr with phase := .rerun, attempt := s.seqr.attempt + 1, boundaries := 0, prevFault := s.seqr.curFault,
                          curFault := none, prevProg := s.seqr.curProg, curProg := none } }

/-- A failed attempt is followed by another; the eighth also suspends the admitted plans and drains. -/
theorem failAttempt_eq (s : State) :
    failAttempt s = if s.seqr.attempt = 8 then
        raiseDrain 8 0 ((s.admitted.map Prod.fst).foldl (fun u i => suspendPlan i 6 (leaveOut i u)) (rerunState s))
      else rerunState s := rfl

/-- What a failed attempt leaves, whichever it is: the rerun's state, but for the plans left out and suspended and the drain. -/
theorem failAttempt_leaves (s : State) :
    ∃ l m d, failAttempt s = { rerunState s with seqr := { (rerunState s).seqr with suspend := l, leftOut := m }, drainPend := d }
      ∧ (s.seqr.attempt = 8 → (∀ p ∈ s.admitted, p.1 ∈ m ∧ ∃ q ∈ l, q.1 = p.1) ∧ (8, 0, true) ∈ d) := by
  rw [failAttempt_eq]
  split
  case isTrue =>
    obtain ⟨l, hl, -, hi⟩ := suspendPlans_adds 6 (s.admitted.map Prod.fst) (rerunState s)
    refine ⟨l, _, _, by rw [hl]; rfl, fun _ => ⟨fun p hp => ?_, List.mem_append_right _ (.head _)⟩⟩
    exact ⟨List.mem_append_right _ (List.mem_map_of_mem hp), hi _ (List.mem_map_of_mem hp)⟩
  case isFalse h => exact ⟨_, _, _, rfl, fun h8 => absurd h8 h⟩

/-- After a failed attempt the tick runs again, one attempt on. -/
theorem failAttempt_seqr (s : State) :
    (failAttempt s).seqr.phase = .rerun ∧ (failAttempt s).seqr.attempt = s.seqr.attempt + 1
      ∧ (failAttempt s).seqr.abandoned = s.seqr.abandoned := by
  obtain ⟨l, m, d, h, -⟩ := failAttempt_leaves s
  rw [h]
  exact ⟨rfl, rfl, rfl⟩

end Sys2Proof.Machine

namespace Sys2Proof.Claims

open Sys2Proof Sys2Proof.Machine

/-! ## SUPPORT: packets and the journal -/

/-- A packet for this device, with its tag in range, is acted on by its kind. -/
theorem takePacket_here {kind port : Nat} {p : Packet} {stale k : State → State} {s : State} (h : packetHere port p s = true) :
    takePacket kind port p 0 stale k s = .next (k (portIn port s)) := by
  simp only [packetHere, Bool.and_eq_true, decide_eq_true_eq] at h
  obtain ⟨⟨⟨⟨hv, ho⟩, hd⟩, ht⟩, hr⟩ := h
  refine (arrivePacket_ok hv ho rfl hr).trans ?_
  rw [if_neg (not_not_intro hd), if_neg (by simpa [Option.isSome_iff_ne_none] using ht), portIn]

/-- An input out of its source's order is passed over. -/
theorem takeInput_outOfOrder {port : Nat} {p : Packet} {s : State} (h : s.nextFrom p = false) : takeInput port p s = s := by
  rw [takeInput, h]
  rfl

/-- An input in order whose plan is loaded and whose sequence is one of that plan's, outside a replay. -/
theorem takeInput_inOrder {port : Nat} {p : Packet} {s : State} {x : Plan} {q : SeqRec} (h : s.nextFrom p = true)
    (hx : s.planAt p.plan.toNat = some x) (hq : s.seqAt (p.seq.toNat % 2 ^ 17) = some q) (hp : q.plan = p.plan.toNat)
    (hr : s.replay = none) :
    takeInput port p s
      = if s.stackGone q.home then holdSource port p s
        else if x.st ≠ .admitted then replyTo 1 port p .denied { s with accepted := Tab.set s.accepted (sourceKey p) p.srcIndex }
        else if x.backpressured ∨ s.ringFree q.home < recBytes p.payload.length then holdSource port p s
        else { s with
          jpend := s.jpend ++ [{ record := { index := 0, seqSlot := p.seq.toNat % 2 ^ 17, arrival := 0, plan := p.plan.toNat,
                                             source := port + 1, payload := p.payload, home := q.home, bad := false, consumedBy := none },
                                 answer := none, reply := some (port, p) }]
          accepted := Tab.set s.accepted (sourceKey p) p.srcIndex } := by
  have hopen : ¬(!s.nextFrom p) = true := by simp [h]
  have hown : ¬(q.plan ≠ p.plan.toNat ∨ s.replay.isSome = true) := by simp [hp, hr]
  refine (if_neg hopen).trans ?_
  dsimp only
  rw [hx, hq]
  exact if_neg hown

/-- The oldest journal write takes the next INDEX; what it answers afterwards leaves the journal as it is. -/
theorem journalRecord_frame {j : JPend} {s : State} (h : j.answer = none) :
    (journalRecord j s).journal = s.journal ++ [{ j.record with index := s.nextJournal, arrival := s.seqr.count }]
      ∧ (journalRecord j s).nextJournal = s.nextJournal + 1 ∧ (journalRecord j s).jpend = s.jpend := by
  simp only [journalRecord, h]
  cases j.reply <;> exact ⟨rfl, rfl, rfl⟩

/-! ## The obligations of chapter 02 -/

/-- Settles O28: each command's guard holds under its hypotheses, and its branch is then the one stated. -/
theorem tickBoundaries : Obligations.TickBoundaries := by
  unfold Obligations.TickBoundaries
  refine ⟨fun e s ht hx ha hl => ?_, fun dt high e s ht hx hl hh => ⟨fun hd => ?_, fun hd hd' => ?_⟩, fun e s ht hx ha hl => ?_,
    fun e s ht ha hl => ?_, fun s hl => ?_⟩
  case refine_1 =>
    have guard : (s.ticking && !s.seqr.external && !s.seqr.awaitEdge && !s.lossDue) = true := by simp [ht, hx, ha, lossDue_of_lt hl]
    exact (congrArg (when · s (takeBoundary s.seqr.placed false e s)) guard).trans (when_true ..)
  case refine_2 => exact (execTickInEdge_open ht hx hl hh).trans (if_pos hd)
  case refine_3 => exact (execTickInEdge_open ht hx hl hh).trans ((if_neg (by omega)).trans (if_pos hd'))
  case refine_4 =>
    refine (execFlywheelBoundary_open e ht (.inl hx) hl).trans ?_
    rw [if_neg (by simp [ha])]
  case refine_5 =>
    refine (execFlywheelBoundary_open e ht (.inr ha) hl).trans ?_
    rw [if_pos ha]
  case refine_6 =>
    change when s.lossDue s _ = _
    rw [show s.lossDue = true from decide_eq_true hl]
    rfl

/-- Settles O59: each command is served as its table says, with the effect named. -/
theorem objectCommandsAccepted : Obligations.ObjectCommandsAccepted := by
  unfold Obligations.ObjectCommandsAccepted
  refine ⟨stages_of_does ?_, stages_of_does ?_, stages_of_does ?_, stages_of_does ?_, ?_, stages_of_does ?_, stages_of_does ?_,
    ?_, ?_, ?_, stages_of_does ?_, stages_of_does ?_, stages_of_does ?_, ?_, ?_, ?_, ?_, ?_, stages_of_does ?_, stages_of_does ?_,
    stages_of_does ?_, stages_of_does ?_, ?_, ?_, stages_of_does ?_, ?_⟩ <;>
    exact does_of_serveCmd (fun _ _ => rfl) (fun _ _ => rfl)

/-- Settles O2: the fields of the reset state, read off. -/
theorem resetLeaves : Obligations.ResetLeaves := by
  unfold Obligations.ResetLeaves
  refine ⟨rfl, rfl, rfl, rfl, rfl, rfl, rfl, rfl, rfl, rfl, rfl, rfl, rfl, rfl, rfl, rfl, rfl, rfl, rfl, rfl, rfl, rfl, rfl, rfl, rfl,
    rfl, rfl, rfl, fun n => ⟨rfl, rfl, rfl⟩, fun c => rfl, rfl, rfl, rfl⟩

/-- Settles O18: an issued instruction completes with what its operation gives, and TIN above INPUT_COUNT gives all ones. -/
theorem sliceTransfersComplete : Obligations.SliceTransfersComplete := by
  unfold Obligations.SliceTransfersComplete
  refine ⟨⟨fun c o s k t hi hb => issue_of_issued hi hb, fun c o s k t hi hb => issue_of_issued hi hb,
    fun c o s k t hi hb => issue_of_issued hi hb, fun c o s hi => issueK_of_issued hi rfl,
    fun c o s k t hi hb => issue_of_issued hi hb, fun c s x l hv hx hp ht ha => ?_⟩,
    fun c o s hi ha hb hm hn => issue_of_issued hi (bodyTin_above ha hb hm hn)⟩
  change execSliceTransferDone c s = _
  simp [execSliceTransferDone, hv, hx, hp, ht, ha, when_true]

/-- Settles O30: the reports follow their guards, and HALT leaves the records of its window. -/
theorem completionReports : Obligations.CompletionReports := by
  unfold Obligations.CompletionReports
  refine ⟨⟨fun c s hv hp hr hd hf hn => ?_, fun n s hv hp hb ho hr hd => ?_, fun c o s hi hf hn he => ?_⟩,
    fun c o s e l p hi hf hn he hl hp => ?_⟩
  case refine_1 =>
    change execCoreCompletionReport c s = _
    simp [execCoreCompletionReport, hv, hp, hr, hd, hf, hn]
  case refine_2 =>
    refine ⟨_, execCollectionReport_open hv hp hb ho hr hd, ?_⟩
    split
    case isTrue h => exact ⟨rfl, iff_of_true rfl (toReport_reported_isEmpty.1 h)⟩
    case isFalse h => exact ⟨rfl, iff_of_false (ne_of_eq_of_ne hp nofun) (mt toReport_reported_isEmpty.2 h)⟩
  case refine_3 =>
    refine (execHalt_noFault hf).trans ((issue_of_issued hi (bodyHalt_noSection hn he)).trans ?_)
    rw [List.append_nil]
  case refine_4 => exact (execHalt_noFault hf).trans (issue_of_issued hi (bodyHalt_section hn he hl hp))

/-- Settles O32: a rerun's state, and the fold over the admitted plans at the eighth failure. -/
theorem failedAttempt : Obligations.FailedAttempt := by
  unfold Obligations.FailedAttempt
  intro s
  obtain ⟨l, m, d, h, h8⟩ := failAttempt_leaves s
  rw [h]
  exact ⟨rfl, rfl, rfl, rfl, rfl, rfl, rfl, rfl, h8⟩

/-- Settles O31: an abandoned attempt fails, whatever plans its second abandonment in a row suspends. -/
theorem faultsAndShifts : Obligations.FaultsAndShifts := by
  unfold Obligations.FaultsAndShifts
  refine ⟨fun s hp hb => ⟨_, if_pos ⟨hp, hb⟩, ?_⟩, fun f s hf => ?_, fun s j hj hp hc => ⟨?_, fun col => ?_⟩⟩
  case refine_1 =>
    obtain ⟨l, hl, -⟩ := suspendPlans_adds 5 s.unreported s
    have hfails : ∀ t : State, t.seqr.attempt = s.seqr.attempt →
        (failAttempt { t with seqr := { t.seqr with abandoned := s.seqr.attempt } }).seqr.phase = .rerun
          ∧ (failAttempt { t with seqr := { t.seqr with abandoned := s.seqr.attempt } }).seqr.attempt = s.seqr.attempt + 1
          ∧ (failAttempt { t with seqr := { t.seqr with abandoned := s.seqr.attempt } }).seqr.abandoned = s.seqr.attempt :=
      fun t ht => ht ▸ failAttempt_seqr { t with seqr := { t.seqr with abandoned := t.seqr.attempt } }
    refine hfails _ ?_
    split
    case isTrue => rw [hl]
    case isFalse => rfl
  case refine_2 => exact (congrArg (unit · _) hf).trans (unit_true _)
  case refine_3 =>
    change execSpareShift none s = _
    simp [execSpareShift, hj, hp, hc]
  case refine_4 =>
    change execSpareShift (some col) s = _
    simp [execSpareShift, hj, hp, hc]

/-- Settles O37: a packet that is here reaches its kind's rule, and the rule of inputs by the source's order. -/
theorem tlinkPackets : Obligations.TlinkPackets := by
  unfold Obligations.TlinkPackets
  refine ⟨⟨fun _ _ _ h => takePacket_here h, fun _ _ _ h => takePacket_here h, fun _ _ _ h => takePacket_here h,
      fun _ _ _ h => takePacket_here h, fun port p s h => ?_⟩,
    fun _ _ _ h => takeInput_outOfOrder h, fun port p s x q h hx hq hp hr hg => ?_, fun port p s x q h hx hq ha hp hr hb hg hf => ?_⟩
  case refine_1 =>
    change execTlinkMgmt port p 0 s = _
    rw [execTlinkMgmt, takePacket_here h]
    rfl
  case refine_2 => rw [takeInput_inOrder h hx hq hp hr, if_pos hg]
  case refine_3 =>
    have hroom : ¬(x.backpressured = true ∨ s.ringFree q.home < recBytes p.payload.length) := by simp [hb, hf]
    rw [takeInput_inOrder h hx hq hp hr, if_neg (by simp [hg]), if_neg (not_not_intro ha), if_neg hroom]
    exact ⟨rfl, _, rfl, rfl, rfl, rfl, rfl⟩

/-- Settles O38: ports and stale entries by their guards, the journal by what its answers leave. -/
theorem tlinkPortsAndJournal : Obligations.TlinkPortsAndJournal := by
  unfold Obligations.TlinkPortsAndJournal
  refine ⟨⟨fun n peer s hv hu hg hs ht hb => ?_, fun n s hv hu => ?_, fun n s r x hn hr hx => ?_⟩, fun s j rest hj hg ha => ?_⟩
  case refine_1 =>
    change execTlinkLinkUp n peer s = _
    rw [execTlinkLinkUp, hv, unit_true]
    exact (congrArg (when · s _) (by simp [hu, hg, hs, ht, hb])).trans (when_true ..)
  case refine_2 =>
    change execTlinkPortDown n s = _
    rw [execTlinkPortDown, hv, unit_true, portDown, if_pos hu]
    rfl
  case refine_3 =>
    change execTlinkStale n s = _
    simp [execTlinkStale, hn, hr, hx]
  case refine_4 =>
    refine ⟨journalRecord j { s with jpend := rest }, ?_, journalRecord_frame ha⟩
    change execJournalWrite s = _
    rw [execJournalWrite, hj]
    exact congrArg _ (if_neg (ne_true_of_eq_false hg))

end Sys2Proof.Claims
end

section
/-! ## SUPPORT: what the machine's operations leave of device memory and of the clock (chapter 02 of the spec)

Few operations write device memory, and one, the boundary, moves the clock. So the facts come in two layers. `Keeps` says of an
operation that it leaves memory and the clock as they are: one lemma per operation, in the order of the model's files, each a rewrite
rule for `simp`, so that a later operation's lemma is its definition read through the earlier ones. `Steady` says of the few that write
memory that they keep its canonical form, and the clock. The meanings of the commands are then put together from both. -/

namespace Sys2Proof.Machine

open Sys2Proof

/-! ### The two relations -/

/-- The tick counter, the pulses of TICK_OUT and the time are as they were. -/
@[reducible, simp] def SameClock (s t : State) : Prop :=
  t.seqr.count = s.seqr.count ∧ t.seqr.tickOut = s.seqr.tickOut ∧ t.seqr.time = s.seqr.time

/-- Device memory and the clock are as they were. -/
@[reducible, simp] def Keeps (s t : State) : Prop := t.dram = s.dram ∧ SameClock s t

/-- Device memory is in its canonical form if it was, and the clock is as it was. -/
@[reducible, simp] def Steady (s t : State) : Prop := (Mem.wf s.dram = true → Mem.wf t.dram = true) ∧ SameClock s t

theorem SameClock.refl (s : State) : SameClock s s := ⟨rfl, rfl, rfl⟩

theorem SameClock.trans {s t u : State} (h : SameClock s t) (k : SameClock t u) : SameClock s u := by
  obtain ⟨hcount, hpulse, htime⟩ := h
  obtain ⟨kcount, kpulse, ktime⟩ := k
  exact ⟨kcount.trans hcount, kpulse.trans hpulse, ktime.trans htime⟩

theorem Keeps.refl (s : State) : Keeps s s := ⟨rfl, .refl s⟩

theorem Keeps.trans {s t u : State} (h : Keeps s t) (k : Keeps t u) : Keeps s u := ⟨k.1.trans h.1, h.2.trans k.2⟩

theorem Keeps.steady {s t : State} (h : Keeps s t) : Steady s t := ⟨fun hw => h.1 ▸ hw, h.2⟩

theorem Steady.refl (s : State) : Steady s s := (Keeps.refl s).steady

theorem Steady.trans {s t u : State} (h : Steady s t) (k : Steady t u) : Steady s u := ⟨k.1 ∘ h.1, h.2.trans k.2⟩

theorem keeps_ite {p : Prop} [Decidable p] {s t u : State} (h : Keeps s t) (k : Keeps s u) : Keeps s (if p then t else u) := by
  split
  · exact h
  · exact k

theorem steady_ite {p : Prop} [Decidable p] {s t u : State} (h : Steady s t) (k : Steady s u) : Steady s (if p then t else u) := by
  split
  · exact h
  · exact k

/-- A fold keeps memory and the clock where each of its steps does, whatever its accumulator holds beside the state. -/
theorem keeps_foldlBy {σ α : Type} (g : σ → State) {f : σ → α → σ} (h : ∀ a x, Keeps (g a) (g (f a x))) (a : σ) (l : List α) :
    Keeps (g a) (g (l.foldl f a)) := by
  induction l generalizing a with
  | nil => exact .refl _
  | cons x l ih => exact (h a x).trans (ih _)

@[simp] theorem keeps_foldl {α : Type} {f : State → α → State} (h : ∀ t x, Keeps t (f t x)) (s : State) (l : List α) :
    Keeps s (l.foldl f s) := keeps_foldlBy id h s l

@[simp] theorem keeps_foldl_fst {α β : Type} {f : State × β → α → State × β} (h : ∀ a x, Keeps a.1 (f a x).1) (a : State × β)
    (l : List α) : Keeps a.1 (l.foldl f a).1 := keeps_foldlBy Prod.fst h a l

theorem steady_foldlBy {σ α : Type} (g : σ → State) {f : σ → α → σ} (h : ∀ a x, Steady (g a) (g (f a x))) (a : σ) (l : List α) :
    Steady (g a) (g (l.foldl f a)) := by
  induction l generalizing a with
  | nil => exact .refl _
  | cons x l ih => exact (h a x).trans (ih _)

theorem steady_foldl {α : Type} {f : State → α → State} (h : ∀ t x, Steady t (f t x)) (s : State) (l : List α) :
    Steady s (l.foldl f s) := steady_foldlBy id h s l

section ite

variable (p : Prop) [Decidable p]

@[simp] theorem State.dram_ite (s t : State) : (if p then s else t).dram = if p then s.dram else t.dram := apply_ite ..

@[simp] theorem State.seqr_ite (s t : State) : (if p then s else t).seqr = if p then s.seqr else t.seqr := apply_ite ..

@[simp] theorem Seqr.count_ite (q r : Seqr) : (if p then q else r).count = if p then q.count else r.count := apply_ite ..

@[simp] theorem Seqr.tickOut_ite (q r : Seqr) : (if p then q else r).tickOut = if p then q.tickOut else r.tickOut := apply_ite ..

@[simp] theorem Seqr.time_ite (q r : Seqr) : (if p then q else r).time = if p then q.time else r.time := apply_ite ..

end ite

/-! ### Operations that leave memory and the clock -/

/-! #### Counters, events and marks -/

@[simp] theorem keeps_inc (c : Ctr) (n : Nat) (s : State) : Keeps s (inc c n s) := by simp [inc]

@[simp] theorem keeps_devInc (c : Ctr) (n : Nat) (s : State) : Keeps s (devInc c n s) := by simp [devInc]

@[simp] theorem keeps_countFor (tick : Bool) (c : Ctr) (n : Nat) (s : State) : Keeps s (countFor tick c n s) := by simp [countFor]

@[simp] theorem keeps_draw (s : State) : Keeps s (draw s).2 := .refl s

@[simp] theorem keeps_setStack (s : State) (n : Nat) (v : Stack) : Keeps s (s.setStack n v) := by simp [State.setStack]

@[simp] theorem keeps_setCore (s : State) (c : Lcid) (k : CoreCtx) : Keeps s (s.setCore c k) := by simp [State.setCore]

@[simp] theorem keeps_setPlan (s : State) (slot : Nat) (p : Plan) : Keeps s (s.setPlan slot p) := by simp [State.setPlan]

@[simp] theorem keeps_setWord (s : State) (w : Nat) (x : WordSt) : Keeps s (s.setWord w x) := by simp [State.setWord]

@[simp] theorem keeps_setLine (s : State) (w : Nat) (x : WordSt) : Keeps s (s.setLine w x) := by simp [State.setLine]

@[simp] theorem keeps_logFault (r : FaultRec) (s : State) : Keeps s (logFault r s) := by simp [logFault]

@[simp] theorem keeps_raiseDrain (bit structureNo : Nat) (s : State) : Keeps s (raiseDrain bit structureNo s) := by simp [raiseDrain]

@[simp] theorem keeps_raiseBootDrain (bit structureNo : Nat) (s : State) : Keeps s (raiseBootDrain bit structureNo s) := by
  simp [raiseBootDrain]

@[simp] theorem keeps_suspendPlan (slot cause : Nat) (s : State) : Keeps s (suspendPlan slot cause s) := by simp [suspendPlan]

@[simp] theorem keeps_leaveOut (slot : Nat) (s : State) : Keeps s (leaveOut slot s) := by simp [leaveOut]

@[simp] theorem keeps_stopUnits (s : State) : Keeps s (stopUnits s) := by simp [stopUnits]

@[simp] theorem keeps_flushStack (n : Nat) (s : State) : Keeps s (flushStack n s) := by simp [flushStack]

@[simp] theorem keeps_flushAll (s : State) : Keeps s (flushAll s) := by simp [flushAll]

@[simp] theorem keeps_discard (s : State) : Keeps s (discard s) := by simp [discard]

@[simp] theorem keeps_failAttempt (s : State) : Keeps s (failAttempt s) := by simp [failAttempt]

/-! #### Events and counters at a commit -/

@[simp] theorem keeps_sendVector (fn vec : Nat) (s : State) : Keeps s (sendVector fn vec s) := by simp [sendVector]

@[simp] theorem keeps_toRing (r : EventRec) (n : Nat) (s : State) : Keeps s (toRing r n s) := by simp [toRing]

@[simp] theorem keeps_writeRecord (r : EventRec) (s : State) : Keeps s (writeRecord r s).1 := by simp [writeRecord]

@[simp] theorem keeps_ringVectors (l : List Nat) (s : State) : Keeps s (ringVectors l s) := by simp [ringVectors]

@[simp] theorem keeps_postAll (l : List PEvent) (tick : Nat) (s : State) : Keeps s (postAll l tick s) := by
  unfold postAll
  refine keeps_ite (Keeps.trans ?_ (keeps_ringVectors ..)) (by simp)
  exact keeps_foldl_fst (fun a p => by simp) (s, []) l

@[simp] theorem keeps_postNow (p : PEvent) (s : State) : Keeps s (postNow p s) :=
  (keeps_writeRecord _ s).trans (keeps_ringVectors ..)

@[simp] theorem keeps_releaseHeld (s : State) : Keeps s (releaseHeld s) := by
  unfold releaseHeld
  refine Keeps.trans ?_ (keeps_ringVectors ..)
  exact keeps_foldl_fst (fun a e => by simp) ({ s with heldEvents := [] }, []) _

@[simp] theorem keeps_setCtr (c : Ctr) (v : CtrVal) (s : State) : Keeps s (setCtr c v s) := by simp [setCtr]

@[simp] theorem keeps_addCtr (e : Ctr × Nat) (s : State) : Keeps s (addCtr e s) := by simp [addCtr]

@[simp] theorem keeps_addPerf (e : Perf × Nat) (s : State) : Keeps s (addPerf e s) := by simp [addPerf]

@[simp] theorem keeps_commitCounters (s : State) : Keeps s (commitCounters s) := by simp [commitCounters]

/-! #### Faults in the tick -/

@[simp] theorem keeps_lose (slots : List Nat) (s : State) : Keeps s (lose slots s) := by simp [lose]

@[simp] theorem keeps_lostInTick (slots : List Nat) (s : State) : Keeps s (lostInTick slots s) := by simp [lostInTick]

@[simp] theorem keeps_hearthReset (s : State) : Keeps s (hearthReset s) := by
  unfold hearthReset
  dsimp only [draw]
  split <;> simp

@[simp] theorem keeps_freeMailbox (mb : Nat) (s : State) : Keeps s (freeMailbox mb s) := by simp [freeMailbox]

@[simp] theorem keeps_hearthRestart (s : State) : Keeps s (hearthRestart s) := by
  unfold hearthRestart
  split <;> simp

@[simp] theorem keeps_loseStore (s : State) : Keeps s (loseStore s) := by simp [loseStore]

@[simp] theorem keeps_isolate (n trigger : Nat) (s : State) : Keeps s (isolate n trigger s) := by simp [isolate]

@[simp] theorem keeps_countCheck (f : FaultSite) (s : State) : Keeps s (countCheck f s) := by simp [countCheck]

@[simp] theorem keeps_failCore (f : FaultSite) (s : State) : Keeps s (failCore f s) := by
  unfold failCore
  dsimp only
  repeat' split
  all_goals simp

@[simp] theorem keeps_failSlice (n : Nat) (s : State) : Keeps s (failSlice n s) := by simp [failSlice]

@[simp] theorem keeps_actLasting (f : FaultSite) (s : State) : Keeps s (actLasting f s) := by
  unfold actLasting
  cases f.unit <;> simp

@[simp] theorem keeps_failOnce (attempt : Nat) (s : State) : Keeps s (failOnce attempt s) := by simp [failOnce]

@[simp] theorem keeps_lastingFault (f : FaultSite) (s : State) : Keeps s (lastingFault f s) := by simp [lastingFault]

@[simp] theorem keeps_transientFault (f : FaultSite) (s : State) : Keeps s (transientFault f s) := by simp [transientFault]

@[simp] theorem keeps_noteCorrection (f : FaultSite) (s : State) : Keeps s (noteCorrection f s) := by simp [noteCorrection]

@[simp] theorem keeps_refetchLine (f : FaultSite) (s : State) : Keeps s (refetchLine f s) := by
  unfold refetchLine
  split <;> simp

@[simp] theorem keeps_noteReport (f : FaultSite) (s : State) : Keeps s (noteReport f s) := by simp [noteReport]

@[simp] theorem keeps_reportFault (f : FaultSite) (s : State) : Keeps s (reportFault f s) := by simp [reportFault]

@[simp] theorem keeps_dropPlan (c : Lcid) (slot cause pc : Nat) (s : State) : Keeps s (dropPlan c slot cause pc s) := by simp [dropPlan]

@[simp] theorem keeps_progFault (c : Lcid) (cause pc slot : Nat) (s : State) : Keeps s (progFault c cause pc slot s) := by
  unfold progFault
  repeat' split
  all_goals simp

/-! #### The end of an instruction -/

@[simp] theorem keeps_coreFault (c : Lcid) (cause : Nat) (s : State) : Keeps s (coreFault c cause s) := by simp [coreFault]

@[simp] theorem keeps_endInstr (c : Lcid) (k : CoreCtx) (s : State) : Keeps s (endInstr c k s) := by
  unfold endInstr
  split <;> simp

/-! #### The mesh and the die edges -/

@[simp] theorem keeps_fly (l : List NetFlit) (s : State) : Keeps s (fly l s) := by simp [fly]

@[simp] theorem keeps_inject (c : Lcid) (l : List NetFlit) (s : State) : Keeps s (inject c l s) := by simp [inject]

@[simp] theorem keeps_sliceTokens (c : Lcid) (n : Nat) (s : State) : Keeps s (sliceTokens c n s).1 := by simp [sliceTokens]

@[simp] theorem keeps_streamToken (c : Lcid) (s : State) : Keeps s (streamToken c s).1 := by simp [streamToken]

@[simp] theorem keeps_sendStream (c : Lcid) (counted : Bool) (l : List NetFlit) (s : State) : Keeps s (sendStream c counted l s).1 := by
  induction l generalizing s with
  | nil => exact .refl s
  | cons f l ih =>
    unfold sendStream
    dsimp only
    split
    · refine Keeps.trans ?_ (ih _)
      split <;> simp
    · simp

@[simp] theorem keeps_resetFseqs (n : Nat) (s : State) : Keeps s (resetFseqs n s) := by simp [resetFseqs]

@[simp] theorem keeps_sendFrame (src : Nat) (w : Way) (kind : BitVec 4) (len : Nat) (f : NetFlit) (s : State) :
    Keeps s (sendFrame src w kind len f s) := by
  simp [sendFrame]

@[simp] theorem keeps_answerFrame (f : NetFrame) (kind : BitVec 4) (g : NetFlit) (s : State) : Keeps s (answerFrame f kind g s) := by
  simp [answerFrame]

@[simp] theorem keeps_modXfer (c : Lcid) (id : Nat) (g : SliceXfer → SliceXfer) (s : State) : Keeps s (modXfer c id g s) := by
  simp [modXfer]

@[simp] theorem keeps_modNet (c : Lcid) (id : Nat) (g : NetXfer → NetXfer) (s : State) : Keeps s (modNet c id g s) := by simp [modNet]

@[simp] theorem keeps_leaveDie (f : NetFlit) (w : Way) (s : State) : Keeps s (leaveDie f w s) := by simp [leaveDie]

@[simp] theorem keeps_issuePieces (c : Lcid) (x : SliceXfer) (l : List (Nat × Nat)) (s : State) : Keeps s (issuePieces c x l s).1 := by
  induction l generalizing s with
  | nil => exact .refl s
  | cons p l ih =>
    unfold issuePieces
    dsimp only
    split
    · refine Keeps.trans ?_ (ih _)
      split <;> simp
    · simp

@[simp] theorem keeps_payPieces (c : Lcid) (l : List Nat) (p : Nat) (s : State) : Keeps s (payPieces c l p s).2 := by
  induction l generalizing p s with
  | nil => exact .refl s
  | cons n l ih =>
    unfold payPieces
    dsimp only
    split
    · exact Keeps.trans (by simp) (ih ..)
    · simp

@[simp] theorem keeps_resumeSlice (c : Lcid) (s : State) : Keeps s (resumeSlice c s) :=
  keeps_foldl (fun t x => (keeps_issuePieces c x x.todo t).trans (keeps_modXfer ..)) _ _

@[simp] theorem keeps_resumeStream (c : Lcid) (s : State) : Keeps s (resumeStream c s) := by
  unfold resumeStream
  exact keeps_foldl (fun t x => Keeps.trans (keeps_sendStream ..) (keeps_modNet ..)) _ _

@[simp] theorem keeps_sendCtl (f : NetFlit) (s : State) : Keeps s (sendCtl f s) := by simp [sendCtl]

@[simp] theorem keeps_absorb (f : NetFlit) (s : State) : Keeps s (absorb f s) := by simp [absorb]

@[simp] theorem keeps_tookFlit (f : NetFlit) (s : State) : Keeps s (tookFlit f s) := by
  unfold tookFlit
  dsimp only
  repeat' split
  all_goals simp

@[simp] theorem keeps_reportDone (f : NetFlit) (s : State) : Keeps s (reportDone f s) := by
  unfold reportDone
  dsimp only
  repeat' split
  all_goals simp

@[simp] theorem keeps_leaveDest (c : Lcid) (id d : Nat) (st : Status) (s : State) : Keeps s (leaveDest c id d st s) := by simp [leaveDest]

@[simp] theorem keeps_sendOne (c : Lcid) (id : Nat) (f : NetFlit) (s : State) : Keeps s (sendOne c id f s) := by
  unfold sendOne
  refine keeps_ite (keeps_inject ..) (Keeps.trans ?_ (keeps_modNet ..))
  generalize (match s.netOf c id with | some x => x.unsent | none => []).isEmpty = w
  cases w
  · exact .refl s
  · exact keeps_sendStream ..

@[simp] theorem keeps_refused (f : NetFlit) (s : State) : Keeps s (refused f s) := by
  unfold refused
  dsimp only
  repeat' split
  all_goals simp

@[simp] theorem keeps_landIn (c : Lcid) (f : NetFlit) (place : CoreCtx → WinState → List (Nat × Byte × Bool)) (s : State) :
    Keeps s (landIn c f place s) := by
  unfold landIn
  dsimp only
  split <;> simp

/-! #### The floor-plan record -/

@[simp] theorem keeps_publishFloor (tick : Nat) (s : State) : Keeps s (publishFloor tick s) := by simp [publishFloor]

/-! #### The capability list -/

@[simp] theorem keeps_capStart (s : State) : Keeps s (capStart s) := by simp [capStart]

@[simp] theorem keeps_capCommit (s : State) : Keeps s (capCommit s) := by simp [capCommit]

/-! #### Reads of device memory -/

@[simp] theorem keeps_noteCorrected (tick : Bool) (site loc : Nat) (s : State) : Keeps s (noteCorrected tick site loc s) := by
  simp [noteCorrected]

@[simp] theorem keeps_noteUncorrectable (tick : Bool) (site loc : Nat) (s : State) : Keeps s (noteUncorrectable tick site loc s) := by
  simp [noteUncorrectable]

@[simp] theorem keeps_noteLine (tick : Bool) (site loc : Nat) (s : State) : Keeps s (noteLine tick site loc s) := by
  unfold noteLine
  exact keeps_foldl (fun t i => by split <;> simp) _ _

/-! #### Slice transfers -/

theorem keeps_stageLine {s t : State} {w : Staged} (h : stageLine s w = some t) : Keeps s t := by
  unfold stageLine at h
  dsimp only at h
  split at h
  · cases h
    simp
  · cases h

theorem keeps_stageStore {c : Lcid} {x : SliceXfer} {l : List Nat} {s t : State} (h : stageStore c x l s = some t) : Keeps s t := by
  induction l generalizing s with
  | nil =>
    cases h
    exact .refl t
  | cons i l ih =>
    unfold stageStore at h
    dsimp only at h
    split at h
    · exact ih h
    · obtain ⟨u, hu, h⟩ := Option.bind_eq_some_iff.1 h
      exact (keeps_stageLine hu).trans (ih h)

@[simp] theorem keeps_noteLoad (c : Lcid) (a n : Nat) (s : State) : Keeps s (noteLoad c a n s) :=
  keeps_foldl (fun t _ => keeps_ite (.refl t) (keeps_noteLine ..)) { s with fresh := s.fresh + 1 } _

@[simp] theorem keeps_finishXfer (c : Lcid) (x : SliceXfer) (s : State) : Keeps s (finishXfer c x s) := by
  unfold finishXfer
  dsimp only
  split
  case h_5 =>
    split
    · rename_i t h
      exact Keeps.trans (by simp) (keeps_stageStore h)
    · simp
  all_goals simp

/-! #### Expert routing -/

@[simp] theorem keeps_countRoute (slot n by_ : Nat) (s : State) : Keeps s (countRoute slot n by_ s) := by simp [countRoute]

/-! #### Page tables -/

@[simp] theorem keeps_setTable (s : State) (stack i : Nat) (t : Tab Nat) : Keeps s (s.setTable stack i t) := by simp [State.setTable]

@[simp] theorem keeps_setSeq (s : State) (slot : Nat) (r : SeqRec) : Keeps s (s.setSeq slot r) := by simp [State.setSeq]

@[simp] theorem keeps_modGroup (slot g : Nat) (f : Group → Group) (s : State) : Keeps s (modGroup slot g f s) := by
  unfold modGroup
  split <;> simp

theorem keeps_copyLeaf {work : Bool} {slot gi n : Nat} {s t : State} (h : copyLeaf work slot gi n s = some t) : Keeps s t := by
  rw [copyLeaf_some h]
  exact .refl s

@[simp] theorem keeps_openShadow (h : Shadow) (s : State) : Keeps s (openShadow h s) := by
  unfold openShadow
  split <;> simp

@[simp] theorem keeps_openShadows (s : State) : Keeps s (openShadows s) := by simp [openShadows]

theorem keeps_editLeaf_fresh {slot gi n : Nat} {s t : State} (h : editLeaf.fresh slot gi n s = some t) : Keeps s t := by
  obtain ⟨u, hu, rfl⟩ := Option.map_eq_some_iff.1 h
  refine (keeps_copyLeaf hu).trans ?_
  split <;> simp

theorem keeps_editLeaf {slot gi n : Nat} {s t : State} (h : editLeaf slot gi n s = some t) : Keeps s t := by
  unfold editLeaf at h
  split at h
  · split at h
    · cases h
      exact .refl s
    · exact keeps_editLeaf_fresh h
  · exact keeps_editLeaf_fresh h

@[simp] theorem keeps_putEntry (slot gi page w : Nat) (s : State) : Keeps s (putEntry slot gi page w s) := by
  unfold putEntry
  split
  · exact .refl s
  · rename_i t h
    refine (keeps_editLeaf h).trans ?_
    split
    · exact .refl t
    · split <;> simp

@[simp] theorem keeps_closeShadow (h : Shadow) (s : State) : Keeps s (closeShadow h s) := by
  unfold closeShadow
  split <;> simp

@[simp] theorem keeps_closeShadows (s : State) : Keeps s (closeShadows s) := by simp [closeShadows]

/-! #### Scoring -/

@[simp] theorem keeps_incN (x : Ctr) (n : Nat) (s : State) : Keeps s (incN x n s) := by simp [incN]

@[simp] theorem keeps_noteTables (g : Group) (pages : List Nat) (s : State) : Keeps s (noteTables g pages s) :=
  keeps_foldl (fun _ _ => keeps_noteLine ..) _ _

/-! #### Crumb units -/

@[simp] theorem keeps_putVec (slice : Nat) (banks : List Nat) (at_ : Nat) (l : List (Byte × Bool)) (s : State) :
    Keeps s (putVec slice banks at_ l s) := by
  simp [putVec]

@[simp] theorem keeps_modJob (c : Lcid) (j : CrumbJob) (g : CrumbJob → CrumbJob) (s : State) : Keeps s (modJob c j g s) := by simp [modJob]

@[simp] theorem keeps_breakProgram (c : Lcid) (u : UnitId) (j : CrumbJob) (s : State) : Keeps s (breakProgram c u j s) := by
  simp [breakProgram]

@[simp] theorem keeps_loseReturns (c : Lcid) (u : UnitId) (j : CrumbJob) (s : State) : Keeps s (loseReturns c u j s) := by
  simp [loseReturns]

@[simp] theorem keeps_noteCrumbWord (slice loc : Nat) (s : State) : Keeps s (noteCrumbWord slice loc s) := by
  unfold noteCrumbWord
  refine Keeps.trans (keeps_foldl (fun t x => ?_) s [loc, loc + 8]) (keeps_ite (keeps_inc ..) (keeps_ite (keeps_inc ..) (.refl _)))
  split <;> simp

/-! #### Flits and frames -/

@[simp] theorem keeps_sendFold (c : Lcid) (g : GroupEnt) (l : List NetFlit) (s : State) : Keeps s (sendFold c g l s).1 := by
  induction l generalizing s with
  | nil => exact .refl s
  | cons f l ih =>
    unfold sendFold
    split
    · exact Keeps.trans (by simp) (ih _)
    · exact .refl s

@[simp] theorem keeps_tryUnit (slot stack l j n : Nat) (g : GroupEnt) (s : State) : Keeps s (tryUnit slot stack l j n g s) := by
  simp [tryUnit]

@[simp] theorem keeps_tryNode (slot stack l j : Nat) (g : GroupEnt) (s : State) : Keeps s (tryNode slot stack l j g s) := by simp [tryNode]

@[simp] theorem keeps_foldArrives (f : NetFlit) (s : State) : Keeps s (foldArrives f s) := by
  unfold foldArrives
  dsimp only
  split <;> simp

@[simp] theorem keeps_orLeave {k : State → State} (hk : ∀ t, Keeps t (k t)) (f : NetFlit) (s : State) : Keeps s (orLeave f k s) := by
  unfold orLeave
  split
  · exact keeps_ite (keeps_leaveDie ..) (hk s)
  · exact hk s

@[simp] theorem keeps_deliver {k : Lcid → State → State} (hk : ∀ m t, Keeps t (k m t)) (f : NetFlit) (s : State) : Keeps s (deliver f k s) := by
  refine keeps_orLeave (fun t => keeps_ite (keeps_absorb ..) ?_) f s
  split
  · exact hk _ t
  · exact .refl t

@[simp] theorem keeps_settle (c : Lcid) (id : Nat) (s : State) : Keeps s (settle c id s) := by simp [settle]

@[simp] theorem keeps_rowLands (m : Lcid) (ret : Bool) (l : List NetFlit) (s : State) : Keeps s (rowLands m ret l s) := by simp [rowLands]

@[simp] theorem keeps_nackArrives (f : NetFlit) (s : State) : Keeps s (nackArrives f s) := by
  unfold nackArrives
  dsimp only
  repeat' split
  all_goals simp

@[simp] theorem keeps_abandonWin (m : Lcid) (x : Nat) (s : State) : Keeps s (abandonWin m x s) := by
  unfold abandonWin
  dsimp only
  split <;> simp

@[simp] theorem keeps_frameRefused (f : NetFrame) (s : State) : Keeps s (frameRefused f s) := by
  unfold frameRefused
  dsimp only
  split <;> simp

@[simp] theorem keeps_completeNet (c : Lcid) (x : NetXfer) (s : State) : Keeps s (completeNet c x s) := by simp [completeNet]

@[simp] theorem keeps_notifyLacking (c : Lcid) (n : Nat) (x : NetXfer) (lacking : List Nat) (s : State) :
    Keeps s (notifyLacking c n x lacking s) := by
  simp [notifyLacking]

@[simp] theorem keeps_winLost (c : Lcid) (w : WinState) (lost : List Nat) (s : State) : Keeps s (winLost c w lost s) := by simp [winLost]

/-! #### Charges -/

@[simp] theorem keeps_assignSlots (s : State) : Keeps s (assignSlots s) := by simp [assignSlots]

/-! #### Heat at a boundary and a commit -/

@[simp] theorem keeps_setCap (s : State) : Keeps s (setCap s) := by simp [setCap]

@[simp] theorem keeps_enterDegraded (s : State) : Keeps s (enterDegraded s) := by simp [enterDegraded]

@[simp] theorem keeps_stepDegraded (s : State) : Keeps s (stepDegraded s) := by simp [stepDegraded]

@[simp] theorem keeps_restoreCooling (s : State) : Keeps s (restoreCooling s) := by simp [restoreCooling]

@[simp] theorem keeps_applyCooling (s : State) : Keeps s (applyCooling s) := by simp [applyCooling]

@[simp] theorem keeps_raiseBands (s : State) : Keeps s (raiseBands s) := by simp [raiseBands]

@[simp] theorem keeps_commitHeat (s : State) : Keeps s (commitHeat s) := by simp [commitHeat]

@[simp] theorem keeps_countThrottle (s : State) : Keeps s (countThrottle s) := by simp [countThrottle]

@[simp] theorem keeps_fitSensors (s : State) : Keeps s (fitSensors s) := by
  unfold fitSensors
  dsimp only [draw]
  split <;> simp

@[simp] theorem keeps_trackAll (e : BoundaryEnv) (period : Nat) (s : State) : Keeps s (trackAll e period s) := by simp [trackAll]

@[simp] theorem keeps_writeTelemetry (e : BoundaryEnv) (budget : Nat → Nat) (s : State) : Keeps s (writeTelemetry e budget s) := by
  simp [writeTelemetry]

/-! #### The KV cache at a commit -/

@[simp] theorem keeps_setDesc (s : State) (pfn : Nat) (d : Desc) : Keeps s (s.setDesc pfn d) := by simp [State.setDesc]

@[simp] theorem keeps_addRef (pfn : Nat) (s : State) : Keeps s (addRef pfn s) := by simp [addRef]

@[simp] theorem keeps_dropRef (pfn : Nat) (s : State) : Keeps s (dropRef pfn s) := by simp [dropRef]

@[simp] theorem keeps_allocFrame (pfn : Nat) (s : State) : Keeps s (allocFrame pfn s) := by
  unfold allocFrame
  dsimp only
  split <;> simp

@[simp] theorem keeps_freeOne (pfn : Nat) (s : State) : Keeps s (freeOne pfn s) := by
  unfold freeOne
  dsimp only
  split <;> simp

@[simp] theorem keeps_freeUnreferenced (s : State) : Keeps s (freeUnreferenced s) := keeps_foldl (fun _ _ => keeps_freeOne ..) _ _

@[simp] theorem keeps_setEntry (slot g page : Nat) (e : Option Pte) (s : State) : Keeps s (setEntry slot g page e s) := by
  unfold setEntry
  split
  · rename_i x t _ h
    refine (keeps_editLeaf h).trans (Keeps.trans ?_ (keeps_putEntry ..))
    cases e <;> cases s.entry x page <;> simp
  · exact .refl s

@[simp] theorem keeps_coverLast (slot : Nat) (s : State) : Keeps s (coverLast slot s) := by
  refine keeps_foldl (fun t i => ?_) _ _
  dsimp only
  split
  · exact .refl t
  · split
    · exact keeps_ite (keeps_putEntry ..) (.refl t)
    · exact .refl t

@[simp] theorem keeps_releaseFrom (slot g lo : Nat) (s : State) : Keeps s (releaseFrom slot g lo s) := by
  unfold releaseFrom
  split <;> simp

@[simp] theorem keeps_leaveTables (slot g : Nat) (s : State) : Keeps s (leaveTables slot g s) := by
  unfold leaveTables
  split <;> simp

@[simp] theorem keeps_bumpGens (slots : List Nat) (s : State) : Keeps s (bumpGens slots s) := by
  unfold bumpGens
  exact keeps_foldl (fun t i => by split <;> simp) _ _

@[simp] theorem keeps_publishPage (p : NewPage) (s : State) : Keeps s (publishPage p s) := by
  unfold publishPage
  dsimp only
  repeat' split
  all_goals simp

@[simp] theorem keeps_advance (p : Nat × Nat) (s : State) : Keeps s (advance p s) := by
  unfold advance
  dsimp only
  split <;> simp

@[simp] theorem keeps_commitAppends (s : State) : Keeps s (commitAppends s) := by simp [commitAppends]

@[simp] theorem keeps_applyFork (src dst len : Nat) (s : State) : Keeps s (applyFork src dst len s) := by simp [applyFork]

@[simp] theorem keeps_applyTruncate (slot len : Nat) (s : State) : Keeps s (applyTruncate slot len s) := by simp [applyTruncate]

@[simp] theorem keeps_applyRetire (slot g lo n : Nat) (s : State) : Keeps s (applyRetire slot g lo n s) := by simp [applyRetire]

@[simp] theorem keeps_applyEdit (c : Change) (s : State) : Keeps s (applyEdit c s) := by
  unfold applyEdit
  split <;> simp

@[simp] theorem keeps_applyPoolCreate (key : Nat) (p : Pool) (s : State) : Keeps s (applyPoolCreate key p s) := by
  unfold applyPoolCreate
  dsimp only
  split <;> simp

@[simp] theorem keeps_applyPoolDestroy (key : Nat) (s : State) : Keeps s (applyPoolDestroy key s) := by
  unfold applyPoolDestroy
  split <;> simp

@[simp] theorem keeps_applyMove (slot : Nat) (g : Option Nat) (m : Move) (s : State) : Keeps s (applyMove slot g m s) := by
  unfold applyMove
  split <;> simp

@[simp] theorem keeps_applyRestore (slot : Nat) (data : List Byte) (s : State) : Keeps s (applyRestore slot data s) := by
  unfold applyRestore
  dsimp only
  generalize hr : List.foldl _ (s, 512) _ = r
  have groups : Keeps s r.1 := hr ▸ keeps_foldl_fst (fun a i => by split <;> simp) (s, 512) _
  split
  · exact groups.trans (keeps_setSeq ..)
  · exact groups

@[simp] theorem keeps_publishTables (pre : State) (written : List Nat) (s : State) : Keeps s (publishTables pre written s) :=
  (keeps_closeShadows s).trans (keeps_bumpGens ..)

@[simp] theorem keeps_waterMarks (s : State) : Keeps s (waterMarks s) := by simp [waterMarks]

/-! #### Admission and suspension -/

@[simp] theorem keeps_holdPlan (slot : Nat) (on : Bool) (s : State) : Keeps s (holdPlan slot on s) := by simp [holdPlan]

@[simp] theorem keeps_applySuspend (p : Nat × Nat) (s : State) : Keeps s (applySuspend p s) := by
  unfold applySuspend
  split <;> simp

@[simp] theorem keeps_clockChange (stack : Option Nat) (half : Nat) (slow : Bool) (s : State) :
    Keeps s (clockChange stack half slow s) := by
  simp [clockChange]

@[simp] theorem keeps_shrink (n : Nat) (s : State) : Keeps s (shrink n s) := by
  induction n generalizing s with
  | zero => exact .refl s
  | succ n ih =>
    unfold shrink
    split
    · exact .refl s
    · split
      · exact .refl s
      · exact Keeps.trans (by simp) (ih _)

@[simp] theorem keeps_checkEvidence (s : State) : Keeps s (checkEvidence s) := by simp [checkEvidence]

@[simp] theorem keeps_backpressure (s : State) : Keeps s (backpressure s) := by simp [backpressure]

/-! #### The end of a tick -/

@[simp] theorem keeps_completeTick (s : State) : Keeps s (completeTick s) := by simp [completeTick]

/-! #### Evidence at a commit -/

@[simp] theorem keeps_storeRecords (l : List ARec) (s : State) : Keeps s (storeRecords l s) := by simp [storeRecords]

@[simp] theorem keeps_addLink (kind tick : Nat) (content ledger : List Byte) (records : Nat) (s : State) :
    Keeps s (addLink kind tick content ledger records s) := by
  simp [addLink]

@[simp] theorem keeps_bootLink (s : State) : Keeps s (bootLink s) := by simp [bootLink]

@[simp] theorem keeps_addMarkers (tick : Nat) (s : State) : Keeps s (addMarkers tick s) := by simp [addMarkers]

@[simp] theorem keeps_beginSeal (s : State) : Keeps s (beginSeal s) := by simp [beginSeal]

@[simp] theorem keeps_sealCommit (tick : Nat) (s : State) : Keeps s (sealCommit tick s) := by simp [sealCommit]

@[simp] theorem keeps_endReplay (c : List Byte) (s : State) : Keeps s (endReplay c s) := by
  unfold endReplay
  dsimp only
  repeat' split
  all_goals simp

@[simp] theorem keeps_commitEvidence (recs : List ARec) (content ledger : List Byte) (s : State) :
    Keeps s (commitEvidence recs content ledger s) := by
  simp [commitEvidence]

/-! #### Packets that leave -/

@[simp] theorem keeps_sendOn (port kind : Nat) (p : Packet) (s : State) : Keeps s (sendOn port kind p s) := by simp [sendOn]

@[simp] theorem keeps_resend (n : Nat) (x : RingEntry) (s : State) : Keeps s (resend n x s) := by
  unfold resend
  split <;> simp

@[simp] theorem keeps_reroute (before : State) (s : State) : Keeps s (reroute before s) := by simp [reroute]

@[simp] theorem keeps_sendMgmt (s : State) : Keeps s (sendMgmt s) := by simp [sendMgmt]

@[simp] theorem keeps_markLink (n : Nat) (down : Bool) (s : State) : Keeps s (markLink n down s) := by simp [markLink]

@[simp] theorem keeps_portDown (n : Nat) (s : State) : Keeps s (portDown n s) := by simp [portDown]

/-! #### Changes of committed state -/

@[simp] theorem keeps_orphan (n : Nat) (s : State) : Keeps s (orphan n s) := by simp [orphan]

@[simp] theorem keeps_closeSession (n : Nat) (s : State) : Keeps s (closeSession n s) := by simp [closeSession]

@[simp] theorem keeps_resetOne (fn : Nat) (s : State) : Keeps s (resetOne fn s) := by simp [resetOne]

@[simp] theorem keeps_resetFunction (fn : Nat) (s : State) : Keeps s (resetFunction fn s) := by simp [resetFunction]

@[simp] theorem keeps_adopt (n : Nat) (s : State) : Keeps s (adopt n s) := by
  unfold adopt
  split <;> simp

@[simp] theorem keeps_commitLevel (s : State) : Keeps s (commitLevel s) := by simp [commitLevel]

@[simp] theorem keeps_enterLife (l : Life) (s : State) : Keeps s (enterLife l s) := by simp [enterLife]

@[simp] theorem keeps_useIndex (s : State) : Keeps s (useIndex s) := by simp [useIndex]

@[simp] theorem keeps_sign (msg : List Byte) (s : State) : Keeps s (sign msg s).2.2 := by
  unfold sign
  split <;> simp

@[simp] theorem keeps_sealWith {signer : List Byte → State → List Byte × Bool × State} (h : ∀ msg t, Keeps t (signer msg t).2.2) (s : State) :
    Keeps s (sealWith signer s) := by
  unfold sealWith
  split
  · exact .refl s
  · exact h ..

@[simp] theorem keeps_signSeal (s : State) : Keeps s (signSeal s) := keeps_sealWith keeps_sign s

@[simp] theorem keeps_lastSign (msg : List Byte) (s : State) : Keeps s (lastSign msg s).2.2 := by
  unfold lastSign
  split <;> simp

@[simp] theorem keeps_emptyReserve (n : Nat) (s : State) : Keeps s (emptyReserve n s) := by simp [emptyReserve]

@[simp] theorem keeps_applyAdmit (slot : Nat) (s : State) : Keeps s (applyAdmit slot s) := by
  unfold applyAdmit
  split <;> simp

@[simp] theorem keeps_applyUnload (slot : Nat) (s : State) : Keeps s (applyUnload slot s) := by simp [applyUnload]

@[simp] theorem keeps_hostTrain (s : State) : Keeps s (hostTrain s) := by simp [hostTrain]

@[simp] theorem keeps_applyRate (q : Nat) (stream : Bool) (v : Nat) (s : State) : Keeps s (applyRate q stream v s) := by simp [applyRate]

@[simp] theorem keeps_powerEvent (object : Option Nat) (detail : List Nat) (s : State) : Keeps s (powerEvent object detail s) := by
  simp [powerEvent]

@[simp] theorem keeps_settleTrim (s : State) : Keeps s (settleTrim s) := by
  unfold settleTrim
  dsimp only
  split <;> simp

@[simp] theorem keeps_later (c : Change) (s : State) : Keeps s (later c s) := by simp [later]

@[simp] theorem keeps_applyAck (kind tick : Nat) (s : State) : Keeps s (applyAck kind tick s) := by
  unfold applyAck
  split <;> simp

@[simp] theorem keeps_applyCapture (slot : Nat) (on : Bool) (s : State) : Keeps s (applyCapture slot on s) := by
  unfold applyCapture
  split <;> simp

@[simp] theorem keeps_applyDbg (b : List Byte) (s : State) : Keeps s (applyDbg b s) := by simp [applyDbg]

@[simp] theorem keeps_applyGranule (a : Nat) (s : State) : Keeps s (applyGranule a s) := by
  unfold applyGranule
  split
  · exact .refl s
  · split <;> simp

@[simp] theorem keeps_applyProvision (s : State) : Keeps s (applyProvision s) := by simp [applyProvision]

@[simp] theorem keeps_applyOpen (slot : Nat) (r : SeqRec) (s : State) : Keeps s (applyOpen slot r s) := by simp [applyOpen]

@[simp] theorem keeps_applyClose (slot : Nat) (s : State) : Keeps s (applyClose slot s) := by
  unfold applyClose
  dsimp only
  split <;> simp

@[simp] theorem keeps_setHold (slot : Nat) (f : BitVec 4 → BitVec 4) (s : State) : Keeps s (setHold slot f s) := by
  unfold setHold
  split <;> simp

@[simp] theorem keeps_modSession (n : Nat) (f : Session → Session) (s : State) : Keeps s (modSession n f s) := by
  unfold modSession
  split <;> simp

/-! #### Write-back -/

@[simp] theorem keeps_forgetRow (row : Nat) (s : State) : Keeps s (forgetRow row s) := by simp [forgetRow]

@[simp] theorem keeps_putRemap (kind site loc spare : Nat) (b : RemapBlock) (s : State) : Keeps s (putRemap kind site loc spare b s) := by
  simp [putRemap]

@[simp] theorem keeps_noteRemap (site : Nat) (s : State) : Keeps s (noteRemap site s) := by simp [noteRemap]

@[simp] theorem keeps_stagePoison (p : Nat × Nat) (s : State) : Keeps s (stagePoison p s) := by simp [stagePoison]

@[simp] theorem keeps_awaitReread (site line : Nat) (s : State) : Keeps s (awaitReread site line s) := by simp [awaitReread]

@[simp] theorem keeps_rewriteLine (p : Nat × Nat × Bool) (s : State) : Keeps s (rewriteLine p s) := by simp [rewriteLine]

/-! #### Responses -/

@[simp] theorem keeps_respond (mb : Nat) (r : Resp) (s : State) : Keeps s (respond mb r s) := by simp [respond]

@[simp] theorem keeps_lateAnswers (s : State) : Keeps s (lateAnswers s) := by simp [lateAnswers]

@[simp] theorem keeps_commitAnswers (tick : Nat) (p : Portions) (s : State) : Keeps s (commitAnswers tick p s) := by simp [commitAnswers]

@[simp] theorem keeps_commitQuotes (s : State) : Keeps s (commitQuotes s) := by simp [commitQuotes]

/-! #### Output rings -/

@[simp] theorem keeps_sendEntries (sec : RingSec) (prod fuel : Nat) (s : State) : Keeps s (sendEntries sec prod fuel s) := by
  induction fuel generalizing s with
  | zero => exact .refl s
  | succ fuel ih =>
    unfold sendEntries
    split
    · exact .refl s
    · refine keeps_ite (.refl s) (keeps_ite (Keeps.trans (by simp) (ih _)) (keeps_ite (.refl s) ?_))
      split
      · simp
      · exact Keeps.trans (by simp) (ih _)

@[simp] theorem keeps_sendRing (sec : RingSec) (s : State) : Keeps s (sendRing sec s) := by
  unfold sendRing
  split <;> simp

@[simp] theorem keeps_ringSend (s : State) : Keeps s (ringSend s) := by simp [ringSend]

@[simp] theorem keeps_replyTo (kind port : Nat) (p : Packet) (st : Status) (s : State) : Keeps s (replyTo kind port p st s) := by
  simp [replyTo]

@[simp] theorem keeps_sendReleases (s : State) : Keeps s (sendReleases s) := by simp [sendReleases]

/-! #### The commit -/

@[simp] theorem keeps_floorChange (s : State) : Keeps s (floorChange s) := by simp [floorChange]

@[simp] theorem keeps_holdHomed (n : Nat) (on : Bool) (s : State) : Keeps s (holdHomed n on s) := by simp [holdHomed]

@[simp] theorem keeps_suspendOn (n : Nat) (s : State) : Keeps s (suspendOn n s) := by simp [suspendOn]

@[simp] theorem keeps_publishIsolated (s : State) : Keeps s (publishIsolated s) := by simp [publishIsolated]

@[simp] theorem keeps_publishOff (s : State) : Keeps s (publishOff s) := by simp [publishOff]

@[simp] theorem keeps_joinQuads (s : State) : Keeps s (joinQuads s) := by simp [joinQuads]

@[simp] theorem keeps_applyDrain (p : Nat × Nat × Bool) (s : State) : Keeps s (applyDrain p s) := by simp [applyDrain]

@[simp] theorem keeps_applyDrains (s : State) : Keeps s (applyDrains s) := by simp [applyDrains]

@[simp] theorem keeps_narrowLink (n : Nat) (t : State) (p : Nat × Nat) : Keeps t (narrowLink n t p) := by simp [narrowLink]

@[simp] theorem keeps_narrowPort (t : State) (n : Nat) : Keeps t (narrowPort t n) := by simp [narrowPort]

@[simp] theorem keeps_applyNarrow (s : State) : Keeps s (applyNarrow s) := by simp [applyNarrow]

@[simp] theorem keeps_publishSuspends (s : State) : Keeps s (publishSuspends s) := by simp [publishSuspends]

@[simp] theorem keeps_reevaluate (s : State) : Keeps s (reevaluate s) := by simp [reevaluate]

@[simp] theorem keeps_consumeJournal (tick : Nat) (s : State) : Keeps s (consumeJournal tick s) := by simp [consumeJournal]

@[simp] theorem keeps_poisonEvents (s : State) : Keeps s (poisonEvents s) := by simp [poisonEvents]

@[simp] theorem keeps_postEvents (tick : Nat) (s : State) : Keeps s (postEvents tick s) := by simp [postEvents]

@[simp] theorem keeps_notePatrol (pre : State) (tick : Nat) (s : State) : Keeps s (notePatrol pre tick s) := by simp [notePatrol]

@[simp] theorem keeps_noteRecovery (s : State) : Keeps s (noteRecovery s) := by simp [noteRecovery]

@[simp] theorem keeps_commitChain (pre : State) (s : State) : Keeps s (commitChain pre s) := by simp [commitChain]

@[simp] theorem keeps_noteBudget (s : State) : Keeps s (noteBudget s) := by simp [noteBudget]

@[simp] theorem keeps_endInjection (tick : Nat) (s : State) : Keeps s (endInjection tick s) := by
  unfold endInjection
  split <;> simp

/-! #### Boundaries -/

@[simp] theorem keeps_staleMessages (s : State) : Keeps s (staleMessages s) := by simp [staleMessages]

@[simp] theorem keeps_staleTransfer (f : NetFlit) (s : State) : Keeps s (staleTransfer f s) := by
  unfold staleTransfer
  dsimp only
  repeat' split
  all_goals simp

@[simp] theorem keeps_discardStale (s : State) : Keeps s (discardStale s) := by simp [discardStale]

@[simp] theorem keeps_refill (s : State) : Keeps s (refill s) := by simp [refill]

@[simp] theorem keeps_clearEmptied (s : State) : Keeps s (clearEmptied s) := by simp [clearEmptied]

@[simp] theorem keeps_resumeAll (s : State) : Keeps s (resumeAll s) :=
  keeps_ite (keeps_foldl (fun _ _ => (keeps_resumeSlice ..).trans (keeps_resumeStream ..)) _ _) (.refl s)

@[simp] theorem keeps_benchLatch (s : State) : Keeps s (benchLatch s) := by simp [benchLatch]

@[simp] theorem keeps_overrun (s : State) : Keeps s (overrun s) := by simp [overrun]

@[simp] theorem keeps_deferCommit (f : FaultSite) (s : State) : Keeps s (deferCommit f s) := by simp [deferCommit]

@[simp] theorem keeps_lastingCommit (f : FaultSite) (s : State) : Keeps s (lastingCommit f s) := by simp [lastingCommit]

@[simp] theorem keeps_startCore (slot : Nat) (p : Plan) (sec : CoreSec) (s : State) : Keeps s (startCore slot p sec s) := by
  simp [startCore]

@[simp] theorem keeps_startCrumbs (sec : CrumbSec) (s : State) : Keeps s (startCrumbs sec s) := by simp [startCrumbs]

@[simp] theorem keeps_checkEntry (c : Lcid) (s : State) : Keeps s (checkEntry c s) := by
  unfold checkEntry
  split <;> simp

@[simp] theorem keeps_startUnits (s : State) : Keeps s (startUnits s) := by simp [startUnits]

@[simp] theorem keeps_injectCrc (j : Inject) (s : State) : Keeps s (injectCrc j s) := by simp [injectCrc]

@[simp] theorem keeps_injectLine (s : State) : Keeps s (injectLine s) := by
  unfold injectLine
  split
  · exact .refl s
  · refine keeps_ite (keeps_ite (keeps_injectCrc ..) ?_) (.refl s)
    split
    · exact .refl s
    · exact keeps_ite (.refl s) (.refl s)

@[simp] theorem keeps_injectFault (s : State) : Keeps s (injectFault s) := by
  unfold injectFault
  split <;> simp

@[simp] theorem keeps_startTick (s : State) : Keeps s (startTick s) := by simp [startTick]

@[simp] theorem keeps_takeSource (s : State) : Keeps s (takeSource s) := by
  unfold takeSource
  split <;> simp

/-! #### Links of the stacks -/

@[simp] theorem keeps_linkLost (n link : Nat) (s : State) : Keeps s (linkLost n link s) := by simp [linkLost]

@[simp] theorem keeps_spareLane (n link : Nat) (rx : Bool) (lane : Nat) (s : State) : Keeps s (spareLane n link rx lane s) := by
  unfold spareLane
  dsimp only
  split <;> simp

@[simp] theorem keeps_failLane (l : LaneId) (s : State) : Keeps s (failLane l s) := by simp [failLane]

@[simp] theorem keeps_failPortLane (l : LaneId) (s : State) : Keeps s (failPortLane l s) := by
  unfold failPortLane
  dsimp only
  repeat' split
  all_goals simp

@[simp] theorem keeps_darken (n : Nat) (s : State) : Keeps s (darken n s) := by simp [darken]

@[simp] theorem keeps_logMap (n link : Nat) (own : Bool) (gen : W32) (flags : Nat) (tx rx : BitVec 34) (s : State) :
    Keeps s (logMap n link own gen flags tx rx s) := by
  unfold logMap
  split <;> simp

@[simp] theorem keeps_retestLink (n : Nat) (r : List LinkResult) (s : State) (link : Nat) : Keeps s (retestLink n r s link) := by
  simp [retestLink]

@[simp] theorem keeps_retest (n : Nat) (r : List LinkResult) (s : State) : Keeps s (retest n r s) := by simp [retest]

/-! #### Heat and power between commits -/

@[simp] theorem keeps_senseEvents (q : Nat) (old t : Therm) (s : State) : Keeps s (senseEvents q old t s) := by simp [senseEvents]

@[simp] theorem keeps_sampleStack (r : List SensorTriple) (s : State) (n : Nat) : Keeps s (sampleStack r s n) := by
  unfold sampleStack
  dsimp only [draw]
  split
  · exact keeps_foldl (fun t i => by simp) { s with fresh := s.fresh + 1 } _
  · exact keeps_foldl (fun t i => by simp) s _

@[simp] theorem keeps_abandonTick (cooling : Bool) (s : State) : Keeps s (abandonTick cooling s) := by
  unfold abandonTick
  split <;> simp

@[simp] theorem keeps_enterRack (cause : Nat) (s : State) : Keeps s (enterRack cause s) := by simp [enterRack]

@[simp] theorem keeps_coldCheck (s : State) : Keeps s (coldCheck s) := by simp [coldCheck]

@[simp] theorem keeps_coolChange (n : Nat) (s : State) : Keeps s (coolChange n s) := by simp [coolChange]

@[simp] theorem keeps_enterState (x : Pwr) (s : State) : Keeps s (enterState x s) := by simp [enterState]

/-! #### Integrity between commits -/

@[simp] theorem keeps_setError (s : State) (w : Nat) (uncorrectable : Bool) : Keeps s (s.setError w uncorrectable) := by
  simp [State.setError]

@[simp] theorem keeps_scrubLine (site line : Nat) (s : State) : Keeps s (scrubLine site line s) := by simp [scrubLine]

@[simp] theorem keeps_endPass (s : State) : Keeps s (endPass s) := by simp [endPass]

@[simp] theorem keeps_decideRemap (site bank row : Nat) (s : State) : Keeps s (decideRemap site bank row s) := by simp [decideRemap]

@[simp] theorem keeps_lastingWord (w : Nat) (uncorrectable : Bool) (s : State) : Keeps s (lastingWord w uncorrectable s) := by
  unfold lastingWord
  dsimp only
  repeat' split
  all_goals simp

@[simp] theorem keeps_halt (cause : Nat) (s : State) : Keeps s (halt cause s) := by simp [halt]

/-! #### Bring-up -/

@[simp] theorem keeps_addProof (r : ProofRec) (s : State) : Keeps s (addProof r s) := by simp [addProof]

@[simp] theorem keeps_stageRec (stage scope : Nat) (kind : StartKind) (result cause tested failed : Nat) (detail : List Nat) (s : State) :
    Keeps s (stageRec stage scope kind result cause tested failed detail s) := by
  refine Keeps.trans ?_ (keeps_addProof ..)
  dsimp only [draw]
  split <;> simp

@[simp] theorem keeps_finding (stage scope : Nat) (kind : StartKind) (unitC site ix source outcome flags detail : Nat) (log : Option Nat) (s : State) :
    Keeps s (finding stage scope kind unitC site ix source outcome flags detail log s) := by
  simp [finding]

@[simp] theorem keeps_endStage (stage next result cause tested failed : Nat) (s : State) :
    Keeps s (endStage stage next result cause tested failed s) := by
  simp [endStage]

@[simp] theorem keeps_failHalt (stage cause : Nat) (s : State) : Keeps s (failHalt stage cause s) := by simp [failHalt]

@[simp] theorem keeps_setCode (n c : Nat) (s : State) : Keeps s (setCode n c s) := by simp [setCode]

@[simp] theorem keeps_dropCode (n : Nat) (s : State) : Keeps s (dropCode n s) := by simp [dropCode]

@[simp] theorem keeps_nextStage (s : State) : Keeps s (nextStage s) := by
  unfold nextStage
  split <;> simp

@[simp] theorem keeps_armStop (s : State) : Keeps s (armStop s) := by simp [armStop]

@[simp] theorem keeps_readIndex (bad : List Nat) (s : State) : Keeps s (readIndex bad s) := by simp [readIndex]

@[simp] theorem keeps_trainLink (n : Nat) (r : List LinkResult) (s : State) (link : Nat) : Keeps s (trainLink n r s link) := by
  simp [trainLink]

@[simp] theorem keeps_trainStack (n : Nat) (r : List LinkResult) (s : State) : Keeps s (trainStack n r s) := by simp [trainStack]

@[simp] theorem keeps_laneFindings (n : Nat) (kind : StartKind) (s : State) : Keeps s (laneFindings n kind s) := by simp [laneFindings]

@[simp] theorem keeps_p3Stack (r : List LinkResult) (s : State) (e : Nat × Nat) : Keeps s (p3Stack r s e) := by simp [p3Stack]

@[simp] theorem keeps_trainPort (r : List LinkResult) (s : State) (p : Nat) : Keeps s (trainPort r s p) := by simp [trainPort]

@[simp] theorem keeps_coldWaits (n : Nat) (s : State) : Keeps s (coldWaits n s) := by simp [coldWaits]

@[simp] theorem keeps_reconcileSite (site : Nat) (s : State) : Keeps s (reconcileSite site s) := by simp [reconcileSite]

@[simp] theorem keeps_knownBad (scopes : List Nat) (s : State) : Keeps s (knownBad scopes s) := by simp [knownBad]

@[simp] theorem keeps_reconcileRows (scopes : List Nat) (s : State) : Keeps s (reconcileRows scopes s) := by simp [reconcileRows]

@[simp] theorem keeps_bootUnit (f : FaultSite) (s : State) : Keeps s (bootUnit f s) := by simp [bootUnit]

@[simp] theorem keeps_knownUnits (scopes : List Nat) (s : State) : Keeps s (knownUnits scopes s) := by simp [knownUnits]

@[simp] theorem keeps_mapUnits (scopes : List Nat) (s : State) : Keeps s (mapUnits scopes s) := by simp [mapUnits]

@[simp] theorem keeps_testBits (bad : List Nat) (s : State) : Keeps s (testBits bad s) := by simp [testBits]

@[simp] theorem keeps_reconcile (scopes : List Nat) (s : State) : Keeps s (reconcile scopes s) := by simp [reconcile]

@[simp] theorem keeps_adoptWork (s : State) : Keeps s (adoptWork s) := by simp [adoptWork]

@[simp] theorem keeps_rejectP7 (s : State) : Keeps s (rejectP7 s) := by simp [rejectP7]

@[simp] theorem keeps_resetRegisters (s : State) : Keeps s (resetRegisters s) := by simp [resetRegisters]

@[simp] theorem keeps_startForecast (s : State) : Keeps s (startForecast s) := by simp [startForecast]

@[simp] theorem keeps_leaveRack (s : State) : Keeps s (leaveRack s) := by simp [leaveRack]

/-! #### TLink -/

@[simp] theorem keeps_forward (kind : Nat) (p : Packet) (s : State) : Keeps s (forward kind p s) := by
  unfold forward
  split <;> simp

@[simp] theorem keeps_holdSource (port : Nat) (p : Packet) (s : State) : Keeps s (holdSource port p s) := by simp [holdSource]

@[simp] theorem keeps_takeInput (port : Nat) (p : Packet) (s : State) : Keeps s (takeInput port p s) := by
  unfold takeInput
  dsimp only
  repeat' split
  all_goals simp

@[simp] theorem keeps_journalRecord (j : JPend) (s : State) : Keeps s (journalRecord j s) := by
  unfold journalRecord
  dsimp only
  repeat' split
  all_goals simp

@[simp] theorem keeps_journalLost (j : JPend) (s : State) : Keeps s (journalLost j s) := by
  unfold journalLost
  dsimp only
  repeat' split
  all_goals simp

@[simp] theorem keeps_sendMore (n : Nat) (s : State) : Keeps s (sendMore n s) := by
  unfold sendMore
  split <;> simp

@[simp] theorem keeps_takeAck (p : Packet) (s : State) : Keeps s (takeAck p s) := by
  unfold takeAck
  dsimp only
  repeat' split
  all_goals simp

@[simp] theorem keeps_takeHold (p : Packet) (s : State) : Keeps s (takeHold p s) := by simp [takeHold]

@[simp] theorem keeps_takeRelease (p : Packet) (s : State) : Keeps s (takeRelease p s) := by simp [takeRelease]

@[simp] theorem keeps_linkUp (n : Nat) (peer : PeerInfo) (s : State) : Keeps s (linkUp n peer s) := by simp [linkUp]

/-! #### Supplies and the test access port -/

@[simp] theorem keeps_hostDown (s : State) : Keeps s (hostDown s) := by simp [hostDown]

@[simp] theorem keeps_portsDown (s : State) : Keeps s (portsDown s) := by simp [portsDown]

@[simp] theorem keeps_haltNow (cause : Nat) (s : State) : Keeps s (haltNow cause s) := by simp [haltNow]

@[simp] theorem keeps_lasersOff (s : State) : Keeps s (lasersOff s) := by simp [lasersOff]

@[simp] theorem keeps_tap (ir : BitVec 8) (data : BitVec 32) (s : State) : Keeps s (tap ir data s) := by simp [tap]

@[simp] theorem keeps_tapBypass (s : State) : Keeps s (tapBypass s) := by simp [tapBypass]

/-! #### The reserve as software writes it -/

@[simp] theorem keeps_noteRange (a n : Nat) (s : State) : Keeps s (noteRange a n s) := by
  unfold noteRange
  exact keeps_foldl (fun t l => by split <;> simp) _ _

@[simp] theorem keeps_putDesc (pfn : Nat) (b : List Byte) (s : State) : Keeps s (putDesc pfn b s) := by
  unfold putDesc
  dsimp only
  repeat' split
  all_goals simp

@[simp] theorem keeps_putPool (key : Nat) (b : List Byte) (s : State) : Keeps s (putPool key b s) := by simp [putPool]

@[simp] theorem keeps_putSeq (slot : Nat) (b : List Byte) (s : State) : Keeps s (putSeq slot b s) := by
  unfold putSeq
  refine Keeps.trans ?_ (keeps_foldl (fun t i => ?_) _ _)
  · simp
  · split <;> simp

@[simp] theorem keeps_putTable (stack n : Nat) (b : List Byte) (s : State) : Keeps s (putTable stack n b s) := by simp [putTable]

@[simp] theorem keeps_putKv (stack kind n : Nat) (b : List Byte) (s : State) : Keeps s (putKv stack kind n b s) := by
  unfold putKv
  split <;> simp

@[simp] theorem keeps_writeKv (stack v : Nat) (data : List Byte) (s : State) : Keeps s (writeKv stack v data s) := by simp [writeKv]

/-! #### The host's register writes -/

@[simp] theorem keeps_countBar2 (k : Nat) (s : State) : Keeps s (countBar2 k s) := by
  unfold countBar2
  split <;> simp

@[simp] theorem keeps_bar2Answer (code : Nat) (b : List Byte) (s : State) : Keeps s (bar2Answer code b s) := by simp [bar2Answer]

@[simp] theorem keeps_poisonLines (a n : Nat) (s : State) : Keeps s (poisonLines a n s) := by
  unfold poisonLines
  exact keeps_foldl (fun t l => by split <;> simp) _ _

@[simp] theorem keeps_cleanWords (a n : Nat) (s : State) : Keeps s (cleanWords a n s) := by
  unfold cleanWords
  exact keeps_foldl (fun t l => by split <;> simp) _ _

@[simp] theorem keeps_writeCodes (poisoned : Bool) (a n : Nat) (s : State) : Keeps s (writeCodes poisoned a n s) := by simp [writeCodes]

@[simp] theorem keeps_bar2Reserve (a : Nat) (data : List Byte) (poisoned : Bool) (s : State) : Keeps s (bar2Reserve a data poisoned s) := by
  simp [bar2Reserve]

@[simp] theorem keeps_regWrite (c : Change) (s : State) : Keeps s (regWrite c s) := by simp [regWrite]

@[simp] theorem keeps_markPending (c : Change) (s : State) : Keeps s (markPending c s) := by
  unfold markPending
  split <;> simp

@[simp] theorem keeps_selectSource (ext : Bool) (s : State) : Keeps s (selectSource ext s) := by simp [selectSource]

@[simp] theorem keeps_writeCtrl (v : BitVec 32) (s : State) : Keeps s (writeCtrl v s) := by
  unfold writeCtrl
  split <;> simp

@[simp] theorem keeps_writePeriod (v : BitVec 32) (s : State) : Keeps s (writePeriod v s) := by simp [writePeriod]

@[simp] theorem keeps_writeWrap (v : BitVec 32) (s : State) : Keeps s (writeWrap v s) := by simp [writeWrap]

@[simp] theorem keeps_writeRate (q : Nat) (stream : Bool) (v : BitVec 32) (s : State) : Keeps s (writeRate q stream v s) := by
  simp [writeRate]

@[simp] theorem keeps_writeSteps (v : BitVec 32) (s : State) : Keeps s (writeSteps v s) := by simp [writeSteps]

@[simp] theorem keeps_writeBudget (v : BitVec 32) (s : State) : Keeps s (writeBudget v s) := by simp [writeBudget]

@[simp] theorem keeps_writeWaves (v : BitVec 32) (s : State) : Keeps s (writeWaves v s) := by simp [writeWaves]

@[simp] theorem keeps_writeAddr (dims : Bool) (v : BitVec 32) (s : State) : Keeps s (writeAddr dims v s) := by simp [writeAddr]

@[simp] theorem keeps_writeBase (v : Nat) (s : State) : Keeps s (writeBase v s) := by simp [writeBase]

@[simp] theorem keeps_writeThermal (r : Nat) (v : BitVec 32) (s : State) : Keeps s (writeThermal r v s) := by simp [writeThermal]

@[simp] theorem keeps_clearCounters (c : Counters) (v : BitVec 32) (s : State) : Keeps s (clearCounters c v s) := by simp [clearCounters]

@[simp] theorem keeps_writeOnes (b : Block) (r : Nat) (v : BitVec 32) (s : State) : Keeps s (writeOnes b r v s) := by
  unfold writeOnes
  split <;> simp

@[simp] theorem keeps_writePlain (b : Block) (r : Nat) (v : BitVec 32) (s : State) : Keeps s (writePlain b r v s) := by
  unfold writePlain
  repeat' split
  all_goals simp

@[simp] theorem keeps_writeExpert (off : Nat) (v : BitVec 32) (s : State) : Keeps s (writeExpert off v s) := by
  unfold writeExpert
  repeat' split
  all_goals simp

/-! #### Mailboxes -/

@[simp] theorem keeps_countServed (mb : Nat) (s : State) : Keeps s (countServed mb s) := by simp [countServed]

@[simp] theorem keeps_answerUnknown (s : State) : Keeps s (answerUnknown s) := by simp [answerUnknown]

@[simp] theorem keeps_writeGo (n : Nat) (v : BitVec 32) (s : State) : Keeps s (writeGo n v s) := by simp [writeGo]

@[simp] theorem keeps_writeTail (n : Nat) (v : BitVec 32) (s : State) : Keeps s (writeTail n v s) := by simp [writeTail]

@[simp] theorem keeps_writeBoxWord (n r : Nat) (v : BitVec 32) (s : State) : Keeps s (writeBoxWord n r v s) := by
  unfold writeBoxWord
  split <;> simp

@[simp] theorem keeps_writeArea (n o : Nat) (b : List Byte) (s : State) : Keeps s (writeArea n o b s) := by simp [writeArea]

@[simp] theorem keeps_writeBox (n o size : Nat) (v : BitVec 64) (s : State) : Keeps s (writeBox n o size v s) := by simp [writeBox]

@[simp] theorem keeps_writeRegs (off size : Nat) (v : BitVec 64) (s : State) : Keeps s (writeRegs off size v s) := by simp [writeRegs]

@[simp] theorem keeps_complete (op : Nat) (m : Msg) (st : Status) (detail progress : Nat) (body : List W64) (s : State) :
    Keeps s (complete op m st detail progress body s) := by
  simp [complete]

@[simp] theorem keeps_completeData (op : Nat) (m : Msg) (st : Status) (progress : Nat) (body : List W64) (data : List Byte) (s : State) :
    Keeps s (completeData op m st progress body data s) := by
  simp [completeData]

@[simp] theorem keeps_accept (op : Nat) (m : Msg) (cs : List Change) (body : List W64) (s : State) : Keeps s (accept op m cs body s) := by
  simp [accept]

@[simp] theorem keeps_readItems (op : Nat) (m : Msg) (items : Items) (s : State) : Keeps s (readItems op m items s) := by simp [readItems]

/-! #### TICK_, QUOTA_, MEM_ and NET_ commands -/

@[simp] theorem keeps_clearBy (op : Nat) (m : Msg) (b : Block) (t : State) : Keeps t (clearBy op m b t) := by
  unfold clearBy
  split <;> simp

@[simp] theorem keeps_runMemRead (m : Msg) (s : State) : Keeps s (runMemRead m s) := by
  unfold runMemRead
  dsimp only [draw]
  split <;> simp

/-! #### LINK_, THERM_ and PWR_ commands -/

@[simp] theorem keeps_clearLatch (s : State) : Keeps s (clearLatch s) := by simp [clearLatch]

/-! #### SEC_ commands -/

@[simp] theorem keeps_rejectToken (fn : Nat) (s : State) : Keeps s (rejectToken fn s) := by simp [rejectToken]

@[simp] theorem keeps_openMiss (s : State) (m : Msg) (v : Status × Nat) (t : State) : Keeps t (openMiss s m v t) := by simp [openMiss]

@[simp] theorem keeps_runOpen (m : Msg) (s : State) : Keeps s (runOpen m s) := by simp [runOpen, draw]

/-! #### DBG_, FW_ and CAP_ commands -/

@[simp] theorem keeps_scanReset (q : Nat) (s : State) : Keeps s (scanReset q s) := by simp [scanReset]

@[simp] theorem keeps_fwRejected (n : Nat) (s : State) : Keeps s (fwRejected n s) := by simp [fwRejected]

@[simp] theorem keeps_imageMiss (s : State) (m : Msg) (v : Status × Nat) (t : State) : Keeps t (imageMiss s m v t) := by
  unfold imageMiss
  split <;> simp

/-! #### SEQ_ and KV_ commands -/

@[simp] theorem keeps_runIngest (m : Msg) (s : State) : Keeps s (runIngest m s) := by simp [runIngest]

theorem keeps_copied {c : Change} {s t : State} (h : s.copied c = some t) : Keeps s t := by
  rw [copies_some h]
  exact .refl s

@[simp] theorem keeps_acceptEdit (op : Nat) (m : Msg) (c : Change) (t : State) : Keeps t (acceptEdit op m c t) := by
  refine Keeps.trans ?_ (keeps_accept ..)
  cases h : t.copied c with
  | none => exact .refl t
  | some u => exact keeps_copied h

@[simp] theorem keeps_runDigest (m : Msg) (s : State) : Keeps s (runDigest m s) := by simp [runDigest]

/-! #### PLAN_ commands -/

@[simp] theorem keeps_runAdmit (op : Nat) (m : Msg) (t : State) : Keeps t (runAdmit op m t) := by simp [runAdmit]

@[simp] theorem keeps_runSuspend (m : Msg) (t : State) : Keeps t (runSuspend m t) := by simp [runSuspend]

/-! #### EVD_ commands and replay -/

@[simp] theorem keeps_runCapture (m : Msg) (t : State) : Keeps t (runCapture m t) := by simp [runCapture]

@[simp] theorem keeps_answerWith (mb : Nat) (st : Status) (t : State) : Keeps t (answerWith mb st t) := by simp [answerWith]

@[simp] theorem keeps_readFlagged (op : Nat) (m : Msg) (items : List EvdItem) (s : State) : Keeps s (readFlagged op m items s) := by
  simp [readFlagged]

@[simp] theorem keeps_runReplayTick (m : Msg) (t : State) : Keeps t (runReplayTick m t) := by
  unfold runReplayTick
  dsimp only [draw]
  split <;> simp

/-! #### Between attempts -/

/-- The bench memories and scratch of a row move; `after` is the state they are put in. -/
@[simp] theorem keeps_moveScratch (row : Nat) (before after : State) : Keeps after (moveScratch row before after) :=
  keeps_foldl (fun t col => by dsimp only; split <;> simp) _ _

@[simp] theorem keeps_shiftRow (j : ShiftJob) (s : State) : Keeps s (shiftRow j s) := by
  unfold shiftRow
  simp

@[simp] theorem keeps_patrolFailed (pass : Nat) (f : FaultSite) (s : State) : Keeps s (patrolFailed pass f s) := by simp [patrolFailed]

/-! ### Operations that write memory -/

@[simp] theorem steady_clearSites (f : Nat → Bool) (s : State) : Steady s (clearSites f s) := ⟨Mem.wf_filter _ s.dram, rfl, rfl, rfl⟩

@[simp] theorem steady_zeroUser (s : State) : Steady s (zeroUser s) := ⟨fun h => by simp [zeroUser, h], by simp [zeroUser]⟩

@[simp] theorem steady_loseContents (n : Nat) (poison : Bool) (s : State) : Steady s (loseContents n poison s) :=
  ⟨fun h => by simp [loseContents, h], by simp [loseContents]⟩

@[simp] theorem steady_putLine (s : State) (site loc : Nat) (bytes : List Byte) (poison : Bool) : Steady s (s.putLine site loc bytes poison) :=
  ⟨fun h => by simp [State.putLine, Mem.wf_write, h], by simp [State.putLine]⟩

@[simp] theorem steady_copyPage (l : Layout) (pageLog2 src dst n : Nat) (s : State) : Steady s (copyPage l pageLog2 src dst n s) := by
  unfold copyPage
  exact steady_foldl (fun _ _ => steady_putLine ..) _ _

@[simp] theorem steady_applyRetireFrame (pfn : Nat) (spare : Option Nat) (s : State) : Steady s (applyRetireFrame pfn spare s) := by
  unfold applyRetireFrame
  dsimp only
  split <;> split <;> exact ⟨fun h => by simp [h], by simp⟩

@[simp] theorem steady_zeroAll (s : State) : Steady s (zeroAll s) := by
  unfold zeroAll
  refine Steady.trans (steady_clearSites (fun _ => true) s) (Keeps.steady ?_)
  simp

/-- The last seals a device makes. -/
@[simp] theorem keeps_lastSeals (s : State) : Keeps s ((List.range 4).foldl (fun t _ => sealWith lastSign t) s) :=
  keeps_foldl (fun _ _ => keeps_sealWith keeps_lastSign _) s _

@[simp] theorem steady_doAction (c : Change) (s : State) : Steady s (doAction c s) := by
  unfold doAction
  split <;> exact ⟨fun h => by simp [h], by simp⟩

@[simp] theorem steady_runActions (s : State) : Steady s (runActions s) := by
  unfold runActions
  exact steady_foldl (fun _ _ => steady_doAction ..) { s with power := { s.power with actions := [] } } _

@[simp] theorem steady_putBytes (s : State) (site loc : Nat) (bytes : List Byte) : Steady s (s.putBytes site loc bytes) := by
  unfold State.putBytes
  exact steady_foldl (fun _ _ => steady_putLine ..) _ _

@[simp] theorem steady_moveImage (stack loc : Nat) (s : State) : Steady s (moveImage stack loc s) := by
  unfold moveImage
  exact steady_ite (.refl s) ((steady_putBytes ..).trans (Keeps.refl _).steady)

@[simp] theorem steady_retireReserve (site loc : Nat) (s : State) : Steady s (retireReserve site loc s) := by
  unfold retireReserve
  refine steady_ite (.refl s) (Steady.trans (Keeps.steady ?_) (steady_ite (steady_moveImage ..) (.refl _)))
  simp

@[simp] theorem steady_retireRequest (kind site loc : Nat) (s : State) : Steady s (retireRequest kind site loc s) := by
  unfold retireRequest
  refine steady_ite (.refl s) (Steady.trans (Keeps.steady ?_) (steady_retireReserve ..))
  simp

@[simp] theorem steady_copyRow (src dst : Nat) (s : State) : Steady s (copyRow src dst s) := by
  unfold copyRow
  refine Steady.trans (steady_foldl (fun t i => ?_) s (List.range 32)) (keeps_forgetRow ..).steady
  exact ⟨fun h => by simp [Mem.wf_write, h], by simp⟩

@[simp] theorem steady_remapOne (p : Nat × Nat × Nat) (s : State) : Steady s (remapOne p s) := by
  unfold remapOne
  dsimp only
  split
  · refine steady_ite (.refl s) (steady_ite (Steady.trans (keeps_putRemap ..).steady (steady_retireRequest ..)) ?_)
    split
    · exact steady_retireRequest ..
    · exact ⟨fun h => by simp [h], by simp⟩
  · split
    · exact ⟨fun h => by simp [h], by simp⟩
    · exact steady_retireRequest ..

@[simp] theorem steady_putStaged (w : Staged) (s : State) : Steady s (putStaged w s) := by
  unfold putStaged
  refine Steady.trans (t := { s with dram := w.data.foldl (fun m e => Mem.set m (s.phys w.site w.line + e.1) e.2) s.dram }) ?_ ?_
  · exact ⟨Mem.wf_foldl _ _ _ _, rfl, rfl, rfl⟩
  · exact Keeps.steady (by simp)

@[simp] theorem steady_writeCons (s : State) : Steady s (writeCons s) := by
  unfold writeCons
  refine steady_foldl (fun t e => steady_foldl (fun t sec => ?_) _ _) _ _
  split
  · exact .refl t
  · exact steady_ite (.refl t) ⟨fun h => by simp [Mem.wf_write, h], by simp⟩

@[simp] theorem steady_writeBack (mail : List Staged) (s : State) : Steady s (writeBack mail s) := by
  unfold writeBack
  refine Steady.trans ?_ (steady_writeCons _)
  refine Steady.trans ?_ (keeps_foldl (fun _ _ => keeps_setLine ..) _ _).steady
  refine Steady.trans ?_ (keeps_foldl (fun _ _ => keeps_devInc ..) _ _).steady
  refine Steady.trans ?_ (keeps_foldl (fun _ _ => keeps_rewriteLine ..) _ _).steady
  refine Steady.trans ?_ (keeps_foldl (fun _ _ => keeps_stagePoison ..) _ _).steady
  refine Steady.trans ?_ (steady_foldl (fun _ _ => steady_putStaged ..) _ _)
  refine Steady.trans ?_ (keeps_foldl (fun _ _ => keeps_awaitReread ..) _ _).steady
  exact steady_foldl (fun _ _ => steady_remapOne ..) _ _

@[simp] theorem steady_putPosition (l : Layout) (pfn k t : Nat) (bytes : Nat → Byte × Bool) (s : State) : Steady s (putPosition l pfn k t bytes s) := by
  unfold putPosition
  exact steady_foldl (fun _ _ => steady_putLine ..) _ _


theorem steady_restoreToken {slot gi : Nat} {l : Layout} {m : Move} {t : Nat} {s u : State} (h : restoreToken slot gi l m t s = some u) :
    Steady s u := by
  unfold restoreToken at h
  split at h
  · cases h
  · dsimp only at h
    split at h
    · cases h
      exact (steady_putPosition ..).trans (keeps_modGroup ..).steady
    · split at h
      · obtain ⟨v, hv, rfl⟩ := Option.map_eq_some_iff.1 h
        have hv := keeps_editLeaf hv
        refine Steady.trans ?_ (keeps_modGroup ..).steady
        refine Steady.trans ?_ (steady_putPosition ..)
        exact hv.steady.trans (Keeps.steady (by simp))
      · cases h

@[simp] theorem steady_finishMove (slot g : Nat) (x : Group) (m : Move) (s : State) : Steady s (finishMove slot g x m s) := by
  unfold finishMove
  split
  · exact .refl s
  · dsimp only
    split
    · exact .refl s
    · refine steady_ite (.refl s) ?_
      refine Steady.trans ?_ (Keeps.steady (keeps_foldl (fun t i => keeps_setEntry ..) _ _))
      refine Steady.trans ?_ ((keeps_leaveTables ..).trans (keeps_modGroup ..)).steady
      refine Steady.trans ?_ (steady_foldl (fun t p => ?_) _ _)
      · exact Keeps.steady (keeps_foldl (fun t i => by simp) _ _)
      · split
        · exact steady_putPosition ..
        · exact .refl t

@[simp] theorem steady_stepMove (slot gi : Nat) (s : State) : Steady s (stepMove slot gi s) := by
  unfold stepMove
  split
  · exact .refl _
  · split
    · rename_i m l _ _
      dsimp only [draw]
      refine steady_ite ?_ ?_
      · refine Steady.trans ?_ (keeps_modGroup ..).steady
        refine steady_foldlBy Prod.fst (fun a x => ?_) ({ s with fresh := s.fresh + 1 }, m.done) _
        split
        · exact .refl _
        · split
          · rename_i h
            exact steady_restoreToken h
          · exact .refl _
      · refine steady_ite (Steady.trans ?_ (steady_finishMove ..)) ?_ <;> exact Keeps.steady (by simp)
    · exact .refl _

@[simp] theorem steady_stepMoves (s : State) : Steady s (stepMoves s) := by
  unfold stepMoves
  refine steady_foldl (fun t e => ?_) _ _
  dsimp only
  have hmove : Steady t (if (e.2.isOpen && e.2.groups.any fun g => g.move.isSome) = true then
      (List.range e.2.groups.length).foldl (fun t g => stepMove e.1 g t) t else t) :=
    steady_ite (steady_foldl (fun _ _ => steady_stepMove ..) _ _) (.refl t)
  split
  · exact hmove.trans (keeps_setSeq ..).steady
  · exact hmove

@[simp] theorem steady_afterPublish (pre : State) (p : Portions) (s : State) : Steady s (afterPublish pre p s) := by
  unfold afterPublish
  have moved : Steady s (stepMoves (consumeJournal pre.seqr.tick (runActions (writeBack p.staged s)))) :=
    ((steady_writeBack ..).trans (steady_runActions _)).trans ((keeps_consumeJournal ..).steady.trans (steady_stepMoves _))
  exact moved.trans (Keeps.steady (by simp))

@[simp] theorem steady_applyFuse (site bank row : Nat) (s : State) : Steady s (applyFuse site bank row s) := by
  unfold applyFuse
  exact ⟨fun h => by simp [draw, Mem.wf_write, h], by simp [draw]⟩

@[simp] theorem steady_applyChange (c : Change) (s : State) : Steady s (applyChange c s) := by
  unfold applyChange
  split
  case h_48 => exact steady_applyFuse ..
  all_goals exact Keeps.steady (by simp)

@[simp] theorem steady_publishChanges (s : State) : Steady s (publishChanges s) := by
  unfold publishChanges
  exact steady_foldl (fun _ _ => steady_applyChange ..) { s with changes := [], regWrites := [], replayChanges := [] } _

@[simp] theorem steady_rejoinStack (n code : Nat) (s : State) : Steady s (rejoinStack n code s) := by
  unfold rejoinStack
  refine steady_ite ?_ (Steady.trans ?_ (steady_loseContents ..)) <;> exact Keeps.steady (by simp)

@[simp] theorem steady_rejoinStacks (s : State) : Steady s (rejoinStacks s) := by
  unfold rejoinStacks
  exact steady_foldl (fun _ _ => steady_rejoinStack ..) _ _

@[simp] theorem steady_publish (pre : State) (p : Portions) (s : State) : Steady s (publish pre p s) := by
  unfold publish
  have changed : Steady s { publishChanges (commitAppends s) with changes := p.left } :=
    ((keeps_commitAppends s).steady.trans (steady_publishChanges _)).trans (Keeps.refl _).steady
  have left : Keeps { publishChanges (commitAppends s) with changes := p.left }
      (publishOff (publishIsolated (publishSuspends { publishChanges (commitAppends s) with changes := p.left }))) := by simp
  exact ((changed.trans left.steady).trans (steady_rejoinStacks _)).trans (Keeps.steady (by simp))

@[simp] theorem steady_commitTick (s : State) : Steady s (commitTick s) := by
  unfold commitTick
  have published := (steady_publish s (memPortions s s.tickChanges) s).trans
    ((keeps_commitChain s _).steady.trans (steady_afterPublish s (memPortions s s.tickChanges) _))
  exact published.trans (Keeps.steady (by simp))

@[simp] theorem steady_commitNow (e : BoundaryEnv) (s : State) : Steady s (commitNow e s) := by
  unfold commitNow
  refine Steady.trans ?_ (steady_commitTick _)
  exact (Keeps.refl s).steady

@[simp] theorem steady_settleTick (e : BoundaryEnv) (s : State) : Steady s (settleTick e s) := by
  unfold settleTick
  split
  · split
    · exact (keeps_deferCommit ..).steady
    · exact steady_commitNow ..
  · split
    · exact steady_ite ((keeps_lastingCommit ..).steady.trans (steady_commitNow ..)) (keeps_deferCommit ..).steady
    · exact steady_commitNow ..
  all_goals exact Keeps.steady (by simp)

/-- A boundary counts itself and moves the time on; all that it then does keeps the clock. -/
theorem steady_takeBoundary (dt : Nat) (fly : Bool) (e : BoundaryEnv) (s : State) :
    Steady { s with seqr := { s.seqr with
        count := s.seqr.count + 1, time := s.seqr.time + dt, tickOut := s.seqr.tickOut + 1, flywheel := fly } }
      (takeBoundary dt fly e s) := by
  unfold takeBoundary
  generalize { s with seqr := _ } = t
  have latched : Keeps t (benchLatch (takeSource t)) := by simp
  exact (latched.steady.trans (steady_settleTick e _)).trans (Keeps.steady (by simp))

theorem steady_cutDram (s : State) : Steady s (cutDram s) := by
  unfold cutDram
  refine steady_ite (steady_foldl (fun t n => ?_) _ _) (.refl s)
  exact (keeps_setStack ..).steady.trans (steady_loseContents ..)

@[simp] theorem steady_storeImage (image : List Byte) (s : State) : Steady s (storeImage image s) := by
  unfold storeImage
  refine Steady.trans (steady_foldl (fun t e => ?_) _ _) (Keeps.refl _).steady
  exact (steady_clearSites ..).trans (steady_putBytes ..)

@[simp] theorem steady_p4Row (kind : StartKind) (n : Nat) (f : RowFinding) (p : State × Nat × Nat) : Steady p.1 (p4Row kind n f p).1 := by
  unfold p4Row
  exact ⟨fun h => by simp [h], by simp⟩

@[simp] theorem steady_p4Stack (n : Nat) (r : P4Result) (s : State) : Steady s (p4Stack n r s) := by
  unfold p4Stack
  dsimp only
  generalize hq : List.foldl (fun p f => p4Row (stkKind s n) n f p) _ r.rows = q
  have rows : Steady s q.1 := by
    subst hq
    refine Steady.trans ?_ (steady_foldlBy Prod.fst (fun _ _ => steady_p4Row ..) _ _)
    exact (steady_clearSites (fun x => x / 256 == n) s).trans (Keeps.refl _).steady
  exact (rows.trans (steady_clearSites (fun x => x / 256 == n) q.1)).trans (Keeps.steady (by simp))

@[simp] theorem steady_backFromCut (n : Nat) (s : State) : Steady s (backFromCut n s) := by
  unfold backFromCut
  exact steady_ite ⟨fun h => by simp [h], by simp⟩ (.refl s)

@[simp] theorem steady_p6Status (s : State) : Steady s (p6Status s) := by
  unfold p6Status
  refine Steady.trans (steady_foldl (fun t e => ?_) _ _) (Keeps.refl _).steady
  exact (keeps_setStack ..).steady.trans (steady_backFromCut ..)

@[simp] theorem steady_p6Device (s : State) : Steady s (p6Device s) := by
  unfold p6Device
  dsimp only
  generalize ht : applyDrains _ = t
  have drained : Keeps s t := ht ▸ by simp
  refine (drained.steady.trans (steady_p6Status t)).trans (Keeps.steady ?_)
  simp

@[simp] theorem steady_stackTimeout (n : Nat) (s : State) : Steady s (stackTimeout n s) := by
  unfold stackTimeout
  split
  case h_2 => exact (steady_clearSites (fun x => x / 256 == n) s).trans (Keeps.steady (by simp))
  all_goals exact Keeps.steady (by simp)

@[simp] theorem steady_bar2Word (site loc lo hi : Nat) (bytes : List Byte) (s : State) : Steady s (bar2Word site loc lo hi bytes s) := by
  unfold bar2Word
  dsimp only
  generalize ht : (if lo = 0 ∧ hi = 8 then s else _) = t
  have noted : Keeps s t := by
    subst ht
    refine keeps_ite (.refl s) ?_
    split <;> simp
  exact noted.steady.trans ⟨fun h => by simp [Mem.wf_write, h], by simp⟩

@[simp] theorem steady_bar2Words (a : Nat) (data : List Byte) (s : State) : Steady s (bar2Words a data s) := by
  unfold bar2Words
  refine steady_foldl (fun t i => ?_) _ _
  dsimp only
  split
  · exact steady_bar2Word ..
  · exact .refl t

@[simp] theorem steady_passP7 (image measurement : List Byte) (svn : Nat) (s : State) : Steady s (passP7 image measurement svn s) := by
  unfold passP7
  exact (steady_storeImage image s).trans (Keeps.steady (by simp))

/-! ### Operations of tile and crumb programs -/

/-- What an operation gives, where it gives anything, has the property. -/
structure Gives {ε α : Type} (P : α → Prop) (r : Except ε α) : Prop where
  of : ∀ x, r = .ok x → P x

namespace Gives

variable {ε α β : Type} {P : β → Prop}

theorem ok {x : β} (h : P x) : Gives P (Except.ok x : Except ε β) := ⟨fun _ hy => Except.ok.inj hy ▸ h⟩

theorem error {e : ε} : Gives P (Except.error e : Except ε β) := ⟨nofun⟩

/-- What follows a step need only be looked at from what that step gives. -/
theorem bindOf {Q : α → Prop} {r : Except ε α} {f : α → Except ε β} (hr : Gives Q r) (h : ∀ x, Q x → Gives P (f x)) :
    Gives P (r >>= f) := by
  cases r with
  | ok x => exact h x (hr.of x rfl)
  | error e => exact error

theorem bind {r : Except ε α} {f : α → Except ε β} (h : ∀ x, Gives P (f x)) : Gives P (r >>= f) :=
  bindOf (Q := fun _ => True) ⟨fun _ _ => trivial⟩ fun x _ => h x

theorem ite {p : Prop} [Decidable p] {a b : Except ε β} (ha : Gives P a) (hb : Gives P b) : Gives P (if p then a else b) := by
  split
  · exact ha
  · exact hb

theorem foldlM {f : β → α → Except ε β} (h : ∀ a x, P a → Gives P (f a x)) {a : β} (ha : P a) (l : List α) : Gives P (l.foldlM f a) := by
  induction l generalizing a with
  | nil => exact ok ha
  | cons x l ih => exact bindOf (h a x ha) fun b hb => ih hb

end Gives

theorem keeps_startXfer (c : Lcid) (k : CoreCtx) (x : SliceXfer) (s : State) : Keeps s (startXfer c k x s).2 := by
  unfold startXfer
  exact ((keeps_setCore ..).trans (keeps_issuePieces ..)).trans (keeps_modXfer ..)

theorem keeps_startNet (c : Lcid) (k : CoreCtx) (batch : Nat) (x : NetXfer) (s : State) : Keeps s (startNet c k batch x s).2 := by
  unfold startNet
  dsimp only
  split <;> split <;> simp

theorem keeps_startCrumb (c : Lcid) (k : CoreCtx) (use at_ mask src dst : Nat) (flits : List (Nat × List Byte × Bool)) (s : State) :
    Keeps s (startCrumb c k use at_ mask src dst flits s).2 := by
  unfold startCrumb
  exact (keeps_setCore ..).trans (keeps_inject ..)

theorem keeps_launch (c : Lcid) (k : CoreCtx) (x : NetXfer) (s : State) : Keeps s (launch c k x s).2 := by
  unfold launch
  exact (keeps_startNet ..).trans (keeps_foldl (fun _ _ => keeps_leaveDest ..) _ _)

theorem keeps_endWalk (c : Lcid) (o : Op) (k : CoreCtx) (p : WalkP) (st : Status) (rows : List PartRow) (fl : Fl)
    (visited skipped pte : Nat) (s : State) : Keeps s (endWalk c o k p st rows fl visited skipped pte s).2 := by
  simp [endWalk]

theorem gives_bodyBr (o : Op) (s : State) (k : CoreCtx) : Gives (fun p => Keeps s p.2) (bodyBr o s k) := by
  unfold bodyBr
  refine .bind fun _ => .bind fun _ => .ite (.bind fun _ => .ok (.refl s)) (.ok (.refl s))

theorem gives_bodyCall (o : Op) (s : State) (k : CoreCtx) : Gives (fun p => Keeps s p.2) (bodyCall o s k) :=
  .bind fun _ => .bind fun _ => .ok (.refl s)

theorem gives_bodyRet (s : State) (k : CoreCtx) : Gives (fun p => Keeps s p.2) (bodyRet s k) :=
  .bind fun _ => .bind fun _ => .bind fun _ => .bind fun _ => .ok (.refl s)

theorem gives_bodyLoop (o : Op) (s : State) (k : CoreCtx) : Gives (fun p => Keeps s p.2) (bodyLoop o s k) :=
  .bind fun _ => .bind fun _ => .ite (.ok (.refl s)) (.bind fun _ => .ok (.refl s))

theorem gives_bodyTload (c : Lcid) (o : Op) (s : State) (k : CoreCtx) : Gives (fun p => Keeps s p.2) (bodyTload c o s k) := by
  unfold bodyTload
  iterate 7 refine .bind fun _ => ?_
  refine .ite (.bind fun _ => ?_) (.bind fun _ => .ok (keeps_startXfer ..))
  split
  · exact .ok (.refl s)
  · exact .bind fun _ => .ok (keeps_startXfer ..)

theorem gives_bodyTstore (c : Lcid) (o : Op) (s : State) (k : CoreCtx) : Gives (fun p => Keeps s p.2) (bodyTstore c o s k) := by
  unfold bodyTstore
  iterate 7 refine .bind fun _ => ?_
  exact .ok (keeps_startXfer ..)

theorem gives_bodySld (c : Lcid) (o : Op) (s : State) (k : CoreCtx) : Gives (fun p => Keeps s p.2) (bodySld c o s k) := by
  unfold bodySld
  iterate 4 refine .bind fun _ => ?_
  split
  · exact .ok (.refl s)
  · exact .bind fun _ => .ok (keeps_startXfer ..)

theorem gives_bodyTin (o : Op) (s : State) (k : CoreCtx) : Gives (fun p => Keeps s p.2) (bodyTin o s k) := by
  unfold bodyTin
  iterate 3 refine .bind fun _ => ?_
  split
  · exact .ok (.refl s)
  · exact .bind fun _ => .bind fun _ => .ok (.refl s)

theorem gives_bodyRgate (c : Lcid) (o : Op) (s : State) (k : CoreCtx) : Gives (fun p => Keeps s p.2) (bodyRgate c o s k) := by
  unfold bodyRgate
  iterate 10 refine .bind fun _ => ?_
  exact .ok (by simp)

theorem gives_sendRow (c : Lcid) (batch : Nat) (dests : List Lcid) (ret : Nat) (w : BitVec 128) (l : List Byte) (poison : Bool)
    {s : State} (p : CoreCtx × State) (h : Keeps s p.2) : Gives (fun p => Keeps s p.2) (sendRow c batch dests ret w l poison p) :=
  .bind fun _ => .ok (h.trans (keeps_startNet ..))

theorem gives_bodyRsend (c : Lcid) (o : Op) (s : State) (k : CoreCtx) : Gives (fun p => Keeps s p.2) (bodyRsend c o s k) := by
  unfold bodyRsend
  iterate 5 refine .bind fun _ => ?_
  refine .bindOf (.foldlM (fun _ _ h => gives_sendRow _ _ _ _ _ _ _ _ h) (.refl s) _) fun p hp => ?_
  refine .bindOf (Q := fun p => Keeps s p.2) (.ite (.foldlM (fun _ _ h => gives_sendRow _ _ _ _ _ _ _ _ h) hp _) (.ok hp)) fun q hq => ?_
  exact .ok (hq.trans (by simp))

theorem gives_bodyRret (c : Lcid) (o : Op) (s : State) (k : CoreCtx) : Gives (fun p => Keeps s p.2) (bodyRret c o s k) := by
  unfold bodyRret
  iterate 6 refine .bind fun _ => ?_
  exact .bindOf (.foldlM (fun _ _ h => gives_sendRow _ _ _ _ _ _ _ _ h) (.refl s) _) fun p hp => .ok hp

theorem gives_bodyRexit (o : Op) (s : State) (k : CoreCtx) : Gives (fun p => Keeps s p.2) (bodyRexit o s k) := by
  unfold bodyRexit
  iterate 4 refine .bind fun _ => ?_
  exact .ok (by simp)

theorem gives_runWalk (c : Lcid) (o : Op) (k : CoreCtx) (s : State) (cfg : ScoreCfg) (l : Layout) (p : WalkP) (g : Group) :
    Gives (fun p => Keeps s p.2) (runWalk c o k s cfg l p g) := by
  unfold runWalk
  iterate 4 refine .bind fun _ => ?_
  exact .ite (.ok (keeps_payPieces ..)) (.ok (((keeps_payPieces ..).trans (keeps_noteTables ..)).trans (keeps_endWalk ..)))

theorem gives_bodySwalk (c : Lcid) (o : Op) (s : State) (k : CoreCtx) : Gives (fun p => Keeps s p.2) (bodySwalk c o s k) := by
  unfold bodySwalk
  iterate 8 refine .bind fun _ => ?_
  split
  · exact .bind fun _ => .bind fun _ => gives_runWalk ..
  · exact .ok (keeps_endWalk ..)

theorem gives_bodyCvec (c : Lcid) (o : Op) (s : State) (k : CoreCtx) : Gives (fun p => Keeps s p.2) (bodyCvec c o s k) := by
  unfold bodyCvec
  iterate 5 refine .bind fun _ => ?_
  refine .ite (.ok (.refl s)) ?_
  iterate 3 refine .bind fun _ => ?_
  exact .ite (.ok ((keeps_sliceTokens ..).trans (keeps_putVec ..))) (.ok ((keeps_sliceTokens ..).trans (keeps_startCrumb ..)))

theorem gives_bodyCissue (c : Lcid) (o : Op) (s : State) (k : CoreCtx) : Gives (fun p => Keeps s p.2) (bodyCissue c o s k) := by
  unfold bodyCissue
  iterate 6 refine .bind fun _ => ?_
  exact .ite (.ok (.refl s)) (.bind fun _ => .ite (.ok (.refl s)) (.ok (keeps_startCrumb ..)))

theorem gives_bodyNput (c : Lcid) (o : Op) (s : State) (k : CoreCtx) : Gives (fun p => Keeps s p.2) (bodyNput c o s k) := by
  unfold bodyNput
  iterate 8 refine .bind fun _ => ?_
  exact .ok (keeps_launch ..)

theorem gives_bodyMcast (c : Lcid) (o : Op) (s : State) (k : CoreCtx) : Gives (fun p => Keeps s p.2) (bodyMcast c o s k) := by
  unfold bodyMcast
  iterate 5 refine .bind fun _ => ?_
  split
  · exact .error
  · exact .bind fun _ => .bind fun _ => .bind fun _ => .ok (keeps_launch ..)

theorem gives_bodyFold (c : Lcid) (o : Op) (s : State) (k : CoreCtx) : Gives (fun p => Keeps s p.2) (bodyFold c o s k) := by
  unfold bodyFold
  refine .bind fun _ => ?_
  split
  · exact .error
  · refine .bind fun _ => .ite (.bind fun _ => .bind fun _ => .bind fun _ => ?_)
      (.bind fun _ => .bind fun _ => .bind fun _ => .bind fun _ => ?_) <;>
    · refine .bind fun _ => .bind fun _ => .ok ?_
      exact ((keeps_setCore ..).trans (keeps_sendFold ..)).trans (keeps_modNet ..)

theorem gives_bodyStsend (c : Lcid) (o : Op) (s : State) (k : CoreCtx) : Gives (fun p => Keeps s p.2) (bodyStsend c o s k) := by
  unfold bodyStsend
  iterate 8 refine .bind fun _ => ?_
  exact .ok (keeps_launch ..)

theorem gives_bodyHalt (c : Lcid) (s : State) (k : CoreCtx) : Gives (fun p => Keeps s p.2) (bodyHalt c s k) := by
  unfold bodyHalt
  exact .bind fun _ => .bind fun _ => .ok (.refl s)

theorem gives_bodyEndProgram (s : State) (c : Lcid) (j : CrumbJob) (v : CrumbUnit) :
    Gives (fun p => Keeps s p.2.2) (bodyEndProgram s c j v) := .ok (keeps_modJob ..)

theorem gives_bodyMv (u : UnitId) (o : CrumbOp) (s : State) (c : Lcid) (j : CrumbJob) (v : CrumbUnit) :
    Gives (fun p => Keeps s p.2.2) (bodyMv u o s c j v) := by
  unfold bodyMv
  split
  · exact .error
  · refine .bind fun _ => .ok ?_
    refine keeps_ite ?_ (Keeps.trans ?_ (keeps_setCore ..)) <;>
      exact keeps_foldl (fun _ _ => keeps_foldl (fun _ _ => keeps_noteCrumbWord ..) _ _) _ _

theorem gives_bodyClra (o : CrumbOp) (s : State) (c : Lcid) (j : CrumbJob) (v : CrumbUnit) :
    Gives (fun p => Keeps s p.2.2) (bodyClra o s c j v) := .bind fun _ => .ok (.refl s)

theorem gives_bodyRetv (u : UnitId) (o : CrumbOp) (s : State) (c : Lcid) (j : CrumbJob) (v : CrumbUnit) :
    Gives (fun p => Keeps s p.2.2) (bodyRetv u o s c j v) := by
  unfold bodyRetv
  refine .bind fun _ => ?_
  dsimp only
  generalize hp : (if (v.reg o.qb).toNat = 0 then (s, true) else _) = p
  have paid : Keeps s p.1 := by
    subst hp
    split
    · exact .refl s
    · exact keeps_sliceTokens ..
  refine .ite .error (.ite (.ok ?_) (.ok ?_))
  · exact (paid.trans (keeps_modJob ..)).trans (keeps_setCore ..)
  · exact (paid.trans (keeps_modJob ..)).trans (keeps_startCrumb ..)

theorem keeps_stageLines64 {u : UnitId} {order : List Nat} {off : Nat} {l : List (Byte × Bool)} {s t : State}
    (h : stageLines64 u order off l s = some t) : Keeps s t := by
  refine List.foldlRecOn (motive := fun a => ∀ t, a = some t → Keeps s t) _ _ ?_ (fun a ha i _ t ht => ?_) t h
  · rintro _ ⟨⟩
    exact .refl s
  · obtain ⟨v, hv, ht⟩ := Option.bind_eq_some_iff.1 ht
    exact (ha v hv).trans (keeps_stageLine ht)

theorem gives_bodyStv (u : UnitId) (o : CrumbOp) (s : State) (c : Lcid) (j : CrumbJob) (v : CrumbUnit) :
    Gives (fun p => Keeps s p.2.2) (bodyStv u o s c j v) := by
  unfold bodyStv
  refine .bind fun _ => ?_
  split
  · exact .error
  · rename_i t h
    exact .ok (keeps_stageLines64 h)

theorem gives_bodyCrumbLoop (o : CrumbOp) (s : State) (c : Lcid) (j : CrumbJob) (v : CrumbUnit) :
    Gives (fun p => Keeps s p.2.2) (bodyCrumbLoop o s c j v) :=
  .bind fun _ => .ite (.ok (.refl s)) (.ok (.refl s))

theorem keeps_shadowPage {p : NewPage} {s t : State} (h : shadowPage p s = some t) : Keeps s t := by
  obtain ⟨u, hu, rfl⟩ := Option.map_eq_some_iff.1 h
  exact (keeps_copyLeaf hu).trans (.refl _)

theorem steady_pageFor (c : Lcid) (l : Layout) (slot grp : Nat) (g : Group) (t : Nat) (s : State) :
    Steady s (pageFor c l slot grp g t s).2.1 := by
  unfold pageFor
  extract_lets n take
  have taken (split : Option Nat) : Keeps s (take split).2 := by
    unfold take
    split
    · exact .refl s
    · split
      · exact .refl s
      · rename_i h
        exact (keeps_shadowPage h).trans (.refl _)
  split
  · exact .refl s
  · split
    · exact (taken none).steady
    · split
      · exact (taken none).steady
      · split
        · exact .refl s
        · split
          · split
            · rename_i h
              exact (keeps_shadowPage h).steady
            · exact .refl s
          · rename_i e _ _ _ _
            have shared := taken (some e.pfn)
            split
            · rename_i h
              rw [h] at shared
              exact (shared.steady.trans (steady_copyPage ..)).trans (keeps_inc ..).steady
            · rename_i h
              rw [h] at shared
              exact shared.steady

theorem keeps_stageAppend {c : Lcid} {order pfn : Nat} {bytes : List (Nat × Byte × Bool)} {s t : State}
    (h : stageAppend c order pfn bytes s = some t) : Keeps s t := by
  refine List.foldlRecOn (motive := fun a => ∀ t, a = some t → Keeps s t) _ _ ?_ (fun a ha i _ t ht => ?_) t h
  · rintro _ ⟨⟩
    exact .refl s
  · cases a with
    | none => cases ht
    | some v => exact (ha v rfl).trans (keeps_stageLine ht)

theorem steady_appendToken (c : Lcid) (k : CoreCtx) (l : Layout) (g : Group) (slot grp head src count order base : Nat) (a : AppAcc)
    (i : Nat) : Steady a.st (appendToken c k l g slot grp head src count order base a i).st := by
  have page := steady_pageFor c l slot grp g (base + i) a.st
  unfold appendToken
  split
  · exact .refl _
  · dsimp only
    split
    · exact .refl _
    · split <;> rename_i h <;> rw [h] at page
      · exact page.trans (Keeps.steady (by simp))
      · exact page
      · split
        · exact .refl _
        · rename_i h
          exact page.trans (keeps_stageAppend h).steady

theorem gives_bodySappend (c : Lcid) (o : Op) (s : State) (k : CoreCtx) : Gives (fun p => Steady s p.2) (bodySappend c o s k) := by
  unfold bodySappend
  iterate 7 refine .bind fun _ => ?_
  extract_lets finish
  have finished (k st n splits bad t) : (finish k st n splits bad t).2 = t := rfl
  split
  · exact .ok (.refl s)
  · refine .bind fun _ => .bind fun _ => .ite (.ok (.refl s)) ?_
    extract_lets base run r due
    have ran (t : State) : Steady t (run t).st :=
      steady_foldlBy AppAcc.st (fun a i => steady_appendToken ..) { st := t, placed := [], copies := [], status := .ok, full := false }
        _
    have paid := (keeps_payPieces c (due.drop k.paid) k.paid s).steady
    refine .bind fun _ => .ite (.ok paid) (.ok ?_)
    dsimp only
    rw [finished]
    exact (paid.trans (ran _)).trans (Keeps.steady (by simp))

/-! ### What a command gives -/

/-- The next state a command gives, where it gives one, holds memory in its canonical form where the state before did. -/
structure FormKept (s : State) (r : Out) : Prop where
  of : ∀ t, r = .next t → Mem.wf s.dram = true → Mem.wf t.dram = true

namespace FormKept

variable {s t : State} {a b : Out}

theorem ofForm (h : Mem.wf s.dram = true → Mem.wf t.dram = true) : FormKept s (.next t) :=
  ⟨fun _ hu => Host.Outcome.next.inj hu ▸ h⟩

/-- A next state with the memory of the state before. -/
theorem same (h : t.dram = s.dram) : FormKept s (.next t) := ofForm fun hw => h ▸ hw

theorem skip (s : State) : FormKept s (skip s) := same rfl

/-- A command that waits, or takes place with the form kept. -/
theorem whenForm {p : Bool} (h : Mem.wf s.dram = true → Mem.wf t.dram = true) : FormKept s (Machine.when p s t) := by
  cases p
  · exact same rfl
  · exact ofForm h

theorem when {p : Bool} (h : t.dram = s.dram) : FormKept s (Machine.when p s t) := whenForm fun hw => h ▸ hw

theorem ite {p : Prop} [Decidable p] (ha : FormKept s a) (hb : FormKept s b) : FormKept s (if p then a else b) := by
  split
  · exact ha
  · exact hb

theorem unit {p : Bool} (h : FormKept s a) : FormKept s (unit p a) := ⟨fun u hu => h.of u (unit_next hu).2⟩

/-- A tile instruction whose operation keeps the form: its completion and the fault of its core keep the memory. -/
theorem issueForm {c : Lcid} {op : BitVec 8} {h : Shape} {o : Op} {body : CoreCtx → Tr (CoreCtx × State)}
    (hb : ∀ k, Gives (fun p => Mem.wf s.dram = true → Mem.wf p.2.dram = true) (body k)) : FormKept s (issue c op h o s body) := by
  refine ⟨fun t ht hw => ?_⟩
  obtain rfl | ⟨k, u, hu, rfl⟩ | ⟨cause, rfl⟩ := issue_next ht
  · exact hw
  · simpa using (hb _).of _ hu hw
  · simpa using hw

theorem issue {c : Lcid} {op : BitVec 8} {h : Shape} {o : Op} {body : CoreCtx → Tr (CoreCtx × State)}
    (hb : ∀ k, Gives (fun p => Keeps s p.2) (body k)) : FormKept s (issue c op h o s body) :=
  issueForm fun k => ⟨fun p hp => ((hb k).of p hp).steady.1⟩

theorem issueK {c : Lcid} {op : BitVec 8} {h : Shape} {o : Op} {body : CoreCtx → Tr CoreCtx} : FormKept s (issueK c op h o s body) :=
  issue fun _ => .bind fun _ => .ok (.refl s)

theorem crumbRun {u : UnitId} {op : BitVec 6} {d a b : Bool} {imms : BitVec 17} {o : CrumbOp}
    {body : Lcid → CrumbJob → CrumbUnit → Except CStop (CrumbUnit × Nat × State)}
    (hb : ∀ c j v, Gives (fun p => Keeps s p.2.2) (body c j v)) : FormKept s (crumbRun u op d a b imms o s body) := by
  refine ⟨fun t ht hw => ?_⟩
  obtain rfl | ⟨c, j, -, rfl | rfl | rfl | ⟨v, n, w, hbody, rfl⟩⟩ := crumbRun_next ht
  · exact hw
  · simpa using hw
  · simpa using hw
  · simpa using hw
  · have hkept : w.dram = s.dram := ((hb c j _).of _ hbody).1
    split <;> simpa [hkept] using hw

theorem crumbUnitOp {u : UnitId} {op : BitVec 6} {d a b : Bool} {imms : BitVec 17} {o : CrumbOp} {f : CrumbUnit → Except CStop CrumbUnit} :
    FormKept s (crumbUnitOp u op d a b imms o s f) :=
  crumbRun fun _ _ _ => .bind fun _ => .ok (.refl s)

theorem arrive {kind : BitVec 4} {f : NetFlit} {bad : List Nat} {k : State → State} (hk : ∀ t, Keeps t (k t)) :
    FormKept s (arrive kind f bad s k) := by
  refine ⟨fun t ht hw => ?_⟩
  obtain rfl | ⟨u, rfl, rfl | ⟨r, rfl⟩ | ⟨v, rfl | rfl, rfl | rfl⟩⟩ := arrive_next ht
  · exact hw
  all_goals simpa [(hk _).1] using hw

theorem arriveFrame {kind : BitVec 4} {f : NetFrame} {bad : Nat} {k : State → State} (hk : ∀ t, Keeps t (k t)) :
    FormKept s (arriveFrame kind f bad s k) := by
  refine ⟨fun t ht hw => ?_⟩
  obtain rfl | rfl | rfl | rfl | rfl := arriveFrame_next ht
  · exact hw
  all_goals simpa [(hk _).1] using hw

theorem takePacket {kind port : Nat} {p : Packet} {bad : Nat} {stale k : State → State} (hs : ∀ t, Keeps t (stale t))
    (hk : ∀ t, Keeps t (k t)) : FormKept s (takePacket kind port p bad stale k s) := by
  have hacts : ∀ t, Keeps t (if p.destDev.toNat % 512 ≠ s.cfg.devAddr.toNat then forward kind p t
      else if (tagAge s.seqr.count p.tag).isNone then stale t else k t) :=
    fun t => keeps_ite (keeps_forward ..) (keeps_ite (hs t) (hk t))
  refine unit (ite (ite (same ?_) (same ((hacts _).1.trans ?_))) (skip s)) <;> simp

/-- A mailbox command whose answer to a refusal keeps the memory and whose effect keeps its form. -/
theorem cmdElse {op len : Nat} {a : State → Auth} {m : Msg} {c : State → Check} {miss : State → Status × Nat → State → State}
    {run : State → State} (hmiss : ∀ u v t, Keeps t (miss u v t)) (hrun : ∀ t, Steady t (run t)) :
    FormKept s (serveCmd (Machine.cmdElse op len a m c miss run) s) := by
  refine unit (ite ?_ (skip s))
  split
  · exact same (by simp [(hmiss _ _ _).1, Cmd.served, Machine.cmdElse])
  · exact ofForm fun hw => (hrun _).1 (by simpa [Cmd.served] using hw)

/-- A mailbox command whose effect keeps the memory. -/
theorem cmd {op len : Nat} {a : State → Auth} {m : Msg} {c : State → Check} {run : State → State} (hrun : ∀ t, Keeps t (run t)) :
    FormKept s (serveCmd (Machine.cmd op len a m c run) s) :=
  cmdElse (fun _ _ t => .refl t) fun t => (hrun t).steady

end FormKept

/-! ### Commands with branches of their own -/

/-- A boundary keeps the form of memory. -/
theorem takeBoundary_form (dt : Nat) (fly : Bool) (e : BoundaryEnv) {s t : State} (h : t.dram = s.dram) (hw : Mem.wf s.dram = true) :
    Mem.wf (takeBoundary dt fly e t).dram = true := (steady_takeBoundary dt fly e t).1 (h ▸ hw)

theorem formKept_tickInEdge (dt high : Nat) (e : BoundaryEnv) (s : State) : FormKept s (execTickInEdge dt high e s) :=
  .ite (.ite (.same (by simp)) (.ite (.ofForm (takeBoundary_form _ _ _ rfl)) (.skip s))) (.skip s)

theorem formKept_flywheelBoundary (e : BoundaryEnv) (s : State) : FormKept s (execFlywheelBoundary e s) :=
  .ite (.ite (.ofForm (takeBoundary_form _ _ _ (by simp))) (.ofForm (takeBoundary_form _ _ _ (by simp)))) (.skip s)

theorem formKept_sensorSample (r : List SensorTriple) (s : State) : FormKept s (execSensorSample r s) := by
  refine .ite (.ofForm (Steady.trans (Steady.trans (Keeps.steady ?_) (steady_cutDram _)) (Keeps.refl _).steady).1) (.skip s)
  simp

theorem formKept_firmwareHandover (ok : Bool) (s : State) : FormKept s (execFirmwareHandover ok s) := by
  unfold execFirmwareHandover
  split
  · rename_i f _ _
    have stored := steady_storeImage f.image s
    refine .ite (.skip s) (.ite (.ofForm (stored.trans (Keeps.steady ?_)).1) (.same ?_)) <;> simp
  · exact .skip s

theorem formKept_stageP4 (scope : Nat) (r : P4Result) (s : State) : FormKept s (execStageP4 scope r s) :=
  .unit (.ite (.ite (.same (by simp)) (.ofForm ((steady_p4Stack scope r s).trans (Keeps.steady (by simp))).1)) (.skip s))

theorem formKept_stageP6 (scope : Nat) (s : State) : FormKept s (execStageP6 scope s) :=
  .unit (.ite (.skip s) (.ite (.whenForm (steady_p6Device s).1) (.ite (.same (by simp)) (.skip s))))

theorem formKept_stageTimeout (scope : Nat) (s : State) : FormKept s (execStageTimeout scope s) := by
  have timeouts (l : List Nat) : Steady s (l.foldl (fun t k => stackTimeout k t) s) := steady_foldl (fun _ _ => steady_stackTimeout ..) s l
  refine .unit (.ite (.skip s) (.ite ?_ ?_))
  · refine .ite (.same (by simp)) (.ite (.ite (.skip s) (.ofForm ?_)) (.ite (.same (by simp)) (.skip s)))
    exact ((timeouts _).trans (Keeps.steady (keeps_ite (keeps_endStage ..) (keeps_nextStage ..)))).1
  · exact .ite (.ofForm ((steady_stackTimeout ..).trans (keeps_nextStage ..).steady).1) (.skip s)

theorem formKept_bar2Write (off : Nat) (data : List Byte) (poisoned : Bool) (s : State) : FormKept s (execBar2Write off data poisoned s) := by
  refine .ite (.skip s) ?_
  dsimp only
  split
  · exact .ofForm (steady_ite (keeps_bar2Reserve ..).steady ((steady_bar2Words ..).trans (keeps_writeCodes ..).steady)).1
  · exact .same (by simp)

theorem formKept_hearthWatchdogExpiry (s : State) : FormKept s (execHearthWatchdogExpiry s) := by
  have cold : (hearthFailsInStart s).dram = [] := by simp [hearthFailsInStart, coldState, State.reset]
  exact .ite (.skip s) (.ite (.ofForm fun _ => cold ▸ rfl) (.same (by simp)))

theorem formKept_supplyFault (rail : Rail) (s : State) : FormKept s (execSupplyFault rail s) := by
  refine .ite (.skip s) ?_
  cases rail with
  | vaon | vio18 => exact .ofForm fun _ => rfl
  | vcore | vser | vserh => exact .same (by simp)
  | vlas | vtransit | vdram | vpp | viod | vpho => exact .when (by simp)

theorem formKept_referenceClockLoss (clk : RefClock) (s : State) : FormKept s (execReferenceClockLoss clk s) := by
  refine .ite (.skip s) ?_
  cases clk with
  | sysclk | pcie | tlink => exact .same (by simp)

theorem formKept_coreCompletionReport (c : Lcid) (s : State) : FormKept s (execCoreCompletionReport c s) := by
  refine .unit (.ite ?_ (.skip s))
  split
  · exact .same (by simp)
  · exact .ite (.same (by simp)) (.same (by simp))

theorem formKept_spareShift (patrolFail : Option Nat) (s : State) : FormKept s (execSpareShift patrolFail s) := by
  unfold execSpareShift
  split
  · exact .skip s
  · refine .ite (.skip s) ?_
    cases patrolFail with
    | none => exact .same (by simp)
    | some col => exact .same (by simp)

theorem formKept_halt (c : Lcid) (o : Op) (s : State) : FormKept s (execHalt c o s) := by
  unfold execHalt
  split
  · exact .unit (.when (by simp))
  · exact .issue fun _ => gives_bodyHalt ..

theorem formKept_fenceCrumb (c : Lcid) (o : Op) (s : State) : FormKept s (execFenceCrumb c o s) := by
  unfold execFenceCrumb
  split
  · exact .unit (.when (by simp))
  · exact .issueK

theorem formKept_sliceTransferDone (c : Lcid) (s : State) : FormKept s (execSliceTransferDone c s) := by
  refine .unit ?_
  split
  · exact .skip s
  · exact .when (by simp)

theorem formKept_crumbProgramStart (u : UnitId) (s : State) : FormKept s (execCrumbProgramStart u s) := by
  refine .unit ?_
  split
  · exact .skip s
  · exact .ite (.skip s) (.ite (.same (by simp)) (.same (by simp)))

theorem formKept_mcastAbandon (c : Lcid) (n : Nat) (s : State) : FormKept s (execMcastAbandon c n s) := by
  refine .unit ?_
  split
  · exact .skip s
  · refine .ite (.skip s) ?_
    dsimp only
    split
    · exact .same (by simp)
    · exact .same (by simp)

theorem formKept_networkTransferDone (c : Lcid) (n : Nat) (s : State) : FormKept s (execNetworkTransferDone c n s) := by
  refine .unit ?_
  split
  · exact .skip s
  · exact .when (by simp)

theorem formKept_windowComplete (c : Lcid) (xfer : Nat) (s : State) : FormKept s (execWindowComplete c xfer s) := by
  refine .unit ?_
  split
  · exact .skip s
  · exact .ite (.skip s) (.ite (.same (by simp)) (.when (by simp)))

theorem formKept_tlinkStale (n : Nat) (s : State) : FormKept s (execTlinkStale n s) := by
  refine .unit ?_
  split
  · exact .skip s
  · split
    · exact .skip s
    · exact .same (by simp)

theorem formKept_journalWrite (s : State) : FormKept s (execJournalWrite s) := by
  unfold execJournalWrite
  split
  · exact .skip s
  · exact .same (by simp)

theorem formKept_rewriteReread (word : Nat) (again : Bool) (s : State) : FormKept s (execRewriteReread word again s) := by
  unfold execRewriteReread
  split
  · exact .skip s
  · exact .same (by simp)

theorem formKept_quoteSigned (s : State) : FormKept s (execQuoteSigned s) := by
  unfold execQuoteSigned
  split
  · exact .skip s
  · split
    · exact .skip s
    · refine .ite (.skip s) (.same ?_)
      rw [(keeps_respond ..).1, (keeps_devInc ..).1]
      split
      · rfl
      · exact (keeps_sign ..).1

theorem formKept_debugLevelLapse (n : Nat) (s : State) : FormKept s (execDebugLevelLapse n s) := by
  unfold execDebugLevelLapse
  split
  · exact .skip s
  · exact .when (by simp)

theorem formKept_nonceExpiry (fn : Nat) (s : State) : FormKept s (execNonceExpiry fn s) := by
  refine .unit ?_
  split
  · exact .skip s
  · exact .when (by simp)

theorem formKept_fwStagingExpiry (s : State) : FormKept s (execFwStagingExpiry s) := by
  unfold execFwStagingExpiry
  split
  · exact .skip s
  · exact .when (by simp)

theorem formKept_powerStateEntry (s : State) : FormKept s (execPowerStateEntry s) := by
  unfold execPowerStateEntry
  split
  · exact .skip s
  · exact .when (by simp)

theorem formKept_bar2Read (off len : Nat) (s : State) : FormKept s (execBar2Read off len s) := by
  refine .ite (.skip s) ?_
  dsimp only
  split <;> exact .same (by simp)

theorem formKept_counterClear (off : Nat) (v : BitVec 32) (s : State) : FormKept s (execCounterClear off v s) := by
  unfold execCounterClear
  split
  · split
    · exact .when (by simp)
    · exact .skip s
  · exact .skip s

theorem formKept_thermalConfigWrite (off : Nat) (v : BitVec 32) (s : State) : FormKept s (execThermalConfigWrite off v s) := by
  unfold execThermalConfigWrite
  split
  · exact .when (by simp)
  · exact .skip s

theorem formKept_dbgAccess (a : BitVec 32) (w : Option (BitVec 32)) (s : State) : FormKept s (execDbgAccess a w s) := by
  refine .ite (.skip s) (.ite (.same (by simp)) (.ite (.same (by simp)) ?_))
  cases w with
  | none => exact .same (by simp)
  | some v => exact .same (by simp)

theorem formKept_flitMcast (f : NetFlit) (bad : List Nat) (full : Bool) (s : State) : FormKept s (execFlitMcast f bad full s) := by
  refine .arrive (keeps_deliver (fun m t => keeps_ite (by simp) ?_) f)
  dsimp only
  split
  · exact .refl t
  · simp

theorem formKept_flitRoute (f : NetFlit) (bad : List Nat) (s : State) : FormKept s (execFlitRoute f bad s) :=
  .arrive (keeps_deliver (fun m t => by simp) f)

theorem formKept_flitCrumb (f : NetFlit) (bad : List Nat) (s : State) : FormKept s (execFlitCrumb f bad s) := by
  refine .arrive fun t => ?_
  dsimp only
  split
  · exact .refl t
  · simp

theorem formKept_flitCredit (f : NetFlit) (bad : List Nat) (s : State) : FormKept s (execFlitCredit f bad s) := by
  refine .arrive fun t => ?_
  dsimp only
  split
  · exact .refl t
  · split
    · exact (keeps_sendFold ..).trans (keeps_modNet ..)
    · exact keeps_ite (.refl t) (keeps_tryNode ..)

theorem formKept_flitCtrl (f : NetFlit) (bad : List Nat) (s : State) : FormKept s (execFlitCtrl f bad s) := by
  refine .arrive fun t => keeps_ite (keeps_flushStack ..) (keeps_orLeave (fun u => ?_) f t)
  split
  · exact keeps_abandonWin ..
  · exact .refl u

/-! ### All commands -/

/-- Every command keeps the canonical form of device memory. -/
theorem exec_formKept (i : Instr) (s : State) : FormKept s (exec i s) := by
  unfold exec
  cases i with
  | br _ _ => exact .issue fun _ => gives_bodyBr ..
  | call _ _ => exact .issue fun _ => gives_bodyCall ..
  | ret _ _ => exact .issue fun _ => gives_bodyRet ..
  | loop _ _ => exact .issue fun _ => gives_bodyLoop ..
  | tload _ _ => exact .issue fun _ => gives_bodyTload ..
  | tstore _ _ => exact .issue fun _ => gives_bodyTstore ..
  | sld _ _ => exact .issue fun _ => gives_bodySld ..
  | tin _ _ => exact .issue fun _ => gives_bodyTin ..
  | rgate _ _ => exact .issue fun _ => gives_bodyRgate ..
  | rsend _ _ => exact .issue fun _ => gives_bodyRsend ..
  | rret _ _ => exact .issue fun _ => gives_bodyRret ..
  | rexit _ _ => exact .issue fun _ => gives_bodyRexit ..
  | swalk _ _ => exact .issue fun _ => gives_bodySwalk ..
  | sappend _ _ => exact .issueForm fun _ => ⟨fun p hp => ((gives_bodySappend ..).of p hp).1⟩
  | cvec _ _ => exact .issue fun _ => gives_bodyCvec ..
  | cissue _ _ => exact .issue fun _ => gives_bodyCissue ..
  | nput _ _ => exact .issue fun _ => gives_bodyNput ..
  | mcast _ _ => exact .issue fun _ => gives_bodyMcast ..
  | fold _ _ => exact .issue fun _ => gives_bodyFold ..
  | stsend _ _ => exact .issue fun _ => gives_bodyStsend ..
  | nop _ _ | add _ _ | sub _ _ | mul _ _ | and _ _ | or _ _ | xor _ _ | shl _ _ | shr _ _ | sra _ _ | cmp _ _ | li _ _ | ld _ _
  | st _ _ | rdcsr _ _ | wrcsr _ _ | dset _ _ | dmod _ _ | tcopy _ _ | tzero _ _ | aload _ _ | astore _ _ | azero _ _ | mma _ _
  | aadd _ _ | amov _ _ | ascale _ _ | vadd _ _ | vsub _ _ | vmul _ _ | vfma _ _ | vmax _ _ | vmin _ _ | vscale _ _ | vadds _ _
  | vfunc _ _ | vrsum _ _ | vrmax _ _ | vbadd _ _ | vbmul _ _ | vcmul _ _ | tcount _ _ | rcfg _ _ | rrecv _ _ | rcomb _ _
  | rcompact _ _ | rstat _ _ | scfg _ _ | smerge _ _ | snorm _ _ | slen _ _ | sstat _ _ | cstat _ _ | nwait _ _ | nsync _ _ | nstat _ _
    => exact .issueK
  | endProgram _ _ => exact .crumbRun fun _ _ _ => gives_bodyEndProgram ..
  | mv _ _ => exact .crumbRun fun _ _ _ => gives_bodyMv ..
  | clra _ _ => exact .crumbRun fun _ _ _ => gives_bodyClra ..
  | retv _ _ => exact .crumbRun fun _ _ _ => gives_bodyRetv ..
  | stv _ _ => exact .crumbRun fun _ _ _ => gives_bodyStv ..
  | crumbLoop _ _ => exact .crumbRun fun _ _ _ => gives_bodyCrumbLoop ..
  | ldi _ _ | addi _ _ | crumbAdd _ _ | crumbSub _ _ | fmt _ _ => exact .crumbUnitOp
  | flitReadReq _ _ => exact .arrive (keeps_orLeave (by simp) _)
  | flitReadData _ _ => exact .arrive (keeps_orLeave (by simp) _)
  | flitWrite _ _ => exact .arrive (keeps_orLeave (by simp) _)
  | flitPut _ _ => exact .arrive (keeps_deliver (by simp) _)
  | flitMcast _ _ _ => exact formKept_flitMcast ..
  | flitFold _ _ => exact .arrive (by simp)
  | flitRoute _ _ => exact formKept_flitRoute ..
  | flitCrumb _ _ => exact formKept_flitCrumb ..
  | flitNack _ _ => exact .arrive (keeps_orLeave (by simp) _)
  | flitComplete _ _ => exact .arrive (keeps_orLeave (by simp) _)
  | flitCredit _ _ => exact formKept_flitCredit ..
  | flitCtrl _ _ => exact formKept_flitCtrl ..
  | frameDescriptor _ _ | frameData _ _ | frameComplete _ _ | frameCredit _ _ | frameReplayReq _ _ => exact .arriveFrame fun t => by simp
  | tlinkInput _ _ _ | tlinkAck _ _ _ | tlinkHold _ _ _ | tlinkRelease _ _ _ | tlinkMgmt _ _ _ => exact .takePacket (by simp) (by simp)
  | fwLoad _ => exact .cmdElse (fun _ _ t => by simp) fun t => (keeps_complete ..).steady.trans (steady_passP7 ..)
  | secSessionOpen _ | fwReplace _ => exact .cmdElse (fun _ _ t => by simp) fun t => Keeps.steady (by simp)
  | seqOpen _ | seqClose _ | seqHold _ | seqRelease _ | seqIngest _ | seqRead _ | planLoad _ | planUnload _ | planAdmit _
  | planSuspend _ | planResume _ | planRead _ | tickSetPeriod _ | tickSetSource _ | tickRead _ | tickCntClear _ | tickWrapEn _
  | memRead _ | memWrite _ | memFence _ | memConfig _ | memWindowSet _ | kvLayoutSet _ | kvPoolCreate _ | kvPoolDestroy _ | kvFork _
  | kvTruncate _ | kvRetirePages _ | kvMap _ | kvUnmap _ | kvRead _ | kvRetireFrame _ | kvRepage _ | kvRehome _ | kvRestore _
  | kvDigest _ | evdCapture _ | evdSeal _ | evdRead _ | evdLinks _ | evdJournalRead _ | evdAck _ | evdStatus _ | evdReplayBegin _
  | evdReplayTick _ | evdReplayEnd _ | netRead _ | netCntClear _ | linkSetAddr _ | linkRetrain _ | linkRejoin _ | linkGlobalWaves _
  | linkRead _ | thermRead _ | thermTelemetryRead _ | thermCalibrate _ | thermFlowMin _ | thermWarmup _ | pwrState _ | pwrGate _
  | pwrUngate _ | pwrClockHalf _ | pwrStackOff _ | pwrStackOn _ | pwrRead _ | faultLogRead _ | faultMapRead _ | faultRetire _
  | faultScrub _ | faultInject _ | faultDramFuse _ | secSessionClose _ | secSessionAdopt _ | secSessionRead _
  | secFunctionLimit _ | secMailboxAssign _ | secExpertOpen _ | secExpertClose _ | secNonce _ | secQuote _ | secCertRead _
  | secProvision _ | secCertInstall _ | secDeploy _ | secReturn _ | secSvnCommit _ | dbgRead _ | dbgWrite _ | dbgScan _ | dbgTapOpen _
  | dbgClose _ | fwActivate _ | fwStatus _ | capRead _ | capEventRead _ | capStatus _ | quotaSliceSet _
  | quotaStreamSet _ | quotaCrumbSet _ | quotaRead _ => exact .cmd fun t => by simp
  | samplePreload | extest | extestPulse | extestTrain => exact .ite (.skip s) (.ite (.same (by simp)) (.same (by simp)))
  | internalBoundary _ => exact .whenForm (takeBoundary_form _ _ _ rfl)
  | tickInEdge _ _ _ => exact formKept_tickInEdge ..
  | flywheelBoundary _ => exact formKept_flywheelBoundary ..
  | sensorSample _ => exact formKept_sensorSample ..
  | firmwareHandover _ => exact formKept_firmwareHandover ..
  | stageP4 _ _ => exact formKept_stageP4 ..
  | stageP6 _ => exact formKept_stageP6 ..
  | stageTimeout _ => exact formKept_stageTimeout ..
  | bar2Write _ _ _ => exact formKept_bar2Write ..
  | perstNAssert => exact .ofForm fun _ => rfl
  | perstNRelease _ => exact .ite (.skip s) (.ofForm fun _ => rfl)
  | hearthWatchdogExpiry => exact formKept_hearthWatchdogExpiry ..
  | supplyFault _ => exact formKept_supplyFault ..
  | throttleCapRaise | configRequest | tapReset _ => exact .same (by simp)
  | tickSourceLost | coolantReportLost | coolingDegraded | coolingDegradedStep | coolingRestored
  | scrubPauseExpiry | scrubPositionSave | faultLogCopy | faultMapWrite | sealSignatureDone | zeroingDone
  | vcoreRestore | periodNsWrite _ | sourceWrite _ | wrapEnWrite _ | globalStepsWrite _ | budgetWrite _
  | globalWavesWrite _ | bar2BaseWrite _ | maxRecoveryNsRead | sidebandWake | i3cDynamicAddress _ | idcode | bypass
  | serialSupplyReturn | referenceClockReturn _ => exact .when (by simp)
  | faultReport _ | functionLevelReset _ | tlinkPortDown _ | refresh _ | dramRetrain _ | crumbGrant _ => exact .unit (.same (by simp))
  | bundleFrameTimeout _ | ioDieFrameTimeout _ | stackReset _ | tlinkLinkUp _ _ | refreshBandFall _
  | sensorSplitClear _ | quadrantReady _ | p4ColdWaitTimeout _ | p5ColdTimeout _
  | mailboxGo _ _ | evTailWrite _ _ | rateWrite _ _ _ | stackResetRelease _ _ | stackClockRegained _ _
    => exact .unit (.when (by simp))
  | stageP1 _ => exact .ite (.ite (.same (by simp)) (.ite (.same (by simp)) (.same (by simp)))) (.skip s)
  | rackRestart | stageP2 _ => exact .ite (.ite (.same (by simp)) (.same (by simp))) (.skip s)
  | attemptAbandon | suddenStopClear | stageP0 _ | stageP8 _ | stageP9 => exact .ite (.same (by simp)) (.skip s)
  | registerWrite _ _ _ => exact .ite (.when (by simp)) (.when (by simp))
  | laserLoss => exact .ite (.same (by simp)) (.ite (.skip s) (.same (by simp)))
  | suddenStop _ | stageP3 _ | sidebandReport _ _ => exact .ite (.skip s) (.ite (.same (by simp)) (.same (by simp)))
  | stageP7 => exact .ite (.ite (.ite (.skip s) (.same (by simp))) (.same (by simp))) (.skip s)
  | collectionReport _ | frameIdle _ _ | stageP5 _ _ => exact .unit (.ite (.same (by simp)) (.skip s))
  | laneSwap _ => exact .unit (.ite (.when (by simp)) (.when (by simp)))
  | laneMarginSample _ _ _ => exact .unit (.ite (.ite (.same (by simp)) (.when (by simp))) (.skip s))
  | patrolScrub _ _ => exact .unit (.ite (.skip s) (.ite (.same (by simp)) (.ite (.same (by simp)) (.same (by simp)))))
  | coreCompletionReport _ => exact formKept_coreCompletionReport ..
  | spareShift _ => exact formKept_spareShift ..
  | halt _ _ => exact formKept_halt ..
  | sliceTransferDone _ => exact formKept_sliceTransferDone ..
  | crumbProgramStart _ => exact formKept_crumbProgramStart ..
  | fenceCrumb _ _ => exact formKept_fenceCrumb ..
  | mcastAbandon _ _ => exact formKept_mcastAbandon ..
  | networkTransferDone _ _ => exact formKept_networkTransferDone ..
  | windowComplete _ _ => exact formKept_windowComplete ..
  | tlinkStale _ => exact formKept_tlinkStale ..
  | journalWrite => exact formKept_journalWrite ..
  | rewriteReread _ _ => exact formKept_rewriteReread ..
  | quoteSigned => exact formKept_quoteSigned ..
  | debugLevelLapse _ => exact formKept_debugLevelLapse ..
  | nonceExpiry _ => exact formKept_nonceExpiry ..
  | fwStagingExpiry => exact formKept_fwStagingExpiry ..
  | powerStateEntry => exact formKept_powerStateEntry ..
  | referenceClockLoss _ => exact formKept_referenceClockLoss ..
  | bar2Read _ _ => exact formKept_bar2Read ..
  | counterClear _ _ => exact formKept_counterClear ..
  | thermalConfigWrite _ _ => exact formKept_thermalConfigWrite ..
  | dbgAccess _ _ => exact formKept_dbgAccess ..

end Sys2Proof.Machine

namespace Sys2Proof.Claims

open Sys2Proof Sys2Proof.Machine

/-! ## The obligations of chapter 02 on every step and every boundary -/

/-- Settles O4: an idle step changes nothing, and every command keeps the form. -/
theorem memoryStaysCanonical : Obligations.MemoryStaysCanonical := by
  unfold Obligations.MemoryStaysCanonical
  intro s t hw hs
  unfold step at hs
  split at hs
  · cases hs
    exact hw
  · exact (exec_formKept ..).of t hs hw

/-- Settles O29: a boundary counts itself first, and nothing it does afterwards touches the clock. -/
theorem boundaryCounts : Obligations.BoundaryCounts := by
  unfold Obligations.BoundaryCounts
  intro dt fly e s
  exact (steady_takeBoundary dt fly e s).2

end Sys2Proof.Claims
end

section
/-! ## SUPPORT: what registers, bench memory and the checks of a tile instruction give (chapter 03 of the spec) -/

namespace Sys2Proof.Machine

open Sys2Proof

/-! ### Checks and waits -/

section

variable {α : Type} {b : Bool} {cause : Nat} {f : Unit → Tr α}

/-- A check whose condition holds lets the operation go on. -/
theorem need_bind (h : b = true) : (need b cause >>= f) = f () := by
  subst h
  rfl

/-- A check whose condition fails stops it with its cause. -/
theorem need_bind_trap (h : b = false) : (need b cause >>= f) = .error (.trap cause) := by
  subst h
  rfl

/-- A condition that holds is not waited for. -/
theorem await_bind (h : b = true) : (await b >>= f) = f () := by
  subst h
  rfl

end

/-! ### Scalar registers (R80) -/

section

variable (k : CoreCtx) (r q : BitVec 5) (v : W64) (p : Bool)

/-- s0 reads as zero. -/
@[simp] theorem CoreCtx.sreg_zero : k.sreg 0 = 0 := rfl

/-- s0 ignores writes. -/
@[simp] theorem CoreCtx.sset_zero : k.sset 0 v p = k := rfl

/-- A register write changes the registers and their poison alone. -/
theorem CoreCtx.sset_frame : k.sset r v p = { k with s := (k.sset r v p).s, sPoison := (k.sset r v p).sPoison } := by
  unfold CoreCtx.sset
  split <;> rfl

@[simp] theorem CoreCtx.sset_d : (k.sset r v p).d = k.d := by rw [sset_frame]
@[simp] theorem CoreCtx.sset_acc : (k.sset r v p).acc = k.acc := by rw [sset_frame]
@[simp] theorem CoreCtx.sset_flags : (k.sset r v p).flags = k.flags := by rw [sset_frame]
@[simp] theorem CoreCtx.sset_bench : (k.sset r v p).bench = k.bench := by rw [sset_frame]
@[simp] theorem CoreCtx.sset_benchPoison : (k.sset r v p).benchPoison = k.benchPoison := by rw [sset_frame]
@[simp] theorem CoreCtx.sset_pc : (k.sset r v p).pc = k.pc := by rw [sset_frame]
@[simp] theorem CoreCtx.sset_loops : (k.sset r v p).loops = k.loops := by rw [sset_frame]

variable {k r q v p}

/-- What a write of a register other than s0 leaves. -/
theorem CoreCtx.sset_of_ne_zero (h : r ≠ 0) : k.sset r v p = { k with
    s := Tab.set k.s r.toNat v
    sPoison := if p then r.toNat :: k.sPoison.filter (fun x => x != r.toNat) else k.sPoison.filter (fun x => x != r.toNat) } :=
  if_neg h

/-- A value written is read back. -/
theorem CoreCtx.sreg_sset_same (h : r ≠ 0) : (k.sset r v p).sreg r = v := by
  rw [sset_of_ne_zero h, CoreCtx.sreg, if_neg h, Tab.getD_set_same]

/-- The poison written with it is read back. -/
theorem CoreCtx.sbad_sset_same (h : r ≠ 0) : (k.sset r v p).sbad r = p := by
  rw [sset_of_ne_zero h]
  cases p
  · simp [CoreCtx.sbad]
  · simpa [CoreCtx.sbad] using h

/-- Another register keeps its value. -/
theorem CoreCtx.sreg_sset_other (h : q ≠ r) : (k.sset r v p).sreg q = k.sreg q := by
  by_cases hr : r = 0
  · rw [hr, sset_zero]
  · have hn : q.toNat ≠ r.toNat := fun e => h (BitVec.eq_of_toNat_eq e)
    rw [sset_of_ne_zero hr, CoreCtx.sreg, CoreCtx.sreg, Tab.getD_set_other _ _ _ hn]

/-- Another register keeps its poison. -/
theorem CoreCtx.sbad_sset_other (h : q ≠ r) : (k.sset r v p).sbad q = k.sbad q := by
  by_cases hr : r = 0
  · rw [hr, sset_zero]
  · have hn : q.toNat ≠ r.toNat := fun e => h (BitVec.eq_of_toNat_eq e)
    rw [sset_of_ne_zero hr]
    cases p <;> simp [CoreCtx.sbad, hn]

end

/-! ### The second operand and the conditions of CMP (R81) -/

/-- The value of the second operand. -/
theorem CoreCtx.opb_fst (k : CoreCtx) (o : Op) : (k.opb o).1 = if o.mod.getLsbD 8 then o.imm.signExtend 64 else k.sreg o.b := by
  unfold CoreCtx.opb
  split <;> rfl

/-- The poison of the second operand: an immediate has none. -/
theorem CoreCtx.opb_snd (k : CoreCtx) (o : Op) : (k.opb o).2 = (!o.mod.getLsbD 8 && k.sbad o.b) := by
  unfold CoreCtx.opb
  split <;> simp_all

/-! ### Accumulators (R86) -/

/-- Writes an accumulator of a type and a poison bit, each place and its flags by a function of the place. -/
def CoreCtx.setPlaces (k : CoreCtx) (r : BitVec 5) (int bad : Bool) (f : Nat → W32 × Fl) : CoreCtx :=
  ((k.aset r ⟨int, bad, (List.range 512).map fun n => (n, (f n).1)⟩).orFlags ((List.range 512).foldl (fun g n => g ||| (f n).2) 0)).eat bad

/-- The write as the matrix instructions make it, from a list of cells. -/
theorem CoreCtx.setPlaces_of_cells (k : CoreCtx) (r : BitVec 5) (int bad : Bool) (f : Nat → W32 × Fl) :
    ((k.aset r ⟨int, bad, (accPlaces.map fun n => (n, f n)).map fun e => (e.1, e.2.1)⟩).orFlags
      ((accPlaces.map fun n => (n, f n)).foldl (fun g e => g ||| e.2.2) 0)).eat bad = k.setPlaces r int bad f := by
  rw [List.map_map, List.foldl_map]
  rfl

/-! ### The end of an instruction and its faults (R80, R91) -/

/-- Where the next fetch finds a legal instruction, the core takes what the instruction left it. -/
theorem endInstr_of_fetches {c : Lcid} {k : CoreCtx} {s : State} (h : k.fetchTrap = none) : endInstr c k s = s.setCore c k := by
  rw [endInstr, h]

/-- A nonzero MOD bit that an instruction with an immediate form does not use. -/
theorem checkFields_reserved_mod {h : Shape} {o : Op} (ha : h.alt = true) (hm : o.mod &&& ~~~(h.mods ||| 0x100) ≠ 0) :
    checkFields h o = .error (.trap 2) := by
  refine need_bind_trap ?_
  simp only [ha, if_true, decide_eq_true hm, Bool.or_true, Bool.true_or, Bool.not_true]

/-- A register number out of its file, where no unused field is set. -/
theorem checkFields_range {h : Shape} {o : Op} (ha : h.alt = false)
    (hd : (h.dst.dirty o.dst || h.a.dirty o.a || h.b.dirty o.b) = false) (hm : o.mod &&& ~~~h.mods = 0) (hi : o.imm &&& ~~~h.imms = 0)
    (hr : (h.dst.bad o.dst || h.a.bad o.a || h.b.bad o.b) = true) : checkFields h o = .error (.trap 3) := by
  refine (need_bind ?_).trans ?_
  · simp [ha, hd, hm, hi]
  · simp only [ha, Bool.false_and, Bool.false_eq_true, if_false, hr]
    rfl

/-- An instruction whose fields are not legal faults its core. -/
theorem issue_fault {c : Lcid} {op : BitVec 8} {h : Shape} {o : Op} {s : State} {cause : Nat} {body : CoreCtx → Tr (CoreCtx × State)}
    (hv : validLcid c = true) (hi : issues s c op o = true) (hf : checkFields h o = .error (.trap cause)) :
    issue c op h o s body = .next (coreFault c cause s) := by
  unfold issue
  dsimp only
  rw [hv, unit_true, if_pos hi, hf]
  rfl

/-- The same of an instruction on its core alone. -/
theorem issueK_fault {c : Lcid} {op : BitVec 8} {h : Shape} {o : Op} {s : State} {cause : Nat} {body : CoreCtx → Tr CoreCtx}
    (hv : validLcid c = true) (hi : issues s c op o = true) (hf : checkFields h o = .error (.trap cause)) :
    issueK c op h o s body = .next (coreFault c cause s) := issue_fault hv hi hf

/-! ### Products of integers (R73) -/

/-- The place of an element of a tile whose rows are not packed does not depend on how many rows there are. -/
theorem TileD.code_rows {t : TileD} (h : t.stride ≠ 0) (n : Nat) (k : CoreCtx) (i j : Nat) :
    ({ t with rows := n } : TileD).code k i j = t.code k i j := by
  simp only [TileD.code, TileD.place, TileD.pitch, if_neg h]

/-- Nor does its place in the stored tile of a B operand. -/
theorem storedTile_code {t : TileD} (h : t.stride ≠ 0) (m : CoreCtx) (i j : Nat) : (storedTile m t).code m i j = t.code m i j :=
  TileD.code_rows h ..

/-- A dense operand keeps every element in its own row. -/
theorem keptRow_dense {t : TileD} (h : t.sparse = 0) (m : CoreCtx) (i j : Nat) : keptRow m t i j = some i := by
  simp only [keptRow, h]

section

variable {m : CoreCtx} {a b : TileD} {skip : Nat → Bool}

/-- A block of a dense product that skips nothing: the exact sum of 32 products is added with saturation. -/
theorem intBlock_dense (hd : b.sparse = 0) (hs : b.stride ≠ 0) (hk : ∀ q, skip q = false) (i j blk : Nat) (acc : W32 × Fl) :
    (intBlock m a b skip i j blk acc).1
      = (satInt 32 (acc.1.toInt + (List.range 32).foldl (fun v q =>
          v + codeInt a.fmt (a.code m i (32 * blk + q)) * codeInt b.fmt (b.code m (32 * blk + q) j)) 0)).1 := by
  simp only [intBlock, hk, Bool.false_eq_true, if_false, keptRow_dense hd, storedTile_code hs]

/-- A block of a dense product does not depend on how many rows there are. -/
theorem intBlock_rows (hd : b.sparse = 0) (hs : b.stride ≠ 0) (n i j blk : Nat) (acc : W32 × Fl) :
    intBlock m a { b with rows := n } skip i j blk acc = intBlock m a b skip i j blk acc := by
  have hd' : ({ b with rows := n } : TileD).sparse = 0 := hd
  have hs' : ({ b with rows := n } : TileD).stride ≠ 0 := hs
  simp only [intBlock, keptRow_dense hd, keptRow_dense hd', storedTile_code hs, storedTile_code hs', TileD.code_rows hs]

/-- A dense integer product takes its blocks in increasing order: the last is added to what the product of the blocks before it leaves. -/
theorem mmaElem_last_block (hd : b.sparse = 0) (hs : b.stride ≠ 0) {n : Nat} (hr : b.rows = 32 * (n + 1)) (i j : Nat) (c : W32) :
    mmaElem m a b 2 skip i j c = intBlock m a b skip i j n (mmaElem m a { b with rows := 32 * n } 2 skip i j c) := by
  have hlen : b.rows / 32 = n + 1 := by omega
  simp only [mmaElem, intBlock_rows hd hs, hlen, Nat.mul_div_cancel_left n (show 0 < 32 by decide), List.range_succ, List.foldl_append,
    List.foldl_cons, List.foldl_nil]

end

end Sys2Proof.Machine

namespace Sys2Proof.Claims

open Sys2Proof Sys2Proof.Machine

/-! ## SUPPORT: tile instructions that are issued -/

/-- An instruction on its core alone, dispatched with its opcode, its fields and its operation, completes with what the operation gives. -/
theorem completes_of_issueK {mk : Lcid → Op → Instr} {op : BitVec 8} {h : Op → Shape}
    {body : Lcid → Op → State → CoreCtx → Tr CoreCtx} (he : ∀ c o s, exec (mk c o) s = issueK c op (h o) o s (body c o s)) : Completes mk op h body :=
  fun c o s _ hi hb => (he c o s).trans (issueK_of_issued hi hb)

/-- A computation that goes through has a result. -/
theorem ok_of_passes {α : Type} {r : Tr α} (h : passes r = true) : ∃ x, r = .ok x := by
  cases r with
  | ok x => exact ⟨x, rfl⟩
  | error e => exact nomatch h

/-- An issued instruction whose operation waits leaves the state as it was. -/
theorem issueK_waits {c : Lcid} {op : BitVec 8} {h : Shape} {o : Op} {s : State} {body : CoreCtx → Tr CoreCtx}
    (hi : issued c op h o s = true) (hb : body (found c o s) = .error .wait) : issueK c op h o s body = .next s := by
  simp only [issued, Bool.and_eq_true, Bool.not_eq_eq_eq_not, Bool.not_true, decide_eq_true_eq] at hi
  obtain ⟨⟨⟨⟨hv, hs⟩, hf⟩, hp⟩, -⟩ := hi
  obtain ⟨x, hf⟩ := ok_of_passes hf
  unfold found at hb
  unfold issueK issue
  dsimp only
  rw [hv, unit_true, if_pos hs, hf, hp, hb]
  rfl

/-- An arithmetic instruction gives its function of the two operands, poisoned by either. -/
theorem arithmetic_of_arith {mk : Lcid → Op → Instr} {op : BitVec 8} {f : W64 → W64 → W64}
    (he : ∀ c o s, exec (mk c o) s = arith op f c o s) : Arithmetic mk op f := by
  intro c o s hi
  refine (he c o s).trans (issueK_of_issued hi ?_)
  rw [arithBody, CoreCtx.opb_fst, CoreCtx.opb_snd]
  rfl

/-- The six codes of CMP decide the conditions they name. -/
theorem cmpCond_eq_condition {code : Nat} (h : code ≤ 5) (x y : W64) : cmpCond code x y = some (condition code x y) := by
  match code, h with
  | 0, _ => rfl
  | 1, _ => exact congrArg some (by simp [condition, bne, ← Bool.beq_eq_decide_eq])
  | 2, _ => rfl
  | 3, _ => exact congrArg some (by simp only [condition, BitVec.slt, ← decide_not, Int.not_lt])
  | 4, _ => rfl
  | 5, _ => exact congrArg some (by simp only [condition, BitVec.ult, ← decide_not, Nat.not_lt])

/-! ## SUPPORT: bench accesses (R65) -/

/-- An address in a register that is not poisoned goes on to what uses it. -/
theorem addr_bind {α : Type} {k : CoreCtx} {r : BitVec 5} {f : W64 → Tr α} (h : k.sbad r = false) : (k.addr r >>= f) = f (k.sreg r) := by
  rw [addr_ok h]
  rfl

/-- A reachable range may be accessed. -/
theorem access_ok {k : CoreCtx} {a n : Nat} (h : reachable k a n = true) : k.access a n = .ok () := by
  simp only [reachable, Bool.and_eq_true] at h
  obtain ⟨⟨⟨hr, hw⟩, hb⟩, hf⟩ := h
  exact (need_bind hr).trans ((need_bind hw).trans ((need_bind hb).trans (by rw [hf]; rfl)))

/-- A reachable range is read as bench memory holds it. -/
theorem rd_ok {k : CoreCtx} {a n : Nat} (h : reachable k a n = true) : k.rd a n = .ok (Mem.read k.bench a n) := by
  rw [CoreCtx.rd, access_ok h]
  rfl

/-- A write of a reachable range outside the resident regions waits for the network transfers that have yet to send it. -/
theorem wr_of_reachable {k : CoreCtx} {a : Nat} {l : List Byte} (p : Bool) (h : reachable k a l.length = true)
    (hr : k.isResident a l.length = false) :
    k.wr a l p = if k.reading a l.length then .error .wait else .ok (k.put (runOf a l p)) := by
  rw [CoreCtx.wr, CoreCtx.canWrite, access_ok h, hr]
  cases k.reading a l.length <;> rfl

/-! ## SUPPORT: what the operations give under the statements' hypotheses (R81-R86) -/

section

variable {o : Op} {k : CoreCtx} {s : State}

/-- CMP of a code that is not reserved. -/
theorem bodyCmp_ok (h : o.mod.toNat % 8 ≤ 5) :
    bodyCmp o k = .ok ((k.sset o.dst (if condition (o.mod.toNat % 8) (k.sreg o.a) (k.opb o).1 then 1 else 0)
      (k.sbad o.a || (k.opb o).2)).eat (k.sbad o.a || (k.opb o).2)) := by
  simp only [bodyCmp, cmpCond_eq_condition h]

/-- A jump outside every loop body. -/
theorem jump_bind {α : Type} {a : Nat} {f : CoreCtx → Tr α} (h : k.loops = []) : (k.jump a >>= f) = f { k with pc := a } := by
  rw [CoreCtx.jump, h]
  rfl

/-- The condition of BR by its code, of those that are not reserved. -/
theorem branchTaken_iff {m : Nat} {x : W64} (h4 : m < 4) (h3 : m ≠ 3) :
    (decide (m = 0) || (if m = 1 then decide (x = 0) else !decide (x = 0))) = true ↔ m = 0 ∨ (m = 1 ∧ x = 0) ∨ (m = 2 ∧ x ≠ 0) := by
  obtain rfl | rfl | rfl : m = 0 ∨ m = 1 ∨ m = 2 := by omega
  all_goals simp

/-- BR is issued as an instruction that reads sa where its code names a condition. -/
theorem exec_br (c : Lcid) (o : Op) (s : State) : exec (.br c o) s
    = issue c 0x10 ⟨.no, if o.mod.toNat % 4 = 0 then .no else .s, .no, 3, 0xFFFFFFFF, false⟩ o s (bodyBr o s) := by
  change execBr c o s = _
  simp only [execBr, decide_eq_true_eq]

/-- BR whose condition may be read goes to its target where it is taken, and on to the next instruction where it is not. -/
theorem bodyBr_eq (h3 : o.mod.toNat % 4 ≠ 3) (hb : o.mod.toNat % 4 = 0 ∨ k.sbad o.a = false) :
    bodyBr o s k = if o.mod.toNat % 4 = 0 ∨ (o.mod.toNat % 4 = 1 ∧ k.sreg o.a = 0) ∨ (o.mod.toNat % 4 = 2 ∧ k.sreg o.a ≠ 0)
      then k.jump (k.target o) >>= fun k' => .ok (k', s) else .ok (k.step, s) := by
  refine (need_bind (decide_eq_true h3)).trans ((need_bind (by simpa using hb)).trans ?_)
  exact if_congr (branchTaken_iff (Nat.mod_lt _ (by decide)) h3) rfl rfl

/-- CALL outside every loop body, with no load of s31 under way. -/
theorem bodyCall_ok (hp : k.regPending 31 = false) (hl : k.loops = []) :
    bodyCall o s k = .ok ({ k.sset 31 (BitVec.ofNat 64 (k.pc + 8)) false with pc := k.target o }, s) :=
  (await_bind (by rw [hp]; rfl)).trans (jump_bind (by rw [CoreCtx.sset_loops, hl]))

/-- RET outside every loop body, to an aligned address that is not poisoned. -/
theorem bodyRet_ok (hp : k.regPending 31 = false) (hl : k.loops = []) (hb : k.sbad 31 = false) (ha : (k.sreg 31).toNat % 8 = 0) :
    bodyRet s k = .ok ({ k with pc := (k.sreg 31).toNat }, s) :=
  (await_bind (by rw [hp]; rfl)).trans ((addr_bind hb).trans ((need_bind (decide_eq_true ha)).trans (jump_bind hl)))

/-- LOOP of a count that is not poisoned and a body that is not empty: no pass leaves the body out, another enters a level. -/
theorem bodyLoop_eq (hb : k.sbad o.a = false) (hn : o.imm.toNat % 4096 ≠ 0) :
    bodyLoop o s k =
      if (k.sreg o.a).toNat = 0 then
        .ok ({ k with pc := (loopBack (k.pc + 8 * (o.imm.toNat % 4096)) k.loops).1,
                      loops := (loopBack (k.pc + 8 * (o.imm.toNat % 4096)) k.loops).2 }, s)
      else need (decide (k.loops.length < 4)) 0xA >>= fun _ =>
        .ok ({ k with pc := k.pc + 8,
                      loops := ⟨k.pc + 8, k.pc + 8 * (o.imm.toNat % 4096), (k.sreg o.a).toNat - 1⟩ :: k.loops }, s) :=
  (addr_bind hb).trans (need_bind (decide_eq_true hn))

/-- LD at an aligned reachable address. -/
theorem bodyLd_ok (hb : k.sbad o.a = false) (ha : benchAddr k o % 8 = 0) (hr : reachable k (benchAddr k o) 8 = true) :
    bodyLd o k = .ok ((k.sset o.dst (BitVec.ofNat 64 (leNat (Mem.read k.bench (benchAddr k o) 8))) (k.dirty (benchAddr k o) 8)).eat
      (k.dirty (benchAddr k o) 8)) := by
  refine (addr_bind hb).trans ((need_bind (decide_eq_true ha)).trans ?_)
  change k.rd (benchAddr k o) 8 >>= _ = _
  rw [rd_ok hr]
  rfl

theorem length_leBytes (n v : Nat) : (leBytes n v).length = n := by rw [leBytes, List.length_map, List.length_range]

/-- ST at an aligned reachable address outside the resident regions waits for the network transfers that have yet to send it. -/
theorem bodySt_eq (hb : k.sbad o.a = false) (ha : benchAddr k o % 8 = 0) (hr : reachable k (benchAddr k o) 8 = true)
    (hs : k.isResident (benchAddr k o) 8 = false) :
    bodySt o k = if k.reading (benchAddr k o) 8 then .error .wait
      else .ok ((k.put (runOf (benchAddr k o) (leBytes 8 (k.sreg o.b).toNat) (k.sbad o.b))).eat (k.sbad o.b)) := by
  have hlen := length_leBytes 8 (k.sreg o.b).toNat
  refine (addr_bind hb).trans ((need_bind (decide_eq_true ha)).trans ?_)
  change k.wr (benchAddr k o) (leBytes 8 (k.sreg o.b).toNat) (k.sbad o.b) >>= _ = _
  rw [wr_of_reachable (k.sbad o.b) (by rwa [hlen]) (by rwa [hlen]), hlen]
  cases k.reading (benchAddr k o) 8 <;> rfl

/-- The control register of an index that R83 names. -/
def csrValue (c : Lcid) (s : State) (k : CoreCtx) (n : Nat) : W64 :=
  match n with | 0 => c.setWidth 64 | 1 => BitVec.ofNat 64 s.tickCsr | 2 => BitVec.ofNat 64 k.slot | _ => k.flags

/-- RDCSR of such an index; FLAGS only where no load has yet to fold its status into it. -/
theorem bodyRdcsr_ok {c : Lcid} (hi : o.imm.toNat ≤ 3) (hl : o.imm.toNat = 3 → k.loadsOut = false) :
    bodyRdcsr c o s k = .ok (k.sset o.dst (csrValue c s k o.imm.toNat) false) := by
  refine (need_bind (decide_eq_true hi)).trans ((await_bind ?_).trans rfl)
  by_cases h3 : o.imm.toNat = 3
  · simp [hl h3]
  · simp [h3]

/-- WRCSR of FLAGS. -/
theorem bodyWrcsr_ok (hi : o.imm.toNat = 3) (hl : k.loadsOut = false) :
    bodyWrcsr o k = .ok { k.eat (k.sbad o.a) with flags := k.sreg o.a &&& flagsMask } :=
  (need_bind (decide_eq_true hi)).trans (await_bind (by rw [hl]; rfl))

/-- DSET at an aligned reachable address with no poison. -/
theorem bodyDset_ok (hb : k.sbad o.a = false) (ha : benchAddr k o % 16 = 0) (hr : reachable k (benchAddr k o) 16 = true)
    (hd : k.dirty (benchAddr k o) 16 = false) :
    bodyDset o k = .ok { k with d := Tab.set k.d o.dst.toNat (BitVec.ofNat 128 (leNat (Mem.read k.bench (benchAddr k o) 16))) } := by
  refine (addr_bind hb).trans ((need_bind (decide_eq_true ha)).trans ?_)
  change k.rd (benchAddr k o) 16 >>= _ = _
  rw [rd_ok hr]
  exact need_bind (by rw [Bool.not_eq_true']; exact hd)

/-- The place of a field that DMOD sets or adds to: its lowest bit and its width. -/
def dmodPlace (n : Nat) : Nat × Nat :=
  match n with | 0 => (0, 22) | 1 => (76, 22) | 2 => (98, 22) | 3 => (48, 16) | _ => (32, 16)

/-- DMOD of one of the fields 0 to 4. -/
theorem bodyDmod_ok (hb : (k.opb o).2 = false) (hn : o.mod.toNat % 8 ≤ 4) :
    bodyDmod o k = .ok { k with
      d := Tab.set k.d o.dst.toNat (modField (k.dreg o.dst) (dmodPlace (o.mod.toNat % 8)).1 (dmodPlace (o.mod.toNat % 8)).2
        (o.mod.getLsbD 3) (k.opb o).1) } := by
  refine (need_bind (by rw [decide_eq_true hn, Bool.true_or])).trans ((need_bind (by rw [hb]; rfl)).trans ?_)
  generalize o.mod.toNat % 8 = n at hn
  match n, hn with
  | 0, _ | 1, _ | 2, _ | 3, _ | 4, _ => rfl

/-- TZERO of a tile that may be written. -/
theorem bodyTzero_ok (h : passes ((tileD (k.dreg o.dst)).canWrite k) = true) :
    bodyTzero o k
      = .ok (k.put (((tileD (k.dreg o.dst)).touched false).flatMap fun r => runOf r.1 (List.replicate r.2 0) false)) := by
  obtain ⟨x, hx⟩ := ok_of_passes h
  unfold bodyTzero
  dsimp only
  rw [hx]
  rfl

/-- AADD of two accumulators of one type. -/
theorem bodyAadd_ok (h : (k.areg o.a).int = (k.areg o.b).int) :
    bodyAadd o k = .ok (k.setPlaces o.dst (k.areg o.a).int ((k.areg o.a).poison || (k.areg o.b).poison) fun n =>
      if (k.areg o.a).int then
        satInt 32 ((Tab.getD (k.areg o.a).elems n (0 : W32)).toInt + (Tab.getD (k.areg o.b).elems n (0 : W32)).toInt)
      else fadd (Tab.getD (k.areg o.a).elems n 0) (Tab.getD (k.areg o.b).elems n 0)) :=
  (need_bind (beq_iff_eq.2 h)).trans (congrArg Except.ok (k.setPlaces_of_cells ..))

/-- ASCALE of an FP32 accumulator. -/
theorem bodyAscale_ok (h : (k.areg o.a).int = false) :
    bodyAscale o k = .ok (k.setPlaces o.dst false ((k.areg o.a).poison || k.sbad o.b) fun n =>
      fmul (Tab.getD (k.areg o.a).elems n 0) ((k.sreg o.b).setWidth 32)) :=
  (need_bind (by rw [h]; rfl)).trans (congrArg Except.ok (k.setPlaces_of_cells ..))

end

/-! ## The obligations of chapter 03 -/

/-- Settles O7: each instruction is an arithmetic one of its function, and NOP gives the core as it found it. -/
theorem scalarArithmeticResults : Obligations.ScalarArithmeticResults := by
  unfold Obligations.ScalarArithmeticResults
  refine ⟨fun c o s hi => issueK_of_issued hi rfl, ?_, ?_, ?_, ?_, ?_, ?_, ?_, ?_, ?_⟩ <;>
  exact arithmetic_of_arith fun _ _ _ => rfl

/-- Settles O8, by the condition that a code of CMP decides and the two forms of LI. -/
theorem compareAndLoadImmediate : Obligations.CompareAndLoadImmediate := by
  unfold Obligations.CompareAndLoadImmediate
  refine ⟨fun c o s hi hm => issueK_of_issued hi (bodyCmp_ok hm), fun c o s hi hm => issueK_of_issued hi ?_,
    fun c o s hi hm => issueK_of_issued hi ?_⟩
  · rw [bodyLi, hm]; rfl
  · rw [bodyLi, hm]; rfl

/-- Settles O12, by what a register write and the end of an instruction leave. -/
theorem registerAndCoreFrames : Obligations.RegisterAndCoreFrames := by
  unfold Obligations.RegisterAndCoreFrames
  refine ⟨fun k r q v p => ?_, fun s c k hf => ?_⟩
  · exact ⟨k.sreg_zero, k.sset_zero v p, fun h => ⟨CoreCtx.sreg_sset_same h, CoreCtx.sbad_sset_same h⟩,
      fun h => ⟨CoreCtx.sreg_sset_other h, CoreCtx.sbad_sset_other h⟩, k.sset_d r v p, k.sset_acc r v p, k.sset_flags r v p,
      k.sset_bench r v p, k.sset_benchPoison r v p, k.sset_pc r v p, k.sset_loops r v p⟩
  · rw [endInstr_of_fetches hf]
    exact ⟨s.core_setCore c k, fun d h => s.core_setCore_other k h, rfl⟩

/-- Settles O16: the last block is added to what the product of the blocks before it leaves. -/
theorem integerProductBlocks : Obligations.IntegerProductBlocks := by
  unfold Obligations.IntegerProductBlocks
  intro k a b skip i j n c hr before hd hs hk
  rw [mmaElem_last_block hd hs hr, intBlock_dense hd hs hk]

/-- Settles O13, by the check of the fields, which comes first. -/
theorem reservedFieldsFault : Obligations.ReservedFieldsFault := by
  unfold Obligations.ReservedFieldsFault
  refine ⟨fun c o s hv hi hm => issueK_fault hv hi (checkFields_reserved_mod rfl hm), fun c o s hv hi hb hm hz hr => issueK_fault hv hi ?_⟩
  refine checkFields_range rfl ?_ ?_ ?_ ?_
  · simp [RegUse.dirty, hb]
  · simp [hm]
  · simp [hz]
  · simpa [RegUse.bad] using hr

/-- Settles O17: each instruction is dispatched with the operation stated. -/
theorem vectorInstructionsComplete : Obligations.VectorInstructionsComplete := by
  unfold Obligations.VectorInstructionsComplete
  refine ⟨?_, ?_, ?_, ?_, ?_, ?_, ?_, ?_, ?_, ?_, ?_, ?_, ?_, ?_⟩ <;>
  exact completes_of_issueK fun _ _ _ => rfl

/-- Settles O9: where each operation leaves the pc, outside a loop body. -/
theorem controlFlowResults : Obligations.ControlFlowResults := by
  unfold Obligations.ControlFlowResults
  refine ⟨fun c o s hi h3 hb => ⟨fun ht => ?br, fun ht hl => ?brTaken⟩, fun c o s hi hp hl => issue_of_issued hi (bodyCall_ok hp hl),
    fun c o s hi hp hl hb ha => issue_of_issued hi (bodyRet_ok hp hl hb ha),
    fun c o s hi hb hn => ⟨fun h0 => issue_of_issued hi ?loopOut, fun h0 hl => issue_of_issued hi ?loopIn⟩⟩
  case br => exact (exec_br c o s).trans (issue_of_issued hi ((bodyBr_eq (k := found c o s) h3 hb).trans (if_neg ht)))
  case brTaken =>
    exact (exec_br c o s).trans (issue_of_issued hi ((bodyBr_eq (k := found c o s) h3 hb).trans ((if_pos ht).trans (jump_bind hl))))
  case loopOut => exact (bodyLoop_eq (k := found c o s) hb hn).trans (if_pos h0)
  case loopIn => exact (bodyLoop_eq (k := found c o s) hb hn).trans ((if_neg h0).trans (need_bind (decide_eq_true hl)))

/-- Settles O10: LD and ST at an address that may be accessed. -/
theorem benchLoadAndStore : Obligations.BenchLoadAndStore := by
  unfold Obligations.BenchLoadAndStore
  refine ⟨fun c o s hi hb ha hr => issueK_of_issued hi (bodyLd_ok hb ha hr), fun c o s hi hb ha hr hs => ⟨fun hw => ?_, fun hw => ?_⟩⟩
  · exact issueK_of_issued hi ((bodySt_eq (k := found c o s) hb ha hr hs).trans (if_neg (ne_true_of_eq_false hw)))
  · exact issueK_waits hi ((bodySt_eq (k := found c o s) hb ha hr hs).trans (if_pos hw))

/-- Settles O11: the registers that RDCSR reads, and FLAGS as WRCSR writes it. -/
theorem controlRegisterAccess : Obligations.ControlRegisterAccess := by
  unfold Obligations.ControlRegisterAccess
  exact ⟨fun c o s hi hn hl => issueK_of_issued hi (bodyRdcsr_ok hn hl), fun c o s hi hn hl => issueK_of_issued hi (bodyWrcsr_ok hn hl)⟩

/-- Settles O14: the descriptor that DSET and DMOD leave, and the tiles as their operations give them. -/
theorem descriptorAndTileMoves : Obligations.DescriptorAndTileMoves := by
  unfold Obligations.DescriptorAndTileMoves
  refine ⟨⟨fun c o s hi hb ha hr hd => issueK_of_issued hi (bodyDset_ok hb ha hr hd),
      fun c o s hi hb hn => issueK_of_issued hi (bodyDmod_ok hb hn)⟩,
    completes_of_issueK fun _ _ _ => rfl, fun c o s hi h => issueK_of_issued hi (bodyTzero_ok h), completes_of_issueK fun _ _ _ => rfl,
    completes_of_issueK fun _ _ _ => rfl⟩

/-- Settles O15: each accumulator as its operation leaves it, place by place. -/
theorem accumulatorInstructions : Obligations.AccumulatorInstructions := by
  unfold Obligations.AccumulatorInstructions
  refine ⟨fun c o s hi => issueK_of_issued hi rfl, fun c o s hi => issueK_of_issued hi rfl, fun c o s hi ht => issueK_of_issued hi ?_,
    fun c o s hi ht => issueK_of_issued hi ?_, completes_of_issueK fun _ _ _ => rfl⟩
  · exact bodyAadd_ok ht
  · exact bodyAscale_ok ht

end Sys2Proof.Claims
end

section
/-! ## SUPPORT and obligations of chapter 04: conditional computation, and the flits it sends -/

namespace Sys2Proof.Claims

open Sys2Proof Sys2Proof.Machine

/-! ## SUPPORT: instructions that also change the rest of the state -/

/-- An instruction dispatched with its opcode, its fields and its operation completes with what the operation gives. -/
theorem completesWith_of_issue {mk : Lcid → Op → Instr} {op : BitVec 8} {h : Op → Shape}
    {body : Lcid → Op → State → CoreCtx → Tr (CoreCtx × State)} (he : ∀ c o s, exec (mk c o) s = issue c op (h o) o s (body c o s)) :
    CompletesWith mk op h body :=
  fun c o s _ _ hi hb => (he c o s).trans (issue_of_issued hi hb)

/-! ## SUPPORT: flits that arrive -/

section

variable {f : NetFlit} {s : State}

/-! ### What taking a flit off the mesh leaves: all but the flits and the counts -/

@[simp] theorem flitTaken_netOf (c : Lcid) (id : Nat) : (flitTaken f s).netOf c id = s.netOf c id := rfl
@[simp] theorem flitTaken_planAt (slot : Nat) : (flitTaken f s).planAt slot = s.planAt slot := rfl
@[simp] theorem flitTaken_noSlice (g : NetFlit) : (flitTaken f s).noSlice g = s.noSlice g := rfl
@[simp] theorem flitTaken_siteDown (g : NetFlit) : (flitTaken f s).siteDown g = s.siteDown g := rfl
@[simp] theorem flitTaken_memberAt (g : NetFlit) : (flitTaken f s).memberAt g = s.memberAt g := rfl
@[simp] theorem flitTaken_subtreeGone (g : GroupEnt) (l i : Nat) : (flitTaken f s).subtreeGone g l i = s.subtreeGone g l i := rfl

/-! ### Where an arriving flit goes -/

/-- A flit of a TYPE that is not reserved, which no router finds wrong, has its kind's effect on the state without it. -/
theorem arrive_of_arrived {kind : BitVec 4} (k : State → State) (hk : kind.toNat < 0xC) (ha : arrived kind f s = true) :
    arrive kind f [] s k = .next (k (flitTaken f s)) := by
  simp only [arrived, Bool.and_eq_true, decide_eq_true_eq] at ha
  obtain ⟨⟨⟨hv, rfl⟩, hf⟩, hr⟩ := ha
  unfold arrive
  rw [hv, unit_true, if_pos hf]
  dsimp only
  rw [if_neg (Nat.not_le.mpr hk), if_pos rfl]
  exact if_pos hr

/-- A command that is the arrival of such a flit answers what its kind's effect gives. -/
theorem exec_of_arrived {i : Instr} {kind : BitVec 4} {k : State → State} {t : State} (he : exec i s = arrive kind f [] s k)
    (ha : arrived kind f s = true) (ht : k (flitTaken f s) = t) (hk : kind.toNat < 0xC := by decide) : exec i s = .next t :=
  (he.trans (arrive_of_arrived k hk ha)).trans (congrArg _ ht)

/-- FLIT_CRUMB is dispatched to its meaning. -/
theorem exec_flitCrumb (f : NetFlit) (bad : List Nat) (s : State) : exec (.flitCrumb f bad) s = execFlitCrumb f bad s := rfl

/-- FLIT_CREDIT is dispatched to its meaning. -/
theorem exec_flitCredit (f : NetFlit) (bad : List Nat) (s : State) : exec (.flitCredit f bad) s = execFlitCredit f bad s := rfl

/-- FLIT_CTRL is dispatched to its meaning. -/
theorem exec_flitCtrl (f : NetFlit) (bad : List Nat) (s : State) : exec (.flitCtrl f bad) s = execFlitCtrl f bad s := rfl

/-- A flit bound for its own die is delivered there. -/
theorem orLeave_of_stays {k : State → State} (hl : leaving f = false) : orLeave f k s = k s := by
  unfold orLeave
  unfold leaving at hl
  split
  · next w hw =>
    rw [hw] at hl
    exact if_neg (by simpa using hl)
  · rfl

/-- A flit for a slice whose controller answers has its effect there. -/
theorem orLeave_of_slice {k : State → State} (hl : leaving f = false) (hn : s.noSlice f = false) :
    orLeave f (fun t => if t.noSlice f then absorb f t else k t) (flitTaken f s) = k (flitTaken f s) :=
  (orLeave_of_stays hl).trans (if_neg (ne_true_of_eq_false ((flitTaken_noSlice f).trans hn)))

/-- A flit for a member whose quadrant takes flits is delivered to it. -/
theorem deliver_of_member {k : Lcid → State → State} {m : Lcid} (hl : leaving f = false) (hd : s.siteDown f = false)
    (hm : s.memberAt f = some m) : deliver f k s = k m s := by
  unfold deliver
  rw [orLeave_of_stays hl, if_neg (ne_true_of_eq_false hd), hm]

/-- The same once the flit has been taken off the mesh. -/
theorem deliver_flitTaken {k : Lcid → State → State} {m : Lcid} (hl : leaving f = false) (hd : s.siteDown f = false)
    (hm : s.memberAt f = some m) : deliver f k (flitTaken f s) = k m (flitTaken f s) :=
  deliver_of_member hl ((flitTaken_siteDown f).trans hd) ((flitTaken_memberAt f).trans hm)

/-! ### Folds (R243-R248) -/

section

variable {p : Plan} {g : GroupEnt} (hp : s.planAt (f.node.1 / 256) = some p)
  (hg : (p.groups.find? fun x => x.group == f.group.toNat) = some g)

include hp hg

/-- The group of a fold flit, in the plan of its slot. -/
theorem foldGroup_some : ((s.planAt (f.node.1 / 256)).bind fun p => p.groups.find? fun x => x.group == f.group.toNat) = some g := by
  rw [hp, Option.bind_some, hg]

/-- The result of a fold lands in the window of the root. -/
theorem foldArrives_root (hn : foldLive g.members.length (f.node.1 % 256) ≤ 1) (hd : s.siteDown f = false) :
    foldArrives f s = landIn g.root { f with group := BitVec.ofNat 8 g.xfer } (foldPlace g f) s := by
  simp only [foldArrives, foldGroup_some hp hg, if_pos hn, hd, Bool.false_eq_true, if_false]

/-- An operand that comes to a node is buffered there, and the node tries its pair. -/
theorem foldArrives_node (hn : 1 < foldLive g.members.length (f.node.1 % 256)) (hd : s.subtreeGone g (f.node.1 % 256) f.node.2 = false) :
    foldArrives f s
      = tryNode (f.node.1 / 256) f.stack (f.node.1 % 256) (f.node.2 / 2) g { s with foldBuf := s.foldBuf ++ [f] } := by
  simp only [foldArrives, foldGroup_some hp hg, if_neg (Nat.not_le.mpr hn), hd, Bool.false_eq_true, if_false]

end

end

/-! ## The obligations of chapter 04 -/

/-- Settles O25: each kind's arrival under its hypotheses, on the state without the flit. -/
theorem flitArrivals : Obligations.FlitArrivals := by
  unfold Obligations.FlitArrivals
  refine ⟨⟨fun f s ha hl hn => exec_of_arrived rfl ha ?readReq,
      fun f s ha hl => exec_of_arrived rfl ha ?readData,
      fun f s ha hl hn => exec_of_arrived rfl ha ?write,
      fun f s m ha hl hd hm => exec_of_arrived rfl ha ?put,
      fun f s m x ha hl hd hm hx => exec_of_arrived rfl ha ?mcast,
      fun f s m ha hl hd hm => exec_of_arrived rfl ha ?mcastFull,
      fun f s m ha hl hd hm hf => exec_of_arrived rfl ha ?route,
      fun f s x ha hx hn h0 => exec_of_arrived (exec_flitCrumb f [] s) ha ?crumb,
      fun f s ha hl => exec_of_arrived rfl ha ?nack,
      fun f s ha hl => exec_of_arrived rfl ha ?complete,
      fun f s ha hs => exec_of_arrived (exec_flitCtrl f [] s) ha ?ctrl⟩,
    fun f s m ha hl hd hm hf => exec_of_arrived rfl ha ?routeLast,
    fun f s p g ha hp hg hn hd => exec_of_arrived rfl ha ?foldRoot,
    fun f s p g ha hp hg hn hd => exec_of_arrived rfl ha ?foldNode,
    fun f s p g m x ha hp hg hx => exec_of_arrived (exec_flitCredit f [] s) ha ?credit⟩
  case readReq => exact orLeave_of_slice (k := fun t => { t with flits := t.flits ++ readData t f }) hl hn
  case readData => exact orLeave_of_stays hl
  case write => exact orLeave_of_slice hl hn
  case put => exact deliver_flitTaken hl hd hm
  case mcast =>
    refine (deliver_flitTaken hl hd hm).trans ?_
    simp only [Bool.false_eq_true, if_false, flitTaken_netOf, hx]
  case mcastFull => exact deliver_flitTaken hl hd hm
  case route => exact (deliver_flitTaken hl hd hm).trans (congrArg (tookFlit f) (if_neg (ne_true_of_eq_false hf)))
  case crumb =>
    have h2 : x.xfer % 4 ≠ 2 := by omega
    simp only [flitTaken_netOf, hx, if_neg h2, flitTaken_noSlice, hn, Bool.false_eq_true, if_false, if_pos h0]
  case nack => exact orLeave_of_stays hl
  case complete => exact orLeave_of_stays hl
  case ctrl => exact if_pos hs
  case routeLast => exact (deliver_flitTaken hl hd hm).trans (congrArg (tookFlit f) (if_pos hf))
  case foldRoot => exact foldArrives_root ((flitTaken_planAt _).trans hp) hg hn ((flitTaken_siteDown f).trans hd)
  case foldNode => exact foldArrives_node ((flitTaken_planAt _).trans hp) hg hn ((flitTaken_subtreeGone ..).trans hd)
  case credit =>
    dsimp only
    rw [flitTaken_planAt, foldGroup_some hp hg]
    dsimp only
    split
    · next n y hy =>
      obtain ⟨rfl, rfl⟩ := Prod.mk.inj (Option.some.inj (hy.symm.trans hx))
      rfl
    · next hy => exact nomatch hy.symm.trans hx

/-- Settles O19: each instruction is dispatched with the operation stated. -/
theorem routingAndScoringComplete : Obligations.RoutingAndScoringComplete := by
  unfold Obligations.RoutingAndScoringComplete
  exact ⟨⟨completes_of_issueK fun _ _ _ => rfl, completesWith_of_issue fun _ _ _ => rfl, completesWith_of_issue fun _ _ _ => rfl,
      completes_of_issueK fun _ _ _ => rfl, completesWith_of_issue fun _ _ _ => rfl, completes_of_issueK fun _ _ _ => rfl,
      completesWith_of_issue fun _ _ _ => rfl, completes_of_issueK fun _ _ _ => rfl, completes_of_issueK fun _ _ _ => rfl⟩,
    completes_of_issueK fun _ _ _ => rfl, completesWith_of_issue fun _ _ _ => rfl, completesWith_of_issue fun _ _ _ => rfl,
    completes_of_issueK fun _ _ _ => rfl, completes_of_issueK fun _ _ _ => rfl, completes_of_issueK fun _ _ _ => rfl,
    completes_of_issueK fun _ _ _ => rfl⟩

end Sys2Proof.Claims
end

section
/-! ## SUPPORT and obligations of chapter 05: where a slice keeps its contents, and their upkeep -/

namespace Sys2Proof.Machine

open Sys2Proof

/-! ### Granules interleaved over banks (R115) -/

/-- Place `o` of storage whose 2 KiB granules go round the banks of a list: the rule of R115 for the banks a slice keeps to
itself, and of R134 for its global ones. -/
def interleaved (banks : List Nat) (o : Nat) : Nat :=
  banks.getD (o / 2048 % banks.length) 0 * 0x400000 + o / 2048 / banks.length * 2048 + o % 2048

section

variable {banks : List Nat} {o a b : Nat}

/-- Storage that fits its banks uses the 2,048 addressable rows of each. -/
theorem interleaved_row_lt (h : o < banks.length * 0x400000) : o / 2048 / banks.length < 2048 :=
  Nat.div_lt_of_lt_mul (by omega)

/-- The bank of a place is the one whose turn its granule is. -/
theorem interleaved_bank (h : o < banks.length * 0x400000) :
    interleaved banks o / 0x400000 = banks.getD (o / 2048 % banks.length) 0 := by
  have hr := interleaved_row_lt h
  unfold interleaved
  omega

/-- The offset of a place in its bank: its round's row, and its byte of that row. -/
theorem interleaved_offset (h : o < banks.length * 0x400000) :
    interleaved banks o % 0x400000 = o / 2048 / banks.length * 2048 + o % 2048 := by
  have hr := interleaved_row_lt h
  unfold interleaved
  omega

/-- The turn of a granule is a position of the list. -/
theorem interleaved_turn_lt (h : o < banks.length * 0x400000) : o / 2048 % banks.length < banks.length :=
  Nat.mod_lt _ (by omega)

/-- Each place lies in one of the banks. -/
theorem interleaved_bank_mem (h : o < banks.length * 0x400000) : interleaved banks o / 0x400000 ∈ banks := by
  rw [interleaved_bank h, List.getD_eq_getElem _ _ (interleaved_turn_lt h)]
  exact List.getElem_mem _

/-- Over distinct banks no two places share storage: bank and row give the granule back, by its turn and its round. -/
theorem interleaved_inj (hd : banks.Nodup) (ha : a < banks.length * 0x400000) (hb : b < banks.length * 0x400000)
    (h : interleaved banks a = interleaved banks b) : a = b := by
  have hbank := congrArg (· / 0x400000) h
  have hoff := congrArg (· % 0x400000) h
  simp only [interleaved_bank ha, interleaved_bank hb, List.getD_eq_getElem _ _ (interleaved_turn_lt ha),
    List.getD_eq_getElem _ _ (interleaved_turn_lt hb), hd.getElem_inj_iff] at hbank
  simp only [interleaved_offset ha, interleaved_offset hb] at hoff
  have hround : a / 2048 / banks.length = b / 2048 / banks.length := by omega
  have hgranule : a / 2048 = b / 2048 := by
    rw [← Nat.div_add_mod (a / 2048) banks.length, hround, hbank, Nat.div_add_mod]
  omega

end

/-! ### The banks of each kind (R114) -/

theorem globalBanks_nodup (n : Nat) : (globalBanks n).Nodup := List.nodup_range.filter _
theorem privateBanks_nodup (n : Nat) : (privateBanks n).Nodup := List.nodup_range.filter _

/-- Each step of the table takes four banks. -/
theorem globalBanks_length : ∀ n ≤ 6, (globalBanks n).length = 4 * n := by decide

/-- The other banks stay a slice's own. -/
theorem privateBanks_length : ∀ n ≤ 6, (privateBanks n).length = 48 - 4 * n := by decide

/-- A slice's own storage is interleaved over its own banks. -/
theorem privLoc_eq_interleaved {n : Nat} (hn : n ≤ 6) (o : Nat) : privLoc n o = interleaved (privateBanks n) o := by
  rw [privLoc, interleaved, privateBanks_length n hn]

/-! ### Global granules (R134) -/

/-- The site of global granule `g`: the stacks take turns, and within each its slices. -/
def granuleSite (g : Nat) : Nat := 256 * (g % 20) + 16 * (g / 20 % 240 / 15) + g / 20 % 240 % 15

/-- The byte of a global address among those its slice holds: each round of the 4,800 slices gives a slice 4 KiB. -/
def sliceByte (a : Nat) : Nat := a / 4096 / 4800 * 4096 + a % 4096

/-- A global address lies at its granule's site, interleaved over the global banks. -/
theorem globLoc_eq_interleaved {n : Nat} (hn : n ≤ 6) (a : Nat) :
    globLoc n a = (granuleSite (a / 4096), interleaved (globalBanks n) (sliceByte a)) := by
  rw [interleaved, globalBanks_length n hn]
  rfl

/-- The stack, row and column of a granule's site. -/
theorem granuleSite_fields (g : Nat) : granuleSite g / 256 = g % 20 ∧ granuleSite g % 256 / 16 = g / 20 % 240 / 15
    ∧ granuleSite g % 16 = g / 20 % 240 % 15 := by
  have hrow : g / 20 % 240 / 15 < 16 := by omega
  have hcol : g / 20 % 240 % 15 < 15 := by omega
  unfold granuleSite
  generalize g / 20 % 240 / 15 = row, g / 20 % 240 % 15 = col at *
  omega

/-- A granule's site is one of a stack's user slices: the sixteenth column holds the reserve. -/
theorem granuleSite_user (g : Nat) : granuleSite g / 256 < 20 ∧ granuleSite g % 16 < 15 := by
  obtain ⟨hstack, -, hcol⟩ := granuleSite_fields g
  omega

/-- The granules of one site are whole rounds apart. -/
theorem granuleSite_mod_eq {g h : Nat} (e : granuleSite g = granuleSite h) : g % (20 * 240) = h % (20 * 240) := by
  obtain ⟨hstack, hrow, hcol⟩ := granuleSite_fields g
  obtain ⟨hstack', hrow', hcol'⟩ := granuleSite_fields h
  have hord : g / 20 % 240 = h / 20 % 240 := Nat.ext_div_mod (by rw [← hrow, ← hrow', e]) (by rw [← hcol, ← hcol', e])
  rw [Nat.mod_mul, Nat.mod_mul, hord, ← hstack, ← hstack', e]

/-- The site and the byte of a global address give it back. -/
theorem global_eq_of_site_byte {a b : Nat} (hs : granuleSite (a / 4096) = granuleSite (b / 4096)) (hb : sliceByte a = sliceByte b) :
    a = b := by
  have hg := granuleSite_mod_eq hs
  unfold sliceByte at hb
  omega

/-- What a slice holds of the global addresses fits its global banks. -/
theorem sliceByte_lt {n a : Nat} (hn : n ≤ 6) (ha : a < globalSize n) : sliceByte a < (globalBanks n).length * 0x400000 := by
  rw [globalBanks_length n hn]
  unfold globalSize at ha
  unfold sliceByte
  omega

/-! ### Commands that act under a condition (log 1) -/

theorem unit_of {b : Bool} {k : Out} (h : b = true) : unit b k = k := by rw [h, unit_true]

theorem when_of {b : Bool} {s t : State} (h : b = true) : when b s t = .next t := by rw [h, when_true]

/-! ### Patrol scrub and rereads (R35, R284, R286, R287) -/

section

variable {n w : Nat} {errs : List WordError} {u : Bool} {s : State}

/-- Nothing is scrubbed while a tick overruns. -/
theorem execPatrolScrub_late (hv : validSite n = true) (hl : s.seqr.late = true) : execPatrolScrub n errs s = .next s := by
  rw [execPatrolScrub, unit_of hv, hl, Bool.or_true]
  rfl

/-- A slice that scrubs, with rows left in its pass, reads the next one unless it is passed over. -/
theorem execPatrolScrub_row (hv : validSite n = true) (hp : s.scrubPaused = false) (ho : s.boot.off = false) (hl : s.seqr.late = false)
    (hg : s.sliceGone n = false) (hr : Tab.getD s.scrubbed n 0 < sliceRows)
    (hk : s.scrubSkips n (scrubLoc (Tab.getD s.scrubbed n 0)) = false) :
    let loc := scrubLoc (Tab.getD s.scrubbed n 0)
    let moved : State := { s with scrubbed := Tab.set s.scrubbed n (Tab.getD s.scrubbed n 0 + 1) }
    let met := errs.foldl (fun t e => t.setError (t.phys n (loc + 8 * (e.word % 256)) / 8) e.uncorrectable) moved
    execPatrolScrub n errs s = .next (endPass (devIncP (.scrubBytes (n / 256)) 2048
      ((List.range 32).foldl (fun t i => scrubLine n (loc + 64 * i) t) met))) := by
  have hruns : (s.scrubPaused || s.boot.off || s.seqr.late) = false := by rw [hp, ho, hl]; rfl
  have hrow : (s.sliceGone n || decide (sliceRows ≤ Tab.getD s.scrubbed n 0)) = false := by
    rw [hg, decide_eq_false (Nat.not_le.2 hr)]; rfl
  exact (unit_of hv).trans ((if_neg (ne_true_of_eq_false hruns)).trans
    ((if_neg (ne_true_of_eq_false hrow)).trans (if_neg (ne_true_of_eq_false hk))))

/-- A reread of a word that waits for one forgets its wait; what else it does turns on the bits. -/
theorem execRewriteReread_waiting (again : Bool) (hw : Tab.get s.rereads w = some u) :
    execRewriteReread w again s = .next (if again then lastingWord w u { s with rereads := Tab.del s.rereads w }
      else { s with rereads := Tab.del s.rereads w, injWords := s.injWords.filter fun x => x != w }) := by
  rw [execRewriteReread, hw]

end

end Sys2Proof.Machine

namespace Sys2Proof.Claims

open Sys2Proof Sys2Proof.Machine

/-- Settles O34: both kinds of storage are interleaved over distinct banks. -/
theorem storageIsDistinct : Obligations.StorageIsDistinct := by
  unfold Obligations.StorageIsDistinct
  refine ⟨fun n a b hn ha hb => ?own, fun n a b _ hn ha hb => ?global⟩
  case own =>
    rw [privateSize, ← privateBanks_length n hn] at ha hb
    rw [privLoc_eq_interleaved hn, privLoc_eq_interleaved hn]
    exact ⟨interleaved_inj (privateBanks_nodup n) ha hb, interleaved_bank_mem ha⟩
  case global =>
    have hfit := sliceByte_lt hn ha
    rw [globLoc_eq_interleaved hn, globLoc_eq_interleaved hn]
    refine ⟨fun h => ?_, interleaved_bank_mem hfit, granuleSite_user _⟩
    obtain ⟨hsite, hplace⟩ := Prod.mk.inj h
    exact global_eq_of_site_byte hsite (interleaved_inj (globalBanks_nodup n) hfit (sliceByte_lt hn hb) hplace)

/-- Settles O43: each event acts, for the state it is stated of, by the branch its conditions choose. -/
theorem memoryUpkeep : Obligations.MemoryUpkeep := by
  unfold Obligations.MemoryUpkeep
  refine ⟨⟨fun n s hv => ⟨unit_of hv, unit_of hv⟩, fun s hz => when_of hz, fun s hp ht => when_of ?expired,
      fun s ho => when_of (congrArg not ho), fun s ho => when_of (congrArg not ho), fun s ho hm => when_of ?dirty⟩,
    fun n errs s hv hp hg ho hl hr hk => execPatrolScrub_row hv hp ho hl hg hr hk,
    fun n errs s hl hv => execPatrolScrub_late hv hl,
    fun w u s hw => ⟨execRewriteReread_waiting false hw, execRewriteReread_waiting true hw⟩⟩
  case expired => rw [hp, Bool.true_and, decide_eq_true ht]
  case dirty => rw [hm, ho]; rfl

end Sys2Proof.Claims
end

section
/-! ## SUPPORT and obligations of chapter 06: the crumb class of tile programs, and crumb programs -/

namespace Sys2Proof.Machine

open Sys2Proof

/-- A rule that is kept lets the operation go on. -/
theorem rule_bind {α : Type} {p : Bool} {f : Unit → Except CStop α} (h : p = true) : (rule p >>= f) = f () := by
  rw [rule, if_pos h]
  rfl

/-- A program that starts where its slice is there, once the one before it has ended and its vectors and parameters have landed, and whose
first fetch finds an instruction, leaves the unit at its start, with its parameters, holding a slot or waiting for one. -/
theorem execCrumbProgramStart_starts {u : UnitId} {s : State} {c : Lcid} {j : CrumbJob} {v : CrumbUnit} (hu : validUnit u = true)
    (hj : s.jobWhere u (fun x => !x.ended) = some (c, j)) (hs : j.started = false) (hp : s.seqr.phase = .executing)
    (hl : ((s.core c).outbound.any fun x => x.kind == 7 && decide (x.xfer % 4 ≠ 2) && decide (x.id ≤ j.order)
      && (BitVec.ofNat 48 x.group).getLsbD u.bank) = false)
    (hd : s.sliceDead u.slice = false)
    (hv : v = { s.crumbAt u with
      q := (List.range 8).map fun i => (i, j.params.getD i 0), pc := j.start, flags := 0, loop := none, running := true,
      waiting := !s.slotFree u })
    (hf : v.fetchBad = false) :
    execCrumbProgramStart u s = .next ((modJob c j (fun x => { x with started := true }) s).setCrumb u v) := by
  subst hv
  have hgo : ¬ (j.started || ((s.core c).outbound.any fun x => x.kind == 7 && decide (x.xfer % 4 ≠ 2) && decide (x.id ≤ j.order)
      && (BitVec.ofNat 48 x.group).getLsbD u.bank) || decide (s.seqr.phase ≠ .executing)) = true := by
    rw [hs, hl, hp]
    decide
  unfold execCrumbProgramStart
  rw [unit_of hu, hj]
  exact (if_neg hgo).trans ((if_neg (ne_true_of_eq_false hd)).trans (congrArg _ (if_neg (ne_true_of_eq_false hf))))

end Sys2Proof.Machine

namespace Sys2Proof.Claims

open Sys2Proof Sys2Proof.Machine

/-! ## SUPPORT: crumb instructions that are issued -/

/-- FENCE.CRUMB of a core none of whose programs has broken a rule is issued as an instruction of its own. -/
theorem execFenceCrumb_of_unbroken {c : Lcid} {s : State} (o : Op) (h : (s.core c).crumbFault = none) :
    execFenceCrumb c o s = issueK c 0xB2 ⟨.no, .no, .no, 0, 0, false⟩ o s bodyFenceCrumb := by
  rw [execFenceCrumb, h]

section

variable {u : UnitId} {op : BitVec 6} {d a b : Bool} {imms : BitVec 17} {o : CrumbOp} {s t : State} {c : Lcid} {j : CrumbJob}
  {v : CrumbUnit} {n : Nat}

/-- An issued crumb instruction of a program in progress whose operation gives an answer completes with it. -/
theorem crumbRun_of_issued {body : Lcid → CrumbJob → CrumbUnit → Except CStop (CrumbUnit × Nat × State)}
    (hi : crumbIssued u op d a b imms o s = true) (hj : inProgress u s = some (c, j))
    (hb : body c j (s.crumbAt u) = .ok (v, n, t)) : crumbRun u op d a b imms o s body = .next (crumbDone u c j v n t) := by
  simp only [crumbIssued, Bool.and_eq_true, Bool.not_eq_eq_eq_not, Bool.not_true] at hi
  obtain ⟨⟨⟨⟨⟨⟨⟨⟨⟨hu, hr⟩, hw⟩, hp⟩, hf⟩, hs⟩, hd⟩, ha⟩, hqb⟩, hm⟩ := hi
  unfold inProgress at hj
  unfold crumbRun
  simp only [unit_of hu, hj, hr, hw, hp, hf, hs, hd, ha, hqb, hm, Bool.not_false, Bool.and_true, if_true, Bool.false_eq_true, if_false]
  rw [rule_bind rfl, hb]
  rfl

/-- The same of an operation on the unit alone, which takes one cycle. -/
theorem crumbUnitOp_of_issued {f : CrumbUnit → Except CStop CrumbUnit} (hi : crumbIssued u op d a b imms o s = true)
    (hj : inProgress u s = some (c, j)) (hb : f (s.crumbAt u) = .ok v) :
    crumbUnitOp u op d a b imms o s f = .next (crumbDone u c j v.next 1 s) :=
  crumbRun_of_issued hi hj (by rw [hb]; rfl)

end

/-- A crumb instruction dispatched with its opcode, its fields and its operation completes with what the operation gives. -/
theorem crumbCompletesWith_of_run {mk : UnitId → CrumbOp → Instr} {op : BitVec 6} {d a b : Bool} {imms : BitVec 17}
    {body : UnitId → CrumbOp → State → Lcid → CrumbJob → CrumbUnit → Except CStop (CrumbUnit × Nat × State)}
    (he : ∀ u o s, exec (mk u o) s = crumbRun u op d a b imms o s (body u o s)) : CrumbCompletesWith mk op d a b imms body :=
  fun u o s _ _ _ _ _ hi hj hb => (he u o s).trans (crumbRun_of_issued hi hj hb)

/-- A register instruction, which breaks no rule, completes with the unit its operation gives. -/
theorem crumbCompletes_of_unitOp {mk : UnitId → CrumbOp → Instr} {op : BitVec 6} {d a b : Bool} {imms : BitVec 17}
    {body : CrumbOp → CrumbUnit → CrumbUnit} (he : ∀ u o s, exec (mk u o) s = crumbUnitOp u op d a b imms o s fun v => .ok (body o v)) :
    CrumbCompletes mk op d a b imms body :=
  fun u o s _ _ hi hj => (he u o s).trans (crumbUnitOp_of_issued hi hj rfl)

/-! ## The obligations of chapter 06 -/

/-- Settles O20: each instruction is dispatched with the operation stated, and each event acts by the branch its conditions choose. -/
theorem crumbClassCompletes : Obligations.CrumbClassCompletes := by
  unfold Obligations.CrumbClassCompletes
  refine ⟨⟨completesWith_of_issue fun _ _ _ => rfl, completesWith_of_issue fun _ _ _ => rfl, fun c o s k hi hn hb => ?fence,
      completes_of_issueK fun _ _ _ => rfl⟩,
    fun u s c j hu hj hs hp hl hd => ?start, fun n s hn => unit_of hn⟩
  case fence => exact (execFenceCrumb_of_unbroken o hn).trans (issueK_of_issued hi hb)
  case start => exact fun hf => execCrumbProgramStart_starts hu hj hs hp hl hd rfl hf

/-- Settles O21: each instruction is dispatched with the operation stated. -/
theorem crumbProgramInstructions : Obligations.CrumbProgramInstructions := by
  unfold Obligations.CrumbProgramInstructions
  exact ⟨⟨fun u o s c j hi hj => crumbRun_of_issued hi hj rfl, fun u o s c j v hi hj hb => crumbUnitOp_of_issued hi hj hb,
      crumbCompletesWith_of_run fun _ _ _ => rfl, crumbCompletesWith_of_run fun _ _ _ => rfl, crumbCompletesWith_of_run fun _ _ _ => rfl,
      crumbCompletesWith_of_run fun _ _ _ => rfl, crumbCompletesWith_of_run fun _ _ _ => rfl⟩,
    crumbCompletes_of_unitOp fun _ _ _ => rfl, crumbCompletes_of_unitOp fun _ _ _ => rfl, crumbCompletes_of_unitOp fun _ _ _ => rfl,
    crumbCompletes_of_unitOp fun _ _ _ => rfl⟩

end Sys2Proof.Claims
end

section
/-! ## SUPPORT and obligations of chapter 07: accesses through BAR2 -/

namespace Sys2Proof.Machine

open Sys2Proof

section

variable {off len a n : Nat} {data : List Byte} {write : Bool} {s : State}

/-- The closed row of the outcomes comes before every other (R369). -/
theorem bar2Outcome_closed (h : s.memOpen = false) : s.bar2Outcome a n write = 1 := by
  rw [State.bar2Outcome, h]
  rfl

/-- A read that meets no row of the outcomes answers the bytes, said to be poisoned where one of them is. -/
theorem execBar2Read_reached (hin : s.bar2In off len = true) (ho : s.bar2Outcome (s.host.bar2Base + off) len false = 0) :
    execBar2Read off len s =
      .next (bar2Answer (if (s.devRead s.fresh (s.host.bar2Base + off) len).2 then 3 else 0)
        (s.devRead s.fresh (s.host.bar2Base + off) len).1
        (noteRange (s.host.bar2Base + off) len { s with fresh := s.fresh + 1 })) := by
  unfold execBar2Read
  rw [hin]
  dsimp only
  rw [ho]
  rfl

/-- A read while expert memory access is closed is a completer abort, and DENIED counts it. -/
theorem execBar2Read_closed (hin : s.bar2In off len = true) (hc : s.memOpen = false) :
    execBar2Read off len s = .next (bar2Answer 1 [] (devInc .bar2Denied 1 s)) := by
  unfold execBar2Read
  rw [hin]
  dsimp only
  rw [bar2Outcome_closed hc]
  rfl

/-- A write that meets no row of the outcomes goes to a reserve by its rule, and to user-visible memory by code words. -/
theorem execBar2Write_reached (p : Bool) (hin : s.bar2In off data.length = true)
    (ho : s.bar2Outcome (s.host.bar2Base + off) data.length true = 0) :
    execBar2Write off data p s =
      .next (if isReserve (s.host.bar2Base + off) then bar2Reserve (s.host.bar2Base + off) data p s
        else writeCodes p (s.host.bar2Base + off) data.length (bar2Words (s.host.bar2Base + off) data s)) := by
  unfold execBar2Write
  rw [hin]
  dsimp only
  rw [ho]
  rfl

/-- A write while expert memory access is closed changes nothing but DENIED, which counts it. -/
theorem execBar2Write_closed (p : Bool) (hin : s.bar2In off data.length = true) (hc : s.memOpen = false) :
    execBar2Write off data p s = .next (devInc .bar2Denied 1 s) := by
  unfold execBar2Write
  rw [hin]
  dsimp only
  rw [bar2Outcome_closed hc]
  rfl

end

end Sys2Proof.Machine

namespace Sys2Proof.Claims

open Sys2Proof Sys2Proof.Machine

/-- Settles O52: each access is answered by the row of the outcomes it meets; one of user-visible memory and one of a reserve part at
the address. -/
theorem bar2Accesses : Obligations.Bar2Accesses := by
  unfold Obligations.Bar2Accesses
  refine ⟨fun _ _ _ => execBar2Read_reached, fun _ _ _ => execBar2Read_closed, fun off data p s hin ho hr => ?user,
    fun off data p s hin ho hr => ?reserve, fun _ _ p _ => execBar2Write_closed p⟩
  case user => exact (execBar2Write_reached p hin ho).trans (congrArg _ (if_neg (ne_true_of_eq_false hr)))
  case reserve => exact (execBar2Write_reached p hin ho).trans (congrArg _ (if_pos hr))

end Sys2Proof.Claims
end

section
/-! ## SUPPORT and obligations of chapter 08: evidence, the security engine and the Hearth, and the commands that ask for them -/

namespace Sys2Proof.Machine

open Sys2Proof

/-! ### Delivery of events and responses (R375, R395, R396) -/

/-- The state `t` is `s` but for what delivering events and responses changes: mailboxes and their rings, the event log and what is held
for it, counts for the next commit, and the host's queue of messages. -/
def Delivers (s t : State) : Prop :=
  ∃ devIncs mailboxes host eventLog nextEvent heldEvents,
    t = { s with devIncs := devIncs, mailboxes := mailboxes, host := host, eventLog := eventLog, nextEvent := nextEvent,
                 heldEvents := heldEvents }

section

variable {s t u : State}

theorem Delivers.refl (s : State) : Delivers s s := ⟨_, _, _, _, _, _, rfl⟩

theorem Delivers.trans (h : Delivers s t) (k : Delivers t u) : Delivers s u := by
  obtain ⟨_, _, _, _, _, _, rfl⟩ := h
  obtain ⟨_, _, _, _, _, _, rfl⟩ := k
  exact ⟨_, _, _, _, _, _, rfl⟩

theorem Delivers.hearth (h : Delivers s t) : t.hearth = s.hearth := by
  obtain ⟨_, _, _, _, _, _, rfl⟩ := h
  rfl

theorem Delivers.boot (h : Delivers s t) : t.boot = s.boot := by
  obtain ⟨_, _, _, _, _, _, rfl⟩ := h
  rfl

theorem Delivers.seqr (h : Delivers s t) : t.seqr = s.seqr := by
  obtain ⟨_, _, _, _, _, _, rfl⟩ := h
  rfl

theorem Delivers.dram (h : Delivers s t) : t.dram = s.dram := by
  obtain ⟨_, _, _, _, _, _, rfl⟩ := h
  rfl

theorem Delivers.plans (h : Delivers s t) : t.plans = s.plans := by
  obtain ⟨_, _, _, _, _, _, rfl⟩ := h
  rfl

end

/-- A fold only delivers where each of its steps does, whatever its accumulator holds beside the state. -/
theorem delivers_foldlBy {σ α : Type} (g : σ → State) {f : σ → α → σ} (h : ∀ a x, Delivers (g a) (g (f a x))) (a : σ) (l : List α) :
    Delivers (g a) (g (l.foldl f a)) := by
  induction l generalizing a with
  | nil => exact .refl _
  | cons x l ih => exact (h a x).trans (ih _)

theorem delivers_setMb (n : Nat) (m : Mailbox) (s : State) : Delivers s (s.setMb n m) := ⟨_, _, _, _, _, _, rfl⟩

theorem delivers_respond (mb : Nat) (r : Resp) (s : State) : Delivers s (respond mb r s) := ⟨_, _, _, _, _, _, respond_frame mb r s⟩

theorem delivers_sendVector (fn vec : Nat) (s : State) : Delivers s (sendVector fn vec s) := ⟨_, _, _, _, _, _, sendVector_frame fn vec s⟩

theorem delivers_toRing (r : EventRec) (n : Nat) (s : State) : Delivers s (toRing r n s) := by
  unfold toRing
  dsimp only
  split
  case isTrue => exact ⟨_, _, _, _, _, _, rfl⟩
  case isFalse => exact delivers_setMb n _ s

theorem delivers_writeRecord (r : EventRec) (s : State) : Delivers s (writeRecord r s).1 :=
  Delivers.trans ⟨_, _, _, _, _, _, rfl⟩ (delivers_foldlBy id (fun t n => delivers_toRing _ n t) _ _)

theorem delivers_ringVectors (l : List Nat) (s : State) : Delivers s (ringVectors l s) := by
  refine delivers_foldlBy id (fun t n => ?_) s l.eraseDups
  dsimp only [id]
  split
  case isTrue => exact delivers_sendVector ..
  case isFalse => exact .refl t

theorem delivers_postNow (p : PEvent) (s : State) : Delivers s (postNow p s) :=
  (delivers_writeRecord _ s).trans (delivers_ringVectors ..)

theorem delivers_releaseHeld (s : State) : Delivers s (releaseHeld s) := by
  unfold releaseHeld
  have emptied : Delivers s { s with heldEvents := [] } := ⟨_, _, _, _, _, _, rfl⟩
  refine (emptied.trans ?_).trans (delivers_ringVectors ..)
  refine delivers_foldlBy Prod.fst (fun a e => ?_) ({ s with heldEvents := [] }, []) _
  exact delivers_writeRecord { e with held := true } a.1

/-! ### The Hearth restarts (R307, R362) -/

/-- A reset of the Hearth takes Zororlon and the handover with it and puts bring-up at P7. Of the rest of the state it changes only the
draw, the staged activation and the drain causes that wait. -/
theorem hearthReset_frame (s : State) :
    ∃ fresh changes drainPend restarts adoptable kind, hearthReset s =
      { s with
        fresh := fresh, changes := changes, drainPend := drainPend
        hearth := { s.hearth with up := false, running := false, handover := none, restarts := restarts, adoptable := adoptable }
        boot := { s.boot with stage := 7, kind := kind, st := .running } } := by
  unfold hearthReset
  dsimp only [draw]
  split
  case isTrue => exact ⟨_, _, _, _, _, _, rfl⟩
  case isFalse => exact ⟨_, _, _, _, _, _, rfl⟩

/-- A restart of the Hearth in service is its reset with a record staged, whether a handover was under way or not; the rest is
delivery. -/
theorem hearthRestart_delivers (s : State) :
    ∃ staging logNext, Delivers { hearthReset s with staging := staging, logNext := logNext } (hearthRestart s) := by
  unfold hearthRestart
  split
  case h_1 mb _ =>
    have freed : Delivers (logFault hearthRec (hearthReset s)) (logFault hearthRec (freeMailbox mb (hearthReset s))) :=
      ⟨_, _, _, _, _, _, rfl⟩
    exact ⟨_, _, freed.trans (delivers_postNow ..)⟩
  case h_2 => exact ⟨_, _, delivers_postNow ..⟩

/-- A watchdog expiry of a device in service restarts the Hearth. -/
theorem execHearthWatchdogExpiry_inService {s : State} (ho : s.boot.off = false) (hh : s.boot.st ≠ .halted) (hr : s.boot.released = true)
    (hu : s.hearth.up = true) (hi : s.boot.readyIndex ≠ none) : execHearthWatchdogExpiry s = .next (hearthRestart s) := by
  have hruns : (s.boot.off || decide (s.boot.st = .halted) || !s.boot.released || !s.hearth.up) = false := by simp [ho, hh, hr, hu]
  have hready : (s.boot.readyIndex.isNone && decide (s.boot.stage ≤ 7)) = false := by simp [hi]
  exact (if_neg (ne_true_of_eq_false hruns)).trans (if_neg (ne_true_of_eq_false hready))

/-! ### The handover (R399, R400) -/

section

variable {s : State} {mb : Nat} {f : FwStage}

/-- Once the commit of FW_ACTIVATE is past, a handover runs the staged image or, where its self-check fails, resets the Hearth. -/
theorem execFirmwareHandover_committed (ok : Bool) (hh : s.hearth.handover = some mb) (hf : s.hearth.staged = some f)
    (hc : ∀ c ∈ s.changes, ∀ n, c ≠ .fwActivate n) :
    ∃ r, execFirmwareHandover ok s =
      if ok then
        let t := storeImage f.image s
        .next (post (event .fwReplaced none []) (releaseHeld (respond mb r
          { t with hearth := { t.hearth with handover := none, staged := none, measurement := f.measurement, svn := f.svn } })))
      else
        let t := freeMailbox mb (hearthReset s)
        .next (postNow (event .fwReplaceFailed none [])
          { t with
            hearth := { t.hearth with staged := none, up := true }
            boot := { t.boot with fetchWait := true, st := .waiting, fetchNs := t.seqr.time } }) := by
  unfold execFirmwareHandover
  rw [hh, hf]
  refine ⟨_, if_neg ?_⟩
  rw [Bool.not_eq_true, List.any_eq_false]
  intro c hm
  split
  case h_1 n => exact absurd rfl (hc _ hm n)
  case h_2 => exact Bool.false_ne_true

/-- A handover that goes through makes the staged image the running one. -/
theorem execFirmwareHandover_replaced (hh : s.hearth.handover = some mb) (hf : s.hearth.staged = some f)
    (hc : ∀ c ∈ s.changes, ∀ n, c ≠ .fwActivate n) :
    ∃ t, execFirmwareHandover true s = .next t ∧ t.hearth.handover = none ∧ t.hearth.staged = none
      ∧ t.hearth.measurement = f.measurement ∧ t.hearth.svn = f.svn := by
  obtain ⟨r, he⟩ := execFirmwareHandover_committed true hh hf hc
  refine ⟨_, he, ?_⟩
  rw [post_hearth, ((delivers_respond mb r _).trans (delivers_releaseHeld _)).hearth]
  exact ⟨rfl, rfl, rfl, rfl⟩

/-- A handover whose image fails leaves the device at P7, waiting for an image. -/
theorem execFirmwareHandover_failed (hh : s.hearth.handover = some mb) (hf : s.hearth.staged = some f)
    (hc : ∀ c ∈ s.changes, ∀ n, c ≠ .fwActivate n) :
    ∃ t, execFirmwareHandover false s = .next t ∧ t.hearth.staged = none ∧ t.hearth.running = false ∧ t.boot.fetchWait = true
      ∧ t.boot.stage = 7 ∧ t.hearth.handover = none := by
  obtain ⟨_, he⟩ := execFirmwareHandover_committed false hh hf hc
  obtain ⟨_, _, _, _, _, _, hreset⟩ := hearthReset_frame s
  refine ⟨_, he, ?_⟩
  rw [(delivers_postNow ..).hearth, (delivers_postNow ..).boot, hreset]
  exact ⟨rfl, rfl, rfl, rfl, rfl⟩

end

/-! ### Quotes, and what lapses (R398, R407, R415-R417) -/

section

variable {s : State}

/-- The oldest quote, formed and with no seal pending, is answered with what signing it gives: nothing signed where its buffer is too
short for message and signature. -/
theorem execQuoteSigned_formed {q : QuoteReq} {rest : List QuoteReq} {m : List Byte} {r : List Byte × Bool × State}
    (hq : s.quotes = q :: rest) (hm : q.msg = some m) (hp : s.sealsPending = 0)
    (hr : (if q.bufLen < m.length + 9893 then (List.replicate 9893 (0 : Byte), s.canSign, { s with quotes := rest })
      else sign m { s with quotes := rest }) = r) :
    execQuoteSigned s = .next (respond q.mb
      (quoteLost (quoteResp q r.2.1 s.mram.nextIndex (m ++ r.1) r.2.2) q.dmaWr) (devInc .quote 1 r.2.2)) := by
  subst hr
  unfold execQuoteSigned
  rw [hq]
  dsimp only
  rw [hm]
  exact if_neg (not_not_intro hp)

/-- The DEBUG level of an open session lapses once its token's lifetime has passed. -/
theorem execDebugLevelLapse_due {n d : Nat} {x : Session} (hx : Tab.get s.sessions n = some x) (hd : x.dbgLevel = some d)
    (hp : x.pendingOpen = false) (ht : x.since + x.lifetime * 1000000000 ≤ s.seqr.time) :
    execDebugLevelLapse n s = .next (modSession n (fun y => { y with dbgLevel := none, tap := false }) s) := by
  unfold execDebugLevelLapse
  rw [hx]
  exact when_of (by rw [hd, hp, decide_eq_true ht]; rfl)

/-- A nonce is void once its time has passed. -/
theorem execNonceExpiry_due {fn : Nat} {p : Nat × List Byte} (hv : validFn fn = true) (hp : Tab.get s.nonces fn = some p)
    (ht : p.1 + 300000000000 ≤ s.seqr.time) : execNonceExpiry fn s = .next { s with nonces := Tab.del s.nonces fn } := by
  unfold execNonceExpiry
  rw [unit_of hv, hp]
  exact when_of (decide_eq_true ht)

/-- A staged image that is not being activated is discarded once its time has passed. -/
theorem execFwStagingExpiry_due {f : FwStage} (hf : s.hearth.staged = some f) (hh : s.hearth.handover = none)
    (ht : f.since + 600000000000 ≤ s.seqr.time) :
    execFwStagingExpiry s = .next { s with hearth := { s.hearth with staged := none } } := by
  unfold execFwStagingExpiry
  rw [hf]
  exact when_of (by rw [hh, decide_eq_true ht]; rfl)

end

end Sys2Proof.Machine

namespace Sys2Proof.Claims

open Sys2Proof Sys2Proof.Machine

/-- Settles O44: each event takes the branch its conditions choose; what a handover or a restart delivers leaves the Hearth, the stage,
memory and the plans as its reset left them. -/
theorem securityAndFirmwareEvents : Obligations.SecurityAndFirmwareEvents := by
  unfold Obligations.SecurityAndFirmwareEvents
  refine ⟨⟨fun s hs => when_of (decide_eq_true hs), fun _ _ _ _ hq hm hp hb => execQuoteSigned_formed hq hm hp (if_pos hb),
      fun _ _ _ _ hq hm hp hb => execQuoteSigned_formed hq hm hp (if_neg (Nat.not_lt.2 hb)), fun _ _ _ _ => execDebugLevelLapse_due,
      fun _ _ _ => execNonceExpiry_due, fun _ _ => execFwStagingExpiry_due⟩,
    fun s mb f hh hf hc => ?handover, fun s ho hh hr hu hi => ?watchdog⟩
  case handover =>
    have committed : ∀ c ∈ s.changes, ∀ n, c ≠ .fwActivate n := by
      rintro c hm n rfl
      exact hc _ hm
    exact ⟨execFirmwareHandover_replaced hh hf committed, execFirmwareHandover_failed hh hf committed⟩
  case watchdog =>
    obtain ⟨_, _, d⟩ := hearthRestart_delivers s
    obtain ⟨_, _, _, _, _, _, hreset⟩ := hearthReset_frame s
    refine ⟨_, execHearthWatchdogExpiry_inService ho hh hr hu hi, ?_⟩
    rw [d.hearth, d.boot, d.seqr, d.dram, d.plans, hreset]
    exact ⟨rfl, rfl, rfl, rfl, rfl, rfl, rfl⟩

/-- Settles O60: each command is served by its table entry, whose run stages or does what is stated. -/
theorem deviceAndSecurityCommandsAccepted : Obligations.DeviceAndSecurityCommandsAccepted := by
  unfold Obligations.DeviceAndSecurityCommandsAccepted
  refine ⟨⟨stages_of_does ?_, ?_, stages_of_does ?_, stages_of_does ?_, ?_, stages_of_does ?_, ?_, stages_of_does ?_, ?_,
      stages_of_does ?_, stages_of_does ?_, stages_of_does ?_, stages_of_does ?_, stages_of_does ?_, stages_of_does ?_,
      stages_of_does ?_, stages_of_does ?_, stages_of_does ?_⟩,
    ?_, stages_of_does ?_, stages_of_does ?_, stages_of_does ?_, stages_of_does ?_, stages_of_does ?_, stages_of_does ?_, ?_, ?_,
    stages_of_does ?_, stages_of_does ?_, stages_of_does ?_, stages_of_does ?_, stages_of_does ?_, ?_, stages_of_does ?_, ?_,
    stages_of_does ?_, stages_of_does ?_, ?_, ?_, ?_⟩ <;>
    exact does_of_serveCmd (fun _ _ => rfl) (fun _ _ => rfl)

end Sys2Proof.Claims
end

section
/-! ## SUPPORT and obligations of chapter 09: the network, its windows, and CRC mismatches of flits and frames -/

namespace Sys2Proof.Machine

open Sys2Proof

/-! ## SUPPORT: what the network instructions of one core give (R250, R251) -/

section

variable {o : Op} {k : CoreCtx}

/-- NWAIT of a window that is complete, not yet retired, and in which no line landed twice. -/
theorem bodyNwait_complete {w : WinState} (hw : k.win o.imm.toNat = some w) (hr : w.retired = false) (hc : w.complete = true)
    (hx : w.conflict = false) :
    bodyNwait o k = .ok (((k.modWin w.xfer fun x => { x with retired := true }).orFlags w.flags).sset o.dst
      (BitVec.ofNat 64 ((Status.first w.status (if w.landed.any fun l => l.2.2.2.2 then .poison else .ok)).code
        + (if w.missing = [] then 0 else 256) + 65536 * w.missing.length)) false) := by
  have hretired : (!w.retired) = true := by rw [hr]; rfl
  have hconflict : (!w.conflict) = true := by rw [hx]; rfl
  simp only [bodyNwait, hw, need_bind hretired, await_bind hc, need_bind hconflict, List.isEmpty_iff]
  rfl

/-- NSYNC of a core with no transfer out gives their first status, and forgets it. -/
theorem bodyNsync_idle (hf : k.netFault = false) (hn : k.netOut = []) :
    bodyNsync o k = .ok (({ k with syncStatus := .ok, outbound := k.outbound.filter fun x => !x.done } : CoreCtx).sset o.dst
      (BitVec.ofNat 64 k.syncStatus.code) false) :=
  (need_bind (congrArg not hf)).trans (await_bind (List.isEmpty_iff.2 hn))

/-- NSYNC waits for a transfer that is out. -/
theorem bodyNsync_waits (hf : k.netFault = false) (hn : k.netOut ≠ []) : bodyNsync o k = .error .wait := by
  refine (need_bind (congrArg not hf)).trans ?_
  rw [List.isEmpty_eq_false_iff.2 hn]
  rfl

/-- NSTAT of a count that is not reserved. -/
theorem bodyNstat_ok (h : o.imm.toNat ≤ 5) :
    bodyNstat o k = .ok (k.sset o.dst (BitVec.ofNat 64 (Tab.getD k.netCounts o.imm.toNat 0)) false) :=
  need_bind (decide_eq_true h)

end

/-! ## SUPPORT: transfers and windows that complete (R241, R242, R248) -/

section

variable {c : Lcid} {n : Nat} {s : State} {x : NetXfer}

/-- A transfer that its destinations have all answered completes. -/
theorem execNetworkTransferDone_ready (hc : validLcid c = true) (hx : s.netOf c n = some x) (hk : x.kind.toNat ≤ 5)
    (hd : x.done = false) (hr : netReady s c x = true) : execNetworkTransferDone c n s = .next (completeNet c x s) := by
  unfold execNetworkTransferDone
  rw [unit_of hc, hx]
  exact when_of (by rw [decide_eq_true hk, hd, hr]; rfl)

/-- The destinations of a transfer that have neither reported nor refused. -/
def NetXfer.lacking (x : NetXfer) : List Nat := (List.range x.dests.length).filter fun d => !x.reported.contains d && !x.missing.contains d

/-- A destination without an answer is one that lacks flits. -/
theorem NetXfer.lacking_ne_nil (h : ((List.range x.dests.length).any fun d => !x.reported.contains d && !x.missing.contains d) = true) :
    x.lacking ≠ [] := by
  obtain ⟨d, hd, hp⟩ := List.any_eq_true.1 h
  exact List.ne_nil_of_mem (List.mem_filter.2 ⟨hd, hp⟩)

/-- A multicast with members that lack flits leaves them out and completes; with LIMIT that is a fault in the tick. -/
theorem execMcastAbandon_lacking {y : NetXfer} (hc : validLcid c = true) (hx : s.netOf c n = some x) (hk : x.kind = 4)
    (hd : x.done = false) (hl : x.lacking ≠ []) (hy : (notifyLacking c n x x.lacking s).netOf c n = some y) :
    execMcastAbandon c n s
      = .next (if y.status = .limit then
          failAttempt (devInc (.mcastLimit (lcStack c)) 1 (completeNet c y (notifyLacking c n x x.lacking s)))
        else completeNet c y (notifyLacking c n x x.lacking s)) := by
  have hopen : ¬(x.kind ≠ 4 ∨ x.done = true ∨ x.lacking.isEmpty = true) := by simp [hk, hd, hl]
  unfold NetXfer.lacking at hopen hy ⊢
  unfold execMcastAbandon
  rw [unit_of hc, hx]
  dsimp only
  rw [if_neg hopen, hy]

variable {w : WinState}

/-- A window whose lines have landed, none of its sources out of reach, completes with what landed. -/
theorem execWindowComplete_landed (hc : validLcid c = true) (hw : (s.core c).win n = some w) (hn : w.complete = false)
    (hl : w.landed.length = w.lines) (hs : lostSources s w = []) :
    execWindowComplete c n s = .next (s.setCore c ((s.core c).modWin n winLanded)) := by
  unfold execWindowComplete
  rw [unit_of hc, hw]
  dsimp only
  rw [if_neg (ne_true_of_eq_false hn), if_pos ⟨hl, .inl hs⟩]

/-- A window that lacks lines completes without its sources that cannot be reached. -/
theorem execWindowComplete_lost (hc : validLcid c = true) (hw : (s.core c).win n = some w) (hn : w.complete = false)
    (hl : w.landed.length ≠ w.lines) (hs : lostSources s w ≠ []) :
    execWindowComplete c n s = .next (winLost c w (lostSources s w) s) := by
  unfold execWindowComplete
  rw [unit_of hc, hw]
  dsimp only
  rw [if_neg (ne_true_of_eq_false hn), if_neg fun h => hl h.1]
  exact when_of (decide_eq_true hs)

end

/-! ## SUPPORT: CRC mismatches of flits and frames (R236, R237, R257) -/

section

variable {kind : BitVec 4} {f : NetFlit} {bad : List Nat} {q r : Nat} {rest : List Nat} {s : State} {k : State → State}

/-- A flit that two routers of its path find wrong is discarded and counted, with a fault at the second. -/
theorem arrive_second_mismatch (hk : kind.toNat < 0xC) (hb : (bad.filter fun n => (s.pathOf f).contains n) = q :: r :: rest)
    (hv : validStack f.stack = true) (hf : s.flitFirst f = true) (he : f.kind = kind) :
    arrive kind f bad s k = .next (reportFault (routerSite f.stack r)
      (devInc (.crcFail f.stack) 1 (devInc (.crcReplay f.stack) 1 { s with flits := s.flits.erase f }))) := by
  unfold arrive
  rw [unit_of hv, if_pos hf]
  dsimp only
  rw [if_neg (Nat.not_le.2 (he ▸ hk)), if_pos he, hb]

/-- A flit that one router finds wrong is replayed and counted, and then has its kind's effect. -/
theorem arrive_first_mismatch (hk : kind.toNat < 0xC) (hb : (bad.filter fun n => (s.pathOf f).contains n) = [q])
    (hv : validStack f.stack = true) (hf : s.flitFirst f = true) (he : f.kind = kind)
    (hr : (f.sys || decide (s.seqr.phase = .executing)) = true) :
    arrive kind f bad s k
      = .next (k (incP (.flits f.stack) (s.forwards f) (devInc (.crcReplay f.stack) 1 { s with flits := s.flits.erase f }))) := by
  unfold arrive
  rw [unit_of hv, if_pos hf]
  dsimp only
  rw [if_neg (Nat.not_le.2 (he ▸ hk)), if_pos he, hb]
  exact if_pos hr

/-- A flit of a reserved TYPE is discarded and counted, whatever it was taken for. -/
theorem arrive_reserved (hv : validStack f.stack = true) (hf : s.flitFirst f = true) (he : 0xC ≤ f.kind.toNat) :
    arrive kind f bad s k = .next (devInc (.crcFail f.stack) 1 { s with flits := s.flits.erase f }) := by
  unfold arrive
  rw [unit_of hv, if_pos hf]
  exact if_pos he

end

/-- A frame with a CRC mismatch: the first is answered with REPLAY_REQ and the frame kept, the second is a fault at its engine. -/
theorem arriveFrame_mismatch {kind : BitVec 4} {f : NetFrame} {bad : Nat} {s : State} {k : State → State} (hb : 0 < bad)
    (hs : validStack f.src = true) (hd : validStack f.dst = true) (he : f.kind = kind) (hf : s.frameFirst f = true) :
    arriveFrame kind f bad s k = if f.tries = 0 then
        .next (answerFrame f 4 f.flit (devInc (.frameReplay f.src) 1
          { s with frames := s.frames.map fun g => if g = f then { f with tries := 1, held := true } else g }))
      else .next (reportFault (engineSite s f) (devInc (.frameFail f.src) 1 { s with frames := s.frames.erase f })) := by
  have hends : (validStack f.src && validStack f.dst) = true := by rw [hs, hd]; rfl
  have hnext : (decide (f.kind = kind) && s.frameFirst f) = true := by rw [decide_eq_true he, hf]; rfl
  unfold arriveFrame
  rw [unit_of hends, if_pos hnext]
  exact if_neg (Nat.ne_of_gt hb)

/-- FRAME_DATA is dispatched to its meaning. -/
theorem exec_frameData (f : NetFrame) (bad : Nat) (s : State) : exec (.frameData f bad) s = execFrameData f bad s := rfl

end Sys2Proof.Machine

namespace Sys2Proof.Claims

open Sys2Proof Sys2Proof.Machine

/-! ## The obligations of chapter 09 -/

/-- Settles O24: each completion takes place where its conditions hold. -/
theorem networkCompletion : Obligations.NetworkCompletion := by
  unfold Obligations.NetworkCompletion
  exact ⟨fun _ _ _ _ => execNetworkTransferDone_ready,
    fun _ _ _ _ hc hx hk hd hl _ hy => execMcastAbandon_lacking hc hx hk hd (NetXfer.lacking_ne_nil hl) hy,
    fun _ _ _ _ => execWindowComplete_landed, fun _ _ _ _ => execWindowComplete_lost⟩

/-- Settles O23: what NWAIT gives of a complete window of the core as the instruction finds it. -/
theorem nwaitResult : Obligations.NwaitResult := by
  unfold Obligations.NwaitResult
  exact fun c o s w hi hw hr hc hx => issueK_of_issued hi (bodyNwait_complete (k := found c o s) hw hr hc hx)

/-- Settles O22: each instruction is dispatched with the operation stated, and NSYNC goes on only with no transfer out. -/
theorem networkInstructionsComplete : Obligations.NetworkInstructionsComplete := by
  unfold Obligations.NetworkInstructionsComplete
  exact ⟨⟨completesWith_of_issue fun _ _ _ => rfl, completesWith_of_issue fun _ _ _ => rfl, completesWith_of_issue fun _ _ _ => rfl,
      completesWith_of_issue fun _ _ _ => rfl, fun c o s hi h => issueK_of_issued hi (bodyNstat_ok h)⟩,
    fun c o s hi hf hn => issueK_of_issued hi (bodyNsync_idle (k := found c o s) hf hn),
    fun c o s hi hf hn => issueK_waits hi (bodyNsync_waits (k := found c o s) hf hn)⟩

/-- Settles O26: what a mismatch does depends on how many there are, and only the first leaves a flit's kind to decide. -/
theorem crcMismatches : Obligations.CrcMismatches := by
  unfold Obligations.CrcMismatches
  refine ⟨fun f bad q r rest s hb hv hf => ?flits, ⟨fun f bad q s hb ha hl => ?first, fun f bad s => arrive_reserved⟩,
    fun f bad s hb hs hd he hf => ?frames⟩
  case flits =>
    have second {i : Instr} {kind : BitVec 4} {k : State → State} (hi : exec i s = arrive kind f bad s k)
        (hk : kind.toNat < 0xC := by decide) (he : f.kind = kind) := hi.trans (arrive_second_mismatch hk hb hv hf he)
    exact ⟨second rfl, second rfl, second rfl, second rfl, fun he _ => second rfl (he := he), second rfl, second rfl,
      second (exec_flitCrumb f bad s), second rfl, second rfl, second (exec_flitCredit f bad s), second (exec_flitCtrl f bad s)⟩
  case first =>
    simp only [arrived, Bool.and_eq_true, decide_eq_true_eq] at ha
    obtain ⟨⟨⟨hv, hk⟩, hf⟩, hr⟩ := ha
    exact (arrive_first_mismatch (by decide) hb hv hf hk hr).trans (congrArg _ (orLeave_of_stays hl))
  case frames =>
    have mismatch := (exec_frameData f bad s).trans (arriveFrame_mismatch hb hs hd he hf)
    exact ⟨fun h => mismatch.trans (if_pos h), fun h => mismatch.trans (if_neg h)⟩

end Sys2Proof.Claims
end

section
/-! ## SUPPORT and obligations of chapter 10: frames that arrive, and the events of stacks, lanes and lasers -/

namespace Sys2Proof.Machine

open Sys2Proof

/-! ## SUPPORT: what isolating a stack leaves of the stacks (R269) -/

section

variable {n k : Nat} {s : State}

/-- Delivering events and responses changes no stack. -/
theorem Delivers.stk {t : State} (h : Delivers s t) : t.stk = s.stk := by
  obtain ⟨_, _, _, _, _, _, rfl⟩ := h
  rfl

theorem lose_stk (slots : List Nat) (s : State) : (lose slots s).stk = s.stk := by
  obtain ⟨_, h, -⟩ := suspendPlans_adds 4 slots s
  rw [lose, h]

theorem failAttempt_stk (s : State) : (failAttempt s).stk = s.stk := by
  obtain ⟨_, _, _, h, -⟩ := failAttempt_leaves s
  rw [h]
  rfl

theorem lostInTick_stk (slots : List Nat) (s : State) : (lostInTick slots s).stk = s.stk := by
  unfold lostInTick
  dsimp only
  split
  case isTrue => exact (failAttempt_stk _).trans (lose_stk slots s)
  case isFalse => exact lose_stk slots s

theorem hearthRestart_stk (s : State) : (hearthRestart s).stk = s.stk := by
  obtain ⟨_, _, hd⟩ := hearthRestart_delivers s
  obtain ⟨_, _, _, _, _, _, hr⟩ := hearthReset_frame s
  rw [hd.stk, hr]

theorem loseStore_stk (s : State) : (loseStore s).stk = s.stk := by
  unfold loseStore
  split
  case isTrue => exact hearthRestart_stk s
  case isFalse => rfl

/-- A stack that is isolated already stays as it is, and so does all else. -/
theorem isolate_of_isolated (trigger : Nat) (h : (s.stackAt n).isolated = some k) : isolate n trigger s = s :=
  if_pos (by rw [h]; rfl)

/-- A stack that was not isolated takes the trigger; what the isolation does besides leaves the stacks. -/
theorem stackAt_isolate (trigger : Nat) (h : (s.stackAt n).isolated = none) :
    (isolate n trigger s).stackAt n = { s.stackAt n with isolated := some trigger, refreshOk := true } := by
  have hfree : ¬(s.stackAt n).isolated.isSome = true := by rw [h]; exact nofun
  have hstk : (isolate n trigger s).stk
      = (s.setStack n { s.stackAt n with isolated := some trigger, refreshOk := true }).stk :=
    (congrArg State.stk (if_neg hfree)).trans ((loseStore_stk _).trans (lostInTick_stk ..))
  exact (congrArg (Tab.getD · n Stack.init) hstk).trans (s.stackAt_setStack n _)

end

/-! ## SUPPORT: the units of a stack that hears no frame of the I/O die (R269) -/

/-- Once every core of a stack that runs has been stopped, each core of it is idle or stopped. -/
theorem run_of_mem_stopped {n : Nat} {l : Tab CoreCtx} {e : Nat × CoreCtx}
    (he : e ∈ l.map fun e => (e.1, if e.1 / 256 = n ∧ e.2.run ≠ .idle then { e.2 with run := .stopped 0 } else e.2)) (hn : e.1 / 256 = n) :
    e.2.run = .idle ∨ e.2.run = .stopped 0 := by
  obtain ⟨e, -, rfl⟩ := List.mem_map.1 he
  by_cases hr : e.2.run = .idle
  · exact .inl ((congrArg CoreCtx.run (if_neg fun h => h.2 hr)).trans hr)
  · exact .inr (congrArg CoreCtx.run (if_pos ⟨hn, hr⟩))

/-! ## SUPPORT: lanes and lasers (R266, R268) -/

section

variable {l : LaneId} {replays : Nat} {failing : Bool} {s : State}

/-- A failing lane of a stack's link whose stack is up is spared or marked bad. -/
theorem execLaneMarginSample_link (hv : validLane l = true) (hf : failing = true ∨ 16 < replays) (hl : l.link < 3)
    (hu : s.stackUp l.stack = true) : execLaneMarginSample l replays failing s = .next (failLane l s) :=
  (unit_of hv).trans ((if_pos hf).trans ((if_neg (Nat.not_le.2 hl)).trans (when_of hu)))

/-- A failing lane of a TLink port is spared or marked bad, whichever stacks are up. -/
theorem execLaneMarginSample_port (hv : validLane l = true) (hf : failing = true ∨ 16 < replays) (hl : 3 ≤ l.link) :
    execLaneMarginSample l replays failing s = .next (failPortLane l s) :=
  (unit_of hv).trans ((if_pos hf).trans (if_pos hl))

/-- With neither laser die working every stack that is up goes dark, and the device drains, once. -/
theorem execLaserLoss_last (hp : s.pins.laserSpareOk = false) (hd : s.drain.getLsbD 6 = false) (hw : ∀ p ∈ s.drainPend, p.1 ≠ 6) :
    execLaserLoss s = .next (raiseDrain 6 s.pins.laserActive
      (((List.range 20).filter fun n => s.stackUp n).foldl (fun t n => darken n t) s)) := by
  have hnone : ¬s.drainPend.any (fun p => p.1 == 6) = true := fun h =>
    have ⟨p, hmem, hbit⟩ := List.any_eq_true.1 h
    hw p hmem (beq_iff_eq.1 hbit)
  exact (if_neg (ne_true_of_eq_false hp)).trans (if_neg (not_or.2 ⟨ne_true_of_eq_false hd, hnone⟩))

end

end Sys2Proof.Machine

namespace Sys2Proof.Claims

open Sys2Proof Sys2Proof.Machine

/-! ## SUPPORT: frames that arrive (R257, R258) -/

section

variable {f : NetFrame} {bad : Nat} {s : State}

/-- A frame without a CRC mismatch that is next of its engine pair has its kind's effect on the state without it. -/
theorem arriveFrame_of_frameIn {kind : BitVec 4} (k : State → State) (ha : frameIn kind f s = true) :
    arriveFrame kind f 0 s k = .next (k { s with frames := s.frames.erase f }) := by
  simp only [frameIn, Bool.and_eq_true, decide_eq_true_eq] at ha
  obtain ⟨⟨⟨⟨hs, hd⟩, he⟩, hf⟩, hr⟩ := ha
  have hends : (validStack f.src && validStack f.dst) = true := by rw [hs, hd]; rfl
  have hnext : (decide (f.kind = kind) && s.frameFirst f) = true := by rw [decide_eq_true he, hf]; rfl
  unfold arriveFrame
  rw [unit_of hends, if_pos hnext]
  dsimp only
  rw [if_pos rfl, if_pos hr]

/-- A command that is the arrival of such a frame answers what its kind's effect gives. -/
theorem exec_of_frameIn {i : Instr} {kind : BitVec 4} {k : State → State} {t : State} (he : exec i s = arriveFrame kind f 0 s k)
    (ha : frameIn kind f s = true) (ht : k { s with frames := s.frames.erase f } = t) : exec i s = .next t :=
  (he.trans (arriveFrame_of_frameIn k ha)).trans (congrArg _ ht)

/-- FRAME_DESCRIPTOR is dispatched to its meaning. -/
theorem exec_frameDescriptor (f : NetFrame) (bad : Nat) (s : State) : exec (.frameDescriptor f bad) s = execFrameDescriptor f bad s := rfl

/-- FRAME_COMPLETE is dispatched to its meaning. -/
theorem exec_frameComplete (f : NetFrame) (bad : Nat) (s : State) : exec (.frameComplete f bad) s = execFrameComplete f bad s := rfl

/-- FRAME_CREDIT is dispatched to its meaning. -/
theorem exec_frameCredit (f : NetFrame) (bad : Nat) (s : State) : exec (.frameCredit f bad) s = execFrameCredit f bad s := rfl

/-- FRAME_REPLAY_REQ is dispatched to its meaning. -/
theorem exec_frameReplayReq (f : NetFrame) (bad : Nat) (s : State) : exec (.frameReplayReq f bad) s = execFrameReplayReq f bad s := rfl

/-- An IDLE frame without a CRC mismatch changes nothing. -/
theorem execFrameIdle_of_no_mismatch (hv : validStack f.src = true) : execFrameIdle f 0 s = .next s :=
  (unit_of hv).trans (if_neg fun h => Nat.lt_irrefl 0 h.2)

/-- An IDLE frame with a CRC mismatch: the first is counted, the second is also a fault in the tick at the I/O die's end. -/
theorem execFrameIdle_mismatch (hv : validStack f.src = true) (hk : f.kind = 5) (hb : 0 < bad) :
    execFrameIdle f bad s = .next (if bad = 1 then devInc (.frameReplay f.src) 1 s
      else reportFault ⟨f.src, 0x07, .ioDie, 0, 6⟩ (devInc (.frameFail f.src) 1 (devInc (.frameReplay f.src) 1 s))) :=
  (unit_of hv).trans (if_pos ⟨hk, hb⟩)

end

/-! ## The obligations of chapter 10 -/

/-- Settles O27: each kind's arrival under its hypotheses, on the state without the frame. -/
theorem frameArrivals : Obligations.FrameArrivals := by
  unfold Obligations.FrameArrivals
  refine ⟨fun f s ha hr hk => exec_of_frameIn (exec_frameDescriptor f 0 s) ha ?readRequest,
    fun f s ha hr hk => exec_of_frameIn (exec_frameDescriptor f 0 s) ha ?begins,
    fun f s ha hr => exec_of_frameIn (exec_frameDescriptor f 0 s) ha ?refused,
    fun f s ha hr => exec_of_frameIn (exec_frameData f 0 s) ha ?data,
    fun f s ha => exec_of_frameIn (exec_frameComplete f 0 s) ha ?completes,
    fun f s ha => exec_of_frameIn (exec_frameCredit f 0 s) ha ?credited,
    fun f s ha => exec_of_frameIn (exec_frameReplayReq f 0 s) ha ?resent,
    fun f s bad hv hk => ⟨?idle, ?first, ?second⟩⟩
  case readRequest => exact (if_neg (ne_true_of_eq_false hr)).trans (if_pos hk)
  case begins => exact (if_neg (ne_true_of_eq_false hr)).trans (if_neg hk)
  case refused => exact if_pos hr
  case data => exact if_neg (ne_true_of_eq_false hr)
  case completes | credited | resent => rfl
  case idle =>
    rintro rfl
    exact execFrameIdle_of_no_mismatch hv
  case first =>
    rintro rfl
    exact execFrameIdle_mismatch hv hk Nat.zero_lt_one
  case second =>
    intro hb
    exact (execFrameIdle_mismatch hv hk (by omega)).trans (congrArg _ (if_neg (by omega)))

/-- Settles O36: each event acts, for the state it is stated of, by the branch its conditions choose. -/
theorem stackAndLaneEvents : Obligations.StackAndLaneEvents := by
  unfold Obligations.StackAndLaneEvents
  refine ⟨⟨fun n s hv hu hr => (unit_of hv).trans (when_of ?clocked),
      fun n s hv hu => ⟨_, (unit_of hv).trans (when_of hu), congrArg Stack.deaf (s.stackAt_setStack n _), rfl, rfl,
        fun _ => run_of_mem_stopped⟩,
      fun n s hv hu => (unit_of hv).trans (when_of hu),
      fun n r s hv hr hu => (unit_of hv).trans (when_of ?released),
      fun n r s hv hr hu => (unit_of hv).trans (when_of ?regained),
      fun l replays failing s hv hf hl hu => execLaneMarginSample_link hv hf hl hu,
      fun l replays failing s hv hf hl => execLaneMarginSample_port hv hf hl,
      fun l s hv hl hm => (unit_of hv).trans ((if_pos hl).trans (when_of hm)),
      fun l s hv hl hm => (unit_of hv).trans ((if_neg (Nat.not_le.2 hl)).trans (when_of hm)),
      fun s hp hd hw => execLaserLoss_last hp hd hw,
      fun s hp => ⟨_, if_pos hp, rfl, rfl, rfl, rfl⟩⟩,
    fun n trigger s => ⟨fun h => congrArg Stack.isolated (stackAt_isolate trigger h), fun k h => ?kept⟩⟩
  case clocked => rw [hu, hr]; rfl
  case released => rw [hr, hu]; rfl
  case regained => rw [hr, hu]; rfl
  case kept => rw [isolate_of_isolated trigger h, h]

end Sys2Proof.Claims
end

section
/-! ## SUPPORT: what no operation of the machine takes back (chapter 15 of the spec)

Few operations write the fuses or MRAM, and none writes the queue. So the facts come in two layers, as those of memory and the clock do.
`Stays` says of an operation that it leaves all three as they are: one lemma per operation, in the order of the model's files, each a
rewrite rule for `simp`. `Floor` says of the few that write MRAM or the fuses that what only goes one way does not go back. -/

namespace Sys2Proof.Machine

open Sys2Proof

/-! ### The two relations -/

/-- The queue, the fuses and MRAM are as they were. -/
@[reducible, simp] def Stays (s t : State) : Prop := t.pending = s.pending ∧ t.fuses = s.fuses ∧ t.mram = s.mram

/-- The queue, the serial number and the firmware digest are as they were, and nothing that only goes one way has gone back. -/
def Floor (s t : State) : Prop :=
  t.pending = s.pending ∧ t.fuses.serial = s.fuses.serial ∧ t.fuses.fwDigest = s.fuses.fwDigest
    ∧ (s.fuses.erased = true → t.fuses.erased = true) ∧ s.mram.svnFloor ≤ t.mram.svnFloor ∧ s.mram.bootCount ≤ t.mram.bootCount
    ∧ s.mram.sealNumber ≤ t.mram.sealNumber ∧ (s.mram.identity.isSome = true → t.mram.identity.isSome = true)

theorem Stays.refl (s : State) : Stays s s := ⟨rfl, rfl, rfl⟩

theorem Stays.trans {s t u : State} (h : Stays s t) (k : Stays t u) : Stays s u := by
  obtain ⟨hp, hf, hm⟩ := h
  obtain ⟨kp, kf, km⟩ := k
  exact ⟨kp.trans hp, kf.trans hf, km.trans hm⟩

theorem Floor.refl (s : State) : Floor s s := ⟨rfl, rfl, rfl, id, le_rfl, le_rfl, le_rfl, id⟩

theorem Floor.trans {s t u : State} (h : Floor s t) (k : Floor t u) : Floor s u := by
  obtain ⟨hp, hs, hd, he, hv, hb, hn, hi⟩ := h
  obtain ⟨kp, ks, kd, ke, kv, kb, kn, ki⟩ := k
  exact ⟨kp.trans hp, ks.trans hs, kd.trans hd, ke ∘ he, hv.trans kv, hb.trans kb, hn.trans kn, ki ∘ hi⟩

theorem Stays.floor {s t : State} (h : Stays s t) : Floor s t := by
  obtain ⟨hp, hf, hm⟩ := h
  simp [Floor, hp, hf, hm]

theorem stays_ite {p : Prop} [Decidable p] {s t u : State} (h : Stays s t) (k : Stays s u) : Stays s (if p then t else u) := by
  split
  · exact h
  · exact k

theorem floor_ite {p : Prop} [Decidable p] {s t u : State} (h : Floor s t) (k : Floor s u) : Floor s (if p then t else u) := by
  split
  · exact h
  · exact k

/-- A fold leaves the queue, the fuses and MRAM where each of its steps does, whatever its accumulator holds beside the state. -/
theorem stays_foldlBy {σ α : Type} (g : σ → State) {f : σ → α → σ} (h : ∀ a x, Stays (g a) (g (f a x))) (a : σ) (l : List α) :
    Stays (g a) (g (l.foldl f a)) := by
  induction l generalizing a with
  | nil => exact .refl _
  | cons x l ih => exact (h a x).trans (ih _)

@[simp] theorem stays_foldl {α : Type} {f : State → α → State} (h : ∀ t x, Stays t (f t x)) (s : State) (l : List α) :
    Stays s (l.foldl f s) := stays_foldlBy id h s l

@[simp] theorem stays_foldl_fst {α β : Type} {f : State × β → α → State × β} (h : ∀ a x, Stays a.1 (f a x).1) (a : State × β)
    (l : List α) : Stays a.1 (l.foldl f a).1 := stays_foldlBy Prod.fst h a l

theorem floor_foldlBy {σ α : Type} (g : σ → State) {f : σ → α → σ} (h : ∀ a x, Floor (g a) (g (f a x))) (a : σ) (l : List α) :
    Floor (g a) (g (l.foldl f a)) := by
  induction l generalizing a with
  | nil => exact .refl _
  | cons x l ih => exact (h a x).trans (ih _)

theorem floor_foldl {α : Type} {f : State → α → State} (h : ∀ t x, Floor t (f t x)) (s : State) (l : List α) :
    Floor s (l.foldl f s) := floor_foldlBy id h s l

section ite

variable (p : Prop) [Decidable p]

@[simp] theorem State.pending_ite (s t : State) : (if p then s else t).pending = if p then s.pending else t.pending := apply_ite ..

@[simp] theorem State.fuses_ite (s t : State) : (if p then s else t).fuses = if p then s.fuses else t.fuses := apply_ite ..

@[simp] theorem State.mram_ite (s t : State) : (if p then s else t).mram = if p then s.mram else t.mram := apply_ite ..

@[simp] theorem Mram.svnFloor_ite (m n : Mram) : (if p then m else n).svnFloor = if p then m.svnFloor else n.svnFloor := apply_ite ..

@[simp] theorem Mram.bootCount_ite (m n : Mram) : (if p then m else n).bootCount = if p then m.bootCount else n.bootCount := apply_ite ..

@[simp] theorem Mram.sealNumber_ite (m n : Mram) : (if p then m else n).sealNumber = if p then m.sealNumber else n.sealNumber := apply_ite ..

@[simp] theorem Mram.identity_ite (m n : Mram) : (if p then m else n).identity = if p then m.identity else n.identity := apply_ite ..

end ite

/-! ### Operations that leave the queue, the fuses and MRAM, and among them those that write MRAM -/

/-! #### Counters, events and marks -/

@[simp] theorem stays_inc (c : Ctr) (n : Nat) (s : State) : Stays s (inc c n s) := by simp [inc]

@[simp] theorem stays_devInc (c : Ctr) (n : Nat) (s : State) : Stays s (devInc c n s) := by simp [devInc]

@[simp] theorem stays_countFor (tick : Bool) (c : Ctr) (n : Nat) (s : State) : Stays s (countFor tick c n s) := by simp [countFor]

@[simp] theorem stays_draw (s : State) : Stays s (draw s).2 := .refl s

@[simp] theorem stays_setStack (s : State) (n : Nat) (v : Stack) : Stays s (s.setStack n v) := by simp [State.setStack]

@[simp] theorem stays_setCore (s : State) (c : Lcid) (k : CoreCtx) : Stays s (s.setCore c k) := by simp [State.setCore]

@[simp] theorem stays_setPlan (s : State) (slot : Nat) (p : Plan) : Stays s (s.setPlan slot p) := by simp [State.setPlan]

@[simp] theorem stays_setWord (s : State) (w : Nat) (x : WordSt) : Stays s (s.setWord w x) := by simp [State.setWord]

@[simp] theorem stays_setLine (s : State) (w : Nat) (x : WordSt) : Stays s (s.setLine w x) := by simp [State.setLine]

@[simp] theorem stays_logFault (r : FaultRec) (s : State) : Stays s (logFault r s) := by simp [logFault]

@[simp] theorem stays_raiseDrain (bit structureNo : Nat) (s : State) : Stays s (raiseDrain bit structureNo s) := by simp [raiseDrain]

@[simp] theorem stays_raiseBootDrain (bit structureNo : Nat) (s : State) : Stays s (raiseBootDrain bit structureNo s) := by
  simp [raiseBootDrain]

@[simp] theorem stays_suspendPlan (slot cause : Nat) (s : State) : Stays s (suspendPlan slot cause s) := by simp [suspendPlan]

@[simp] theorem stays_leaveOut (slot : Nat) (s : State) : Stays s (leaveOut slot s) := by simp [leaveOut]

@[simp] theorem stays_stopUnits (s : State) : Stays s (stopUnits s) := by simp [stopUnits]

@[simp] theorem stays_flushStack (n : Nat) (s : State) : Stays s (flushStack n s) := by simp [flushStack]

@[simp] theorem stays_flushAll (s : State) : Stays s (flushAll s) := by simp [flushAll]

@[simp] theorem stays_discard (s : State) : Stays s (discard s) := by simp [discard]

@[simp] theorem stays_failAttempt (s : State) : Stays s (failAttempt s) := by simp [failAttempt]

/-! #### Events and counters at a commit -/

@[simp] theorem stays_sendVector (fn vec : Nat) (s : State) : Stays s (sendVector fn vec s) := by simp [sendVector]

@[simp] theorem stays_toRing (r : EventRec) (n : Nat) (s : State) : Stays s (toRing r n s) := by simp [toRing]

@[simp] theorem stays_writeRecord (r : EventRec) (s : State) : Stays s (writeRecord r s).1 := by simp [writeRecord]

@[simp] theorem stays_ringVectors (l : List Nat) (s : State) : Stays s (ringVectors l s) := by simp [ringVectors]

@[simp] theorem stays_postAll (l : List PEvent) (tick : Nat) (s : State) : Stays s (postAll l tick s) := by
  unfold postAll
  refine stays_ite (Stays.trans ?_ (stays_ringVectors ..)) (by simp)
  exact stays_foldl_fst (fun a p => by simp) (s, []) l

@[simp] theorem stays_postNow (p : PEvent) (s : State) : Stays s (postNow p s) :=
  (stays_writeRecord _ s).trans (stays_ringVectors ..)

@[simp] theorem stays_releaseHeld (s : State) : Stays s (releaseHeld s) := by
  unfold releaseHeld
  refine Stays.trans ?_ (stays_ringVectors ..)
  exact stays_foldl_fst (fun a e => by simp) ({ s with heldEvents := [] }, []) _

@[simp] theorem stays_setCtr (c : Ctr) (v : CtrVal) (s : State) : Stays s (setCtr c v s) := by simp [setCtr]

@[simp] theorem stays_addCtr (e : Ctr × Nat) (s : State) : Stays s (addCtr e s) := by simp [addCtr]

@[simp] theorem stays_addPerf (e : Perf × Nat) (s : State) : Stays s (addPerf e s) := by simp [addPerf]

@[simp] theorem stays_commitCounters (s : State) : Stays s (commitCounters s) := by simp [commitCounters]

/-! #### Faults in the tick -/

@[simp] theorem stays_lose (slots : List Nat) (s : State) : Stays s (lose slots s) := by simp [lose]

@[simp] theorem stays_lostInTick (slots : List Nat) (s : State) : Stays s (lostInTick slots s) := by simp [lostInTick]

@[simp] theorem stays_hearthReset (s : State) : Stays s (hearthReset s) := by
  unfold hearthReset
  dsimp only [draw]
  split <;> simp

@[simp] theorem stays_freeMailbox (mb : Nat) (s : State) : Stays s (freeMailbox mb s) := by simp [freeMailbox]

@[simp] theorem stays_hearthRestart (s : State) : Stays s (hearthRestart s) := by
  unfold hearthRestart
  split <;> simp

@[simp] theorem stays_loseStore (s : State) : Stays s (loseStore s) := by simp [loseStore]

@[simp] theorem stays_isolate (n trigger : Nat) (s : State) : Stays s (isolate n trigger s) := by simp [isolate]

@[simp] theorem stays_countCheck (f : FaultSite) (s : State) : Stays s (countCheck f s) := by simp [countCheck]

@[simp] theorem stays_failCore (f : FaultSite) (s : State) : Stays s (failCore f s) := by
  unfold failCore
  dsimp only
  repeat' split
  all_goals simp

@[simp] theorem stays_failSlice (n : Nat) (s : State) : Stays s (failSlice n s) := by simp [failSlice]

@[simp] theorem stays_actLasting (f : FaultSite) (s : State) : Stays s (actLasting f s) := by
  unfold actLasting
  cases f.unit <;> simp

@[simp] theorem stays_failOnce (attempt : Nat) (s : State) : Stays s (failOnce attempt s) := by simp [failOnce]

@[simp] theorem stays_lastingFault (f : FaultSite) (s : State) : Stays s (lastingFault f s) := by simp [lastingFault]

@[simp] theorem stays_transientFault (f : FaultSite) (s : State) : Stays s (transientFault f s) := by simp [transientFault]

@[simp] theorem stays_noteCorrection (f : FaultSite) (s : State) : Stays s (noteCorrection f s) := by simp [noteCorrection]

@[simp] theorem stays_refetchLine (f : FaultSite) (s : State) : Stays s (refetchLine f s) := by
  unfold refetchLine
  split <;> simp

@[simp] theorem stays_noteReport (f : FaultSite) (s : State) : Stays s (noteReport f s) := by simp [noteReport]

@[simp] theorem stays_reportFault (f : FaultSite) (s : State) : Stays s (reportFault f s) := by simp [reportFault]

@[simp] theorem stays_dropPlan (c : Lcid) (slot cause pc : Nat) (s : State) : Stays s (dropPlan c slot cause pc s) := by simp [dropPlan]

@[simp] theorem stays_progFault (c : Lcid) (cause pc slot : Nat) (s : State) : Stays s (progFault c cause pc slot s) := by
  unfold progFault
  repeat' split
  all_goals simp

/-! #### The end of an instruction -/

@[simp] theorem stays_coreFault (c : Lcid) (cause : Nat) (s : State) : Stays s (coreFault c cause s) := by simp [coreFault]

@[simp] theorem stays_endInstr (c : Lcid) (k : CoreCtx) (s : State) : Stays s (endInstr c k s) := by
  unfold endInstr
  split <;> simp

/-! #### The mesh and the die edges -/

@[simp] theorem stays_fly (l : List NetFlit) (s : State) : Stays s (fly l s) := by simp [fly]

@[simp] theorem stays_inject (c : Lcid) (l : List NetFlit) (s : State) : Stays s (inject c l s) := by simp [inject]

@[simp] theorem stays_sliceTokens (c : Lcid) (n : Nat) (s : State) : Stays s (sliceTokens c n s).1 := by simp [sliceTokens]

@[simp] theorem stays_streamToken (c : Lcid) (s : State) : Stays s (streamToken c s).1 := by simp [streamToken]

@[simp] theorem stays_sendStream (c : Lcid) (counted : Bool) (l : List NetFlit) (s : State) : Stays s (sendStream c counted l s).1 := by
  induction l generalizing s with
  | nil => exact .refl s
  | cons f l ih =>
    unfold sendStream
    dsimp only
    split
    · refine Stays.trans ?_ (ih _)
      split <;> simp
    · simp

@[simp] theorem stays_resetFseqs (n : Nat) (s : State) : Stays s (resetFseqs n s) := by simp [resetFseqs]

@[simp] theorem stays_sendFrame (src : Nat) (w : Way) (kind : BitVec 4) (len : Nat) (f : NetFlit) (s : State) :
    Stays s (sendFrame src w kind len f s) := by
  simp [sendFrame]

@[simp] theorem stays_answerFrame (f : NetFrame) (kind : BitVec 4) (g : NetFlit) (s : State) : Stays s (answerFrame f kind g s) := by
  simp [answerFrame]

@[simp] theorem stays_modXfer (c : Lcid) (id : Nat) (g : SliceXfer → SliceXfer) (s : State) : Stays s (modXfer c id g s) := by
  simp [modXfer]

@[simp] theorem stays_modNet (c : Lcid) (id : Nat) (g : NetXfer → NetXfer) (s : State) : Stays s (modNet c id g s) := by simp [modNet]

@[simp] theorem stays_leaveDie (f : NetFlit) (w : Way) (s : State) : Stays s (leaveDie f w s) := by simp [leaveDie]

@[simp] theorem stays_issuePieces (c : Lcid) (x : SliceXfer) (l : List (Nat × Nat)) (s : State) : Stays s (issuePieces c x l s).1 := by
  induction l generalizing s with
  | nil => exact .refl s
  | cons p l ih =>
    unfold issuePieces
    dsimp only
    split
    · refine Stays.trans ?_ (ih _)
      split <;> simp
    · simp

@[simp] theorem stays_payPieces (c : Lcid) (l : List Nat) (p : Nat) (s : State) : Stays s (payPieces c l p s).2 := by
  induction l generalizing p s with
  | nil => exact .refl s
  | cons n l ih =>
    unfold payPieces
    dsimp only
    split
    · exact Stays.trans (by simp) (ih ..)
    · simp

@[simp] theorem stays_resumeSlice (c : Lcid) (s : State) : Stays s (resumeSlice c s) :=
  stays_foldl (fun t x => (stays_issuePieces c x x.todo t).trans (stays_modXfer ..)) _ _

@[simp] theorem stays_resumeStream (c : Lcid) (s : State) : Stays s (resumeStream c s) := by
  unfold resumeStream
  exact stays_foldl (fun t x => Stays.trans (stays_sendStream ..) (stays_modNet ..)) _ _

@[simp] theorem stays_sendCtl (f : NetFlit) (s : State) : Stays s (sendCtl f s) := by simp [sendCtl]

@[simp] theorem stays_absorb (f : NetFlit) (s : State) : Stays s (absorb f s) := by simp [absorb]

@[simp] theorem stays_tookFlit (f : NetFlit) (s : State) : Stays s (tookFlit f s) := by
  unfold tookFlit
  dsimp only
  repeat' split
  all_goals simp

@[simp] theorem stays_reportDone (f : NetFlit) (s : State) : Stays s (reportDone f s) := by
  unfold reportDone
  dsimp only
  repeat' split
  all_goals simp

@[simp] theorem stays_leaveDest (c : Lcid) (id d : Nat) (st : Status) (s : State) : Stays s (leaveDest c id d st s) := by simp [leaveDest]

@[simp] theorem stays_sendOne (c : Lcid) (id : Nat) (f : NetFlit) (s : State) : Stays s (sendOne c id f s) := by
  unfold sendOne
  refine stays_ite (stays_inject ..) (Stays.trans ?_ (stays_modNet ..))
  generalize (match s.netOf c id with | some x => x.unsent | none => []).isEmpty = w
  cases w
  · exact .refl s
  · exact stays_sendStream ..

@[simp] theorem stays_refused (f : NetFlit) (s : State) : Stays s (refused f s) := by
  unfold refused
  dsimp only
  repeat' split
  all_goals simp

@[simp] theorem stays_landIn (c : Lcid) (f : NetFlit) (place : CoreCtx → WinState → List (Nat × Byte × Bool)) (s : State) :
    Stays s (landIn c f place s) := by
  unfold landIn
  dsimp only
  split <;> simp

/-! #### The floor-plan record -/

@[simp] theorem stays_publishFloor (tick : Nat) (s : State) : Stays s (publishFloor tick s) := by simp [publishFloor]

/-! #### The capability list -/

@[simp] theorem stays_capStart (s : State) : Stays s (capStart s) := by simp [capStart]

@[simp] theorem stays_capCommit (s : State) : Stays s (capCommit s) := by simp [capCommit]

/-! #### Reads of device memory -/

@[simp] theorem stays_noteCorrected (tick : Bool) (site loc : Nat) (s : State) : Stays s (noteCorrected tick site loc s) := by
  simp [noteCorrected]

@[simp] theorem stays_noteUncorrectable (tick : Bool) (site loc : Nat) (s : State) : Stays s (noteUncorrectable tick site loc s) := by
  simp [noteUncorrectable]

@[simp] theorem stays_noteLine (tick : Bool) (site loc : Nat) (s : State) : Stays s (noteLine tick site loc s) := by
  unfold noteLine
  exact stays_foldl (fun t i => by split <;> simp) _ _

/-! #### Slice transfers -/

theorem stays_stageLine {s t : State} {w : Staged} (h : stageLine s w = some t) : Stays s t := by
  unfold stageLine at h
  dsimp only at h
  split at h
  · cases h
    simp
  · cases h

theorem stays_stageStore {c : Lcid} {x : SliceXfer} {l : List Nat} {s t : State} (h : stageStore c x l s = some t) : Stays s t := by
  induction l generalizing s with
  | nil =>
    cases h
    exact .refl t
  | cons i l ih =>
    unfold stageStore at h
    dsimp only at h
    split at h
    · exact ih h
    · obtain ⟨u, hu, h⟩ := Option.bind_eq_some_iff.1 h
      exact (stays_stageLine hu).trans (ih h)

@[simp] theorem stays_noteLoad (c : Lcid) (a n : Nat) (s : State) : Stays s (noteLoad c a n s) :=
  stays_foldl (fun t _ => stays_ite (.refl t) (stays_noteLine ..)) { s with fresh := s.fresh + 1 } _

@[simp] theorem stays_finishXfer (c : Lcid) (x : SliceXfer) (s : State) : Stays s (finishXfer c x s) := by
  unfold finishXfer
  dsimp only
  split
  case h_5 =>
    split
    · rename_i t h
      exact Stays.trans (by simp) (stays_stageStore h)
    · simp
  all_goals simp

/-! #### Expert routing -/

@[simp] theorem stays_countRoute (slot n by_ : Nat) (s : State) : Stays s (countRoute slot n by_ s) := by simp [countRoute]

/-! #### Page tables -/

@[simp] theorem stays_setTable (s : State) (stack i : Nat) (t : Tab Nat) : Stays s (s.setTable stack i t) := by simp [State.setTable]

@[simp] theorem stays_setSeq (s : State) (slot : Nat) (r : SeqRec) : Stays s (s.setSeq slot r) := by simp [State.setSeq]

@[simp] theorem stays_modGroup (slot g : Nat) (f : Group → Group) (s : State) : Stays s (modGroup slot g f s) := by
  unfold modGroup
  split <;> simp

theorem stays_copyLeaf {work : Bool} {slot gi n : Nat} {s t : State} (h : copyLeaf work slot gi n s = some t) : Stays s t := by
  rw [copyLeaf_some h]
  exact .refl s

@[simp] theorem stays_openShadow (h : Shadow) (s : State) : Stays s (openShadow h s) := by
  unfold openShadow
  split <;> simp

@[simp] theorem stays_openShadows (s : State) : Stays s (openShadows s) := by simp [openShadows]

theorem stays_editLeaf_fresh {slot gi n : Nat} {s t : State} (h : editLeaf.fresh slot gi n s = some t) : Stays s t := by
  obtain ⟨u, hu, rfl⟩ := Option.map_eq_some_iff.1 h
  refine (stays_copyLeaf hu).trans ?_
  split <;> simp

theorem stays_editLeaf {slot gi n : Nat} {s t : State} (h : editLeaf slot gi n s = some t) : Stays s t := by
  unfold editLeaf at h
  split at h
  · split at h
    · cases h
      exact .refl s
    · exact stays_editLeaf_fresh h
  · exact stays_editLeaf_fresh h

@[simp] theorem stays_putEntry (slot gi page w : Nat) (s : State) : Stays s (putEntry slot gi page w s) := by
  unfold putEntry
  split
  · exact .refl s
  · rename_i t h
    refine (stays_editLeaf h).trans ?_
    split
    · exact .refl t
    · split <;> simp

@[simp] theorem stays_closeShadow (h : Shadow) (s : State) : Stays s (closeShadow h s) := by
  unfold closeShadow
  split <;> simp

@[simp] theorem stays_closeShadows (s : State) : Stays s (closeShadows s) := by simp [closeShadows]

/-! #### Scoring -/

@[simp] theorem stays_incN (x : Ctr) (n : Nat) (s : State) : Stays s (incN x n s) := by simp [incN]

@[simp] theorem stays_noteTables (g : Group) (pages : List Nat) (s : State) : Stays s (noteTables g pages s) :=
  stays_foldl (fun _ _ => stays_noteLine ..) _ _

/-! #### Crumb units -/

@[simp] theorem stays_putVec (slice : Nat) (banks : List Nat) (at_ : Nat) (l : List (Byte × Bool)) (s : State) :
    Stays s (putVec slice banks at_ l s) := by
  simp [putVec]

@[simp] theorem stays_modJob (c : Lcid) (j : CrumbJob) (g : CrumbJob → CrumbJob) (s : State) : Stays s (modJob c j g s) := by simp [modJob]

@[simp] theorem stays_breakProgram (c : Lcid) (u : UnitId) (j : CrumbJob) (s : State) : Stays s (breakProgram c u j s) := by
  simp [breakProgram]

@[simp] theorem stays_loseReturns (c : Lcid) (u : UnitId) (j : CrumbJob) (s : State) : Stays s (loseReturns c u j s) := by
  simp [loseReturns]

@[simp] theorem stays_noteCrumbWord (slice loc : Nat) (s : State) : Stays s (noteCrumbWord slice loc s) := by
  unfold noteCrumbWord
  refine Stays.trans (stays_foldl (fun t x => ?_) s [loc, loc + 8]) (stays_ite (stays_inc ..) (stays_ite (stays_inc ..) (.refl _)))
  split <;> simp

/-! #### Flits and frames -/

@[simp] theorem stays_sendFold (c : Lcid) (g : GroupEnt) (l : List NetFlit) (s : State) : Stays s (sendFold c g l s).1 := by
  induction l generalizing s with
  | nil => exact .refl s
  | cons f l ih =>
    unfold sendFold
    split
    · exact Stays.trans (by simp) (ih _)
    · exact .refl s

@[simp] theorem stays_tryUnit (slot stack l j n : Nat) (g : GroupEnt) (s : State) : Stays s (tryUnit slot stack l j n g s) := by
  simp [tryUnit]

@[simp] theorem stays_tryNode (slot stack l j : Nat) (g : GroupEnt) (s : State) : Stays s (tryNode slot stack l j g s) := by simp [tryNode]

@[simp] theorem stays_foldArrives (f : NetFlit) (s : State) : Stays s (foldArrives f s) := by
  unfold foldArrives
  dsimp only
  split <;> simp

@[simp] theorem stays_orLeave {k : State → State} (hk : ∀ t, Stays t (k t)) (f : NetFlit) (s : State) : Stays s (orLeave f k s) := by
  unfold orLeave
  split
  · exact stays_ite (stays_leaveDie ..) (hk s)
  · exact hk s

@[simp] theorem stays_deliver {k : Lcid → State → State} (hk : ∀ m t, Stays t (k m t)) (f : NetFlit) (s : State) : Stays s (deliver f k s) := by
  refine stays_orLeave (fun t => stays_ite (stays_absorb ..) ?_) f s
  split
  · exact hk _ t
  · exact .refl t

@[simp] theorem stays_settle (c : Lcid) (id : Nat) (s : State) : Stays s (settle c id s) := by simp [settle]

@[simp] theorem stays_rowLands (m : Lcid) (ret : Bool) (l : List NetFlit) (s : State) : Stays s (rowLands m ret l s) := by simp [rowLands]

@[simp] theorem stays_nackArrives (f : NetFlit) (s : State) : Stays s (nackArrives f s) := by
  unfold nackArrives
  dsimp only
  repeat' split
  all_goals simp

@[simp] theorem stays_abandonWin (m : Lcid) (x : Nat) (s : State) : Stays s (abandonWin m x s) := by
  unfold abandonWin
  dsimp only
  split <;> simp

@[simp] theorem stays_frameRefused (f : NetFrame) (s : State) : Stays s (frameRefused f s) := by
  unfold frameRefused
  dsimp only
  split <;> simp

@[simp] theorem stays_completeNet (c : Lcid) (x : NetXfer) (s : State) : Stays s (completeNet c x s) := by simp [completeNet]

@[simp] theorem stays_notifyLacking (c : Lcid) (n : Nat) (x : NetXfer) (lacking : List Nat) (s : State) :
    Stays s (notifyLacking c n x lacking s) := by
  simp [notifyLacking]

@[simp] theorem stays_winLost (c : Lcid) (w : WinState) (lost : List Nat) (s : State) : Stays s (winLost c w lost s) := by simp [winLost]

/-! #### Charges -/

@[simp] theorem stays_assignSlots (s : State) : Stays s (assignSlots s) := by simp [assignSlots]

/-! #### Heat at a boundary and a commit -/

@[simp] theorem stays_setCap (s : State) : Stays s (setCap s) := by simp [setCap]

@[simp] theorem stays_enterDegraded (s : State) : Stays s (enterDegraded s) := by simp [enterDegraded]

@[simp] theorem stays_stepDegraded (s : State) : Stays s (stepDegraded s) := by simp [stepDegraded]

@[simp] theorem stays_restoreCooling (s : State) : Stays s (restoreCooling s) := by simp [restoreCooling]

@[simp] theorem stays_applyCooling (s : State) : Stays s (applyCooling s) := by simp [applyCooling]

@[simp] theorem stays_raiseBands (s : State) : Stays s (raiseBands s) := by simp [raiseBands]

@[simp] theorem stays_commitHeat (s : State) : Stays s (commitHeat s) := by simp [commitHeat]

@[simp] theorem stays_countThrottle (s : State) : Stays s (countThrottle s) := by simp [countThrottle]

@[simp] theorem stays_fitSensors (s : State) : Stays s (fitSensors s) := by
  unfold fitSensors
  dsimp only [draw]
  split <;> simp

@[simp] theorem stays_trackAll (e : BoundaryEnv) (period : Nat) (s : State) : Stays s (trackAll e period s) := by simp [trackAll]

@[simp] theorem stays_writeTelemetry (e : BoundaryEnv) (budget : Nat → Nat) (s : State) : Stays s (writeTelemetry e budget s) := by
  simp [writeTelemetry]

/-! #### The KV cache at a commit -/

@[simp] theorem stays_setDesc (s : State) (pfn : Nat) (d : Desc) : Stays s (s.setDesc pfn d) := by simp [State.setDesc]

@[simp] theorem stays_addRef (pfn : Nat) (s : State) : Stays s (addRef pfn s) := by simp [addRef]

@[simp] theorem stays_dropRef (pfn : Nat) (s : State) : Stays s (dropRef pfn s) := by simp [dropRef]

@[simp] theorem stays_allocFrame (pfn : Nat) (s : State) : Stays s (allocFrame pfn s) := by
  unfold allocFrame
  dsimp only
  split <;> simp

@[simp] theorem stays_freeOne (pfn : Nat) (s : State) : Stays s (freeOne pfn s) := by
  unfold freeOne
  dsimp only
  split <;> simp

@[simp] theorem stays_freeUnreferenced (s : State) : Stays s (freeUnreferenced s) := stays_foldl (fun _ _ => stays_freeOne ..) _ _

@[simp] theorem stays_setEntry (slot g page : Nat) (e : Option Pte) (s : State) : Stays s (setEntry slot g page e s) := by
  unfold setEntry
  split
  · rename_i x t _ h
    refine (stays_editLeaf h).trans (Stays.trans ?_ (stays_putEntry ..))
    cases e <;> cases s.entry x page <;> simp
  · exact .refl s

@[simp] theorem stays_coverLast (slot : Nat) (s : State) : Stays s (coverLast slot s) := by
  refine stays_foldl (fun t i => ?_) _ _
  dsimp only
  split
  · exact .refl t
  · split
    · exact stays_ite (stays_putEntry ..) (.refl t)
    · exact .refl t

@[simp] theorem stays_releaseFrom (slot g lo : Nat) (s : State) : Stays s (releaseFrom slot g lo s) := by
  unfold releaseFrom
  split <;> simp

@[simp] theorem stays_leaveTables (slot g : Nat) (s : State) : Stays s (leaveTables slot g s) := by
  unfold leaveTables
  split <;> simp

@[simp] theorem stays_bumpGens (slots : List Nat) (s : State) : Stays s (bumpGens slots s) := by
  unfold bumpGens
  exact stays_foldl (fun t i => by split <;> simp) _ _

@[simp] theorem stays_publishPage (p : NewPage) (s : State) : Stays s (publishPage p s) := by
  unfold publishPage
  dsimp only
  repeat' split
  all_goals simp

@[simp] theorem stays_advance (p : Nat × Nat) (s : State) : Stays s (advance p s) := by
  unfold advance
  dsimp only
  split <;> simp

@[simp] theorem stays_commitAppends (s : State) : Stays s (commitAppends s) := by simp [commitAppends]

@[simp] theorem stays_applyFork (src dst len : Nat) (s : State) : Stays s (applyFork src dst len s) := by simp [applyFork]

@[simp] theorem stays_applyTruncate (slot len : Nat) (s : State) : Stays s (applyTruncate slot len s) := by simp [applyTruncate]

@[simp] theorem stays_applyRetire (slot g lo n : Nat) (s : State) : Stays s (applyRetire slot g lo n s) := by simp [applyRetire]

@[simp] theorem stays_applyEdit (c : Change) (s : State) : Stays s (applyEdit c s) := by
  unfold applyEdit
  split <;> simp

@[simp] theorem stays_applyPoolCreate (key : Nat) (p : Pool) (s : State) : Stays s (applyPoolCreate key p s) := by
  unfold applyPoolCreate
  dsimp only
  split <;> simp

@[simp] theorem stays_applyPoolDestroy (key : Nat) (s : State) : Stays s (applyPoolDestroy key s) := by
  unfold applyPoolDestroy
  split <;> simp

@[simp] theorem stays_applyMove (slot : Nat) (g : Option Nat) (m : Move) (s : State) : Stays s (applyMove slot g m s) := by
  unfold applyMove
  split <;> simp

@[simp] theorem stays_applyRestore (slot : Nat) (data : List Byte) (s : State) : Stays s (applyRestore slot data s) := by
  unfold applyRestore
  dsimp only
  generalize hr : List.foldl _ (s, 512) _ = r
  have groups : Stays s r.1 := hr ▸ stays_foldl_fst (fun a i => by split <;> simp) (s, 512) _
  split
  · exact groups.trans (stays_setSeq ..)
  · exact groups

@[simp] theorem stays_publishTables (pre : State) (written : List Nat) (s : State) : Stays s (publishTables pre written s) :=
  (stays_closeShadows s).trans (stays_bumpGens ..)

@[simp] theorem stays_waterMarks (s : State) : Stays s (waterMarks s) := by simp [waterMarks]

/-! #### Admission and suspension -/

@[simp] theorem stays_holdPlan (slot : Nat) (on : Bool) (s : State) : Stays s (holdPlan slot on s) := by simp [holdPlan]

@[simp] theorem stays_applySuspend (p : Nat × Nat) (s : State) : Stays s (applySuspend p s) := by
  unfold applySuspend
  split <;> simp

@[simp] theorem stays_clockChange (stack : Option Nat) (half : Nat) (slow : Bool) (s : State) :
    Stays s (clockChange stack half slow s) := by
  simp [clockChange]

@[simp] theorem stays_shrink (n : Nat) (s : State) : Stays s (shrink n s) := by
  induction n generalizing s with
  | zero => exact .refl s
  | succ n ih =>
    unfold shrink
    split
    · exact .refl s
    · split
      · exact .refl s
      · exact Stays.trans (by simp) (ih _)

@[simp] theorem stays_checkEvidence (s : State) : Stays s (checkEvidence s) := by simp [checkEvidence]

@[simp] theorem stays_backpressure (s : State) : Stays s (backpressure s) := by simp [backpressure]

/-! #### The end of a tick -/

@[simp] theorem stays_completeTick (s : State) : Stays s (completeTick s) := by simp [completeTick]

/-! #### Evidence at a commit -/

@[simp] theorem stays_storeRecords (l : List ARec) (s : State) : Stays s (storeRecords l s) := by simp [storeRecords]

@[simp] theorem stays_addLink (kind tick : Nat) (content ledger : List Byte) (records : Nat) (s : State) :
    Stays s (addLink kind tick content ledger records s) := by
  simp [addLink]

@[simp] theorem stays_bootLink (s : State) : Stays s (bootLink s) := by simp [bootLink]

@[simp] theorem stays_addMarkers (tick : Nat) (s : State) : Stays s (addMarkers tick s) := by simp [addMarkers]

@[simp] theorem stays_beginSeal (s : State) : Stays s (beginSeal s) := by simp [beginSeal]

@[simp] theorem stays_sealCommit (tick : Nat) (s : State) : Stays s (sealCommit tick s) := by simp [sealCommit]

@[simp] theorem stays_endReplay (c : List Byte) (s : State) : Stays s (endReplay c s) := by
  unfold endReplay
  dsimp only
  repeat' split
  all_goals simp

@[simp] theorem stays_commitEvidence (recs : List ARec) (content ledger : List Byte) (s : State) :
    Stays s (commitEvidence recs content ledger s) := by
  simp [commitEvidence]

/-! #### Packets that leave -/

@[simp] theorem stays_sendOn (port kind : Nat) (p : Packet) (s : State) : Stays s (sendOn port kind p s) := by simp [sendOn]

@[simp] theorem stays_resend (n : Nat) (x : RingEntry) (s : State) : Stays s (resend n x s) := by
  unfold resend
  split <;> simp

@[simp] theorem stays_reroute (before : State) (s : State) : Stays s (reroute before s) := by simp [reroute]

@[simp] theorem stays_sendMgmt (s : State) : Stays s (sendMgmt s) := by simp [sendMgmt]

@[simp] theorem stays_markLink (n : Nat) (down : Bool) (s : State) : Stays s (markLink n down s) := by simp [markLink]

@[simp] theorem stays_portDown (n : Nat) (s : State) : Stays s (portDown n s) := by simp [portDown]

/-! #### Changes of committed state -/

@[simp] theorem stays_orphan (n : Nat) (s : State) : Stays s (orphan n s) := by simp [orphan]

@[simp] theorem stays_closeSession (n : Nat) (s : State) : Stays s (closeSession n s) := by simp [closeSession]

@[simp] theorem stays_resetOne (fn : Nat) (s : State) : Stays s (resetOne fn s) := by simp [resetOne]

@[simp] theorem stays_resetFunction (fn : Nat) (s : State) : Stays s (resetFunction fn s) := by simp [resetFunction]

@[simp] theorem stays_adopt (n : Nat) (s : State) : Stays s (adopt n s) := by
  unfold adopt
  split <;> simp

@[simp] theorem stays_commitLevel (s : State) : Stays s (commitLevel s) := by simp [commitLevel]

theorem floor_enterLife (l : Life) {s t : State} (h : Floor s t) : Floor s (enterLife l t) := by
  refine h.trans ?_
  simp [enterLife, Floor]

theorem floor_useIndex (s : State) : Floor s (useIndex s) := by simp [useIndex, Floor]

theorem floor_sign (msg : List Byte) (s : State) : Floor s (sign msg s).2.2 := by
  unfold sign
  split
  · exact floor_useIndex s
  · exact .refl s

theorem floor_lastSign (msg : List Byte) (s : State) : Floor s (lastSign msg s).2.2 := by
  unfold lastSign
  split
  · exact floor_useIndex s
  · exact .refl s

/-- A seal that is signed advances SEAL_NUMBER. -/
theorem floor_sealWith {signer : List Byte → State → List Byte × Bool × State} (h : ∀ msg t, Floor t (signer msg t).2.2) (s : State) :
    Floor s (sealWith signer s) := by
  unfold sealWith
  split
  · exact .refl s
  · rename_i x _
    refine (h x.body s).trans ⟨rfl, rfl, rfl, id, le_rfl, le_rfl, Nat.le_succ _, id⟩

theorem floor_signSeal (s : State) : Floor s (signSeal s) := floor_sealWith floor_sign s

@[simp] theorem stays_emptyReserve (n : Nat) (s : State) : Stays s (emptyReserve n s) := by simp [emptyReserve]

@[simp] theorem stays_applyAdmit (slot : Nat) (s : State) : Stays s (applyAdmit slot s) := by
  unfold applyAdmit
  split <;> simp

@[simp] theorem stays_applyUnload (slot : Nat) (s : State) : Stays s (applyUnload slot s) := by simp [applyUnload]

@[simp] theorem stays_hostTrain (s : State) : Stays s (hostTrain s) := by simp [hostTrain]

@[simp] theorem stays_applyRate (q : Nat) (stream : Bool) (v : Nat) (s : State) : Stays s (applyRate q stream v s) := by simp [applyRate]

@[simp] theorem stays_powerEvent (object : Option Nat) (detail : List Nat) (s : State) : Stays s (powerEvent object detail s) := by
  simp [powerEvent]

@[simp] theorem stays_settleTrim (s : State) : Stays s (settleTrim s) := by
  unfold settleTrim
  dsimp only
  split <;> simp

@[simp] theorem stays_later (c : Change) (s : State) : Stays s (later c s) := by simp [later]

@[simp] theorem stays_applyAck (kind tick : Nat) (s : State) : Stays s (applyAck kind tick s) := by
  unfold applyAck
  split <;> simp

@[simp] theorem stays_applyCapture (slot : Nat) (on : Bool) (s : State) : Stays s (applyCapture slot on s) := by
  unfold applyCapture
  split <;> simp

@[simp] theorem stays_applyDbg (b : List Byte) (s : State) : Stays s (applyDbg b s) := by simp [applyDbg]

@[simp] theorem stays_applyGranule (a : Nat) (s : State) : Stays s (applyGranule a s) := by
  unfold applyGranule
  split
  · exact .refl s
  · split <;> simp

theorem floor_applyProvision (s : State) : Floor s (applyProvision s) := by simp [applyProvision, Floor]

@[simp] theorem stays_applyOpen (slot : Nat) (r : SeqRec) (s : State) : Stays s (applyOpen slot r s) := by simp [applyOpen]

@[simp] theorem stays_applyClose (slot : Nat) (s : State) : Stays s (applyClose slot s) := by
  unfold applyClose
  dsimp only
  split <;> simp

@[simp] theorem stays_setHold (slot : Nat) (f : BitVec 4 → BitVec 4) (s : State) : Stays s (setHold slot f s) := by
  unfold setHold
  split <;> simp

@[simp] theorem stays_modSession (n : Nat) (f : Session → Session) (s : State) : Stays s (modSession n f s) := by
  unfold modSession
  split <;> simp

/-! #### Write-back -/

@[simp] theorem stays_forgetRow (row : Nat) (s : State) : Stays s (forgetRow row s) := by simp [forgetRow]

@[simp] theorem stays_putRemap (kind site loc spare : Nat) (b : RemapBlock) (s : State) : Stays s (putRemap kind site loc spare b s) := by
  simp [putRemap]

@[simp] theorem stays_noteRemap (site : Nat) (s : State) : Stays s (noteRemap site s) := by simp [noteRemap]

@[simp] theorem stays_stagePoison (p : Nat × Nat) (s : State) : Stays s (stagePoison p s) := by simp [stagePoison]

@[simp] theorem stays_awaitReread (site line : Nat) (s : State) : Stays s (awaitReread site line s) := by simp [awaitReread]

@[simp] theorem stays_rewriteLine (p : Nat × Nat × Bool) (s : State) : Stays s (rewriteLine p s) := by simp [rewriteLine]

/-! #### Responses -/

@[simp] theorem stays_respond (mb : Nat) (r : Resp) (s : State) : Stays s (respond mb r s) := by simp [respond]

@[simp] theorem stays_lateAnswers (s : State) : Stays s (lateAnswers s) := by simp [lateAnswers]

@[simp] theorem stays_commitAnswers (tick : Nat) (p : Portions) (s : State) : Stays s (commitAnswers tick p s) := by simp [commitAnswers]

@[simp] theorem stays_commitQuotes (s : State) : Stays s (commitQuotes s) := by simp [commitQuotes]

/-! #### Output rings -/

@[simp] theorem stays_sendEntries (sec : RingSec) (prod fuel : Nat) (s : State) : Stays s (sendEntries sec prod fuel s) := by
  induction fuel generalizing s with
  | zero => exact .refl s
  | succ fuel ih =>
    unfold sendEntries
    split
    · exact .refl s
    · refine stays_ite (.refl s) (stays_ite (Stays.trans (by simp) (ih _)) (stays_ite (.refl s) ?_))
      split
      · simp
      · exact Stays.trans (by simp) (ih _)

@[simp] theorem stays_sendRing (sec : RingSec) (s : State) : Stays s (sendRing sec s) := by
  unfold sendRing
  split <;> simp

@[simp] theorem stays_ringSend (s : State) : Stays s (ringSend s) := by simp [ringSend]

@[simp] theorem stays_replyTo (kind port : Nat) (p : Packet) (st : Status) (s : State) : Stays s (replyTo kind port p st s) := by
  simp [replyTo]

@[simp] theorem stays_sendReleases (s : State) : Stays s (sendReleases s) := by simp [sendReleases]

/-! #### The commit -/

@[simp] theorem stays_floorChange (s : State) : Stays s (floorChange s) := by simp [floorChange]

@[simp] theorem stays_holdHomed (n : Nat) (on : Bool) (s : State) : Stays s (holdHomed n on s) := by simp [holdHomed]

@[simp] theorem stays_suspendOn (n : Nat) (s : State) : Stays s (suspendOn n s) := by simp [suspendOn]

@[simp] theorem stays_publishIsolated (s : State) : Stays s (publishIsolated s) := by simp [publishIsolated]

@[simp] theorem stays_publishOff (s : State) : Stays s (publishOff s) := by simp [publishOff]

@[simp] theorem stays_joinQuads (s : State) : Stays s (joinQuads s) := by simp [joinQuads]

@[simp] theorem stays_applyDrain (p : Nat × Nat × Bool) (s : State) : Stays s (applyDrain p s) := by simp [applyDrain]

@[simp] theorem stays_applyDrains (s : State) : Stays s (applyDrains s) := by simp [applyDrains]

@[simp] theorem stays_narrowLink (n : Nat) (t : State) (p : Nat × Nat) : Stays t (narrowLink n t p) := by simp [narrowLink]

@[simp] theorem stays_narrowPort (t : State) (n : Nat) : Stays t (narrowPort t n) := by simp [narrowPort]

@[simp] theorem stays_applyNarrow (s : State) : Stays s (applyNarrow s) := by simp [applyNarrow]

@[simp] theorem stays_publishSuspends (s : State) : Stays s (publishSuspends s) := by simp [publishSuspends]

@[simp] theorem stays_reevaluate (s : State) : Stays s (reevaluate s) := by simp [reevaluate]

@[simp] theorem stays_consumeJournal (tick : Nat) (s : State) : Stays s (consumeJournal tick s) := by simp [consumeJournal]

@[simp] theorem stays_poisonEvents (s : State) : Stays s (poisonEvents s) := by simp [poisonEvents]

@[simp] theorem stays_postEvents (tick : Nat) (s : State) : Stays s (postEvents tick s) := by simp [postEvents]

@[simp] theorem stays_notePatrol (pre : State) (tick : Nat) (s : State) : Stays s (notePatrol pre tick s) := by simp [notePatrol]

@[simp] theorem stays_noteRecovery (s : State) : Stays s (noteRecovery s) := by simp [noteRecovery]

@[simp] theorem stays_commitChain (pre : State) (s : State) : Stays s (commitChain pre s) := by simp [commitChain]

@[simp] theorem stays_noteBudget (s : State) : Stays s (noteBudget s) := by simp [noteBudget]

@[simp] theorem stays_endInjection (tick : Nat) (s : State) : Stays s (endInjection tick s) := by
  unfold endInjection
  split <;> simp

/-! #### Boundaries -/

@[simp] theorem stays_staleMessages (s : State) : Stays s (staleMessages s) := by simp [staleMessages]

@[simp] theorem stays_staleTransfer (f : NetFlit) (s : State) : Stays s (staleTransfer f s) := by
  unfold staleTransfer
  dsimp only
  repeat' split
  all_goals simp

@[simp] theorem stays_discardStale (s : State) : Stays s (discardStale s) := by simp [discardStale]

@[simp] theorem stays_refill (s : State) : Stays s (refill s) := by simp [refill]

@[simp] theorem stays_clearEmptied (s : State) : Stays s (clearEmptied s) := by simp [clearEmptied]

@[simp] theorem stays_resumeAll (s : State) : Stays s (resumeAll s) :=
  stays_ite (stays_foldl (fun _ _ => (stays_resumeSlice ..).trans (stays_resumeStream ..)) _ _) (.refl s)

@[simp] theorem stays_benchLatch (s : State) : Stays s (benchLatch s) := by simp [benchLatch]

@[simp] theorem stays_overrun (s : State) : Stays s (overrun s) := by simp [overrun]

@[simp] theorem stays_deferCommit (f : FaultSite) (s : State) : Stays s (deferCommit f s) := by simp [deferCommit]

@[simp] theorem stays_lastingCommit (f : FaultSite) (s : State) : Stays s (lastingCommit f s) := by simp [lastingCommit]

@[simp] theorem stays_startCore (slot : Nat) (p : Plan) (sec : CoreSec) (s : State) : Stays s (startCore slot p sec s) := by
  simp [startCore]

@[simp] theorem stays_startCrumbs (sec : CrumbSec) (s : State) : Stays s (startCrumbs sec s) := by simp [startCrumbs]

@[simp] theorem stays_checkEntry (c : Lcid) (s : State) : Stays s (checkEntry c s) := by
  unfold checkEntry
  split <;> simp

@[simp] theorem stays_startUnits (s : State) : Stays s (startUnits s) := by simp [startUnits]

@[simp] theorem stays_injectCrc (j : Inject) (s : State) : Stays s (injectCrc j s) := by simp [injectCrc]

@[simp] theorem stays_injectLine (s : State) : Stays s (injectLine s) := by
  unfold injectLine
  split
  · exact .refl s
  · refine stays_ite (stays_ite (stays_injectCrc ..) ?_) (.refl s)
    split
    · exact .refl s
    · exact stays_ite (.refl s) (.refl s)

@[simp] theorem stays_injectFault (s : State) : Stays s (injectFault s) := by
  unfold injectFault
  split <;> simp

@[simp] theorem stays_startTick (s : State) : Stays s (startTick s) := by simp [startTick]

@[simp] theorem stays_takeSource (s : State) : Stays s (takeSource s) := by
  unfold takeSource
  split <;> simp

/-! #### Links of the stacks -/

@[simp] theorem stays_linkLost (n link : Nat) (s : State) : Stays s (linkLost n link s) := by simp [linkLost]

@[simp] theorem stays_spareLane (n link : Nat) (rx : Bool) (lane : Nat) (s : State) : Stays s (spareLane n link rx lane s) := by
  unfold spareLane
  dsimp only
  split <;> simp

@[simp] theorem stays_failLane (l : LaneId) (s : State) : Stays s (failLane l s) := by simp [failLane]

@[simp] theorem stays_failPortLane (l : LaneId) (s : State) : Stays s (failPortLane l s) := by
  unfold failPortLane
  dsimp only
  repeat' split
  all_goals simp

@[simp] theorem stays_darken (n : Nat) (s : State) : Stays s (darken n s) := by simp [darken]

@[simp] theorem stays_logMap (n link : Nat) (own : Bool) (gen : W32) (flags : Nat) (tx rx : BitVec 34) (s : State) :
    Stays s (logMap n link own gen flags tx rx s) := by
  unfold logMap
  split <;> simp

@[simp] theorem stays_retestLink (n : Nat) (r : List LinkResult) (s : State) (link : Nat) : Stays s (retestLink n r s link) := by
  simp [retestLink]

@[simp] theorem stays_retest (n : Nat) (r : List LinkResult) (s : State) : Stays s (retest n r s) := by simp [retest]

/-! #### Heat and power between commits -/

@[simp] theorem stays_senseEvents (q : Nat) (old t : Therm) (s : State) : Stays s (senseEvents q old t s) := by simp [senseEvents]

@[simp] theorem stays_sampleStack (r : List SensorTriple) (s : State) (n : Nat) : Stays s (sampleStack r s n) := by
  unfold sampleStack
  dsimp only [draw]
  split
  · exact stays_foldl (fun t i => by simp) { s with fresh := s.fresh + 1 } _
  · exact stays_foldl (fun t i => by simp) s _

@[simp] theorem stays_abandonTick (cooling : Bool) (s : State) : Stays s (abandonTick cooling s) := by
  unfold abandonTick
  split <;> simp

theorem floor_enterRack (cause : Nat) (s : State) : Floor s (enterRack cause s) := by
  unfold enterRack
  split
  · exact .refl s
  · simp [Floor]

@[simp] theorem stays_coldCheck (s : State) : Stays s (coldCheck s) := by simp [coldCheck]

@[simp] theorem stays_coolChange (n : Nat) (s : State) : Stays s (coolChange n s) := by simp [coolChange]

@[simp] theorem stays_enterState (x : Pwr) (s : State) : Stays s (enterState x s) := by simp [enterState]

/-! #### Integrity between commits -/

@[simp] theorem stays_setError (s : State) (w : Nat) (uncorrectable : Bool) : Stays s (s.setError w uncorrectable) := by
  simp [State.setError]

@[simp] theorem stays_scrubLine (site line : Nat) (s : State) : Stays s (scrubLine site line s) := by simp [scrubLine]

@[simp] theorem stays_endPass (s : State) : Stays s (endPass s) := by simp [endPass]

@[simp] theorem stays_decideRemap (site bank row : Nat) (s : State) : Stays s (decideRemap site bank row s) := by simp [decideRemap]

@[simp] theorem stays_lastingWord (w : Nat) (uncorrectable : Bool) (s : State) : Stays s (lastingWord w uncorrectable s) := by
  unfold lastingWord
  dsimp only
  repeat' split
  all_goals simp

@[simp] theorem stays_halt (cause : Nat) (s : State) : Stays s (halt cause s) := by simp [halt]

/-! #### Bring-up -/

@[simp] theorem stays_addProof (r : ProofRec) (s : State) : Stays s (addProof r s) := by simp [addProof]

@[simp] theorem stays_stageRec (stage scope : Nat) (kind : StartKind) (result cause tested failed : Nat) (detail : List Nat) (s : State) :
    Stays s (stageRec stage scope kind result cause tested failed detail s) := by
  refine Stays.trans ?_ (stays_addProof ..)
  dsimp only [draw]
  split <;> simp

@[simp] theorem stays_finding (stage scope : Nat) (kind : StartKind) (unitC site ix source outcome flags detail : Nat) (log : Option Nat) (s : State) :
    Stays s (finding stage scope kind unitC site ix source outcome flags detail log s) := by
  simp [finding]

@[simp] theorem stays_endStage (stage next result cause tested failed : Nat) (s : State) :
    Stays s (endStage stage next result cause tested failed s) := by
  simp [endStage]

@[simp] theorem stays_failHalt (stage cause : Nat) (s : State) : Stays s (failHalt stage cause s) := by simp [failHalt]

@[simp] theorem stays_setCode (n c : Nat) (s : State) : Stays s (setCode n c s) := by simp [setCode]

@[simp] theorem stays_dropCode (n : Nat) (s : State) : Stays s (dropCode n s) := by simp [dropCode]

@[simp] theorem stays_nextStage (s : State) : Stays s (nextStage s) := by
  unfold nextStage
  split <;> simp

@[simp] theorem stays_armStop (s : State) : Stays s (armStop s) := by simp [armStop]

theorem floor_readIndex (bad : List Nat) (s : State) : Floor s (readIndex bad s) := by
  simp [readIndex, Floor]

@[simp] theorem stays_trainLink (n : Nat) (r : List LinkResult) (s : State) (link : Nat) : Stays s (trainLink n r s link) := by
  simp [trainLink]

@[simp] theorem stays_trainStack (n : Nat) (r : List LinkResult) (s : State) : Stays s (trainStack n r s) := by simp [trainStack]

@[simp] theorem stays_laneFindings (n : Nat) (kind : StartKind) (s : State) : Stays s (laneFindings n kind s) := by simp [laneFindings]

@[simp] theorem stays_p3Stack (r : List LinkResult) (s : State) (e : Nat × Nat) : Stays s (p3Stack r s e) := by simp [p3Stack]

@[simp] theorem stays_trainPort (r : List LinkResult) (s : State) (p : Nat) : Stays s (trainPort r s p) := by simp [trainPort]

@[simp] theorem stays_coldWaits (n : Nat) (s : State) : Stays s (coldWaits n s) := by simp [coldWaits]

@[simp] theorem stays_reconcileSite (site : Nat) (s : State) : Stays s (reconcileSite site s) := by simp [reconcileSite]

@[simp] theorem stays_knownBad (scopes : List Nat) (s : State) : Stays s (knownBad scopes s) := by simp [knownBad]

@[simp] theorem stays_reconcileRows (scopes : List Nat) (s : State) : Stays s (reconcileRows scopes s) := by simp [reconcileRows]

@[simp] theorem stays_bootUnit (f : FaultSite) (s : State) : Stays s (bootUnit f s) := by simp [bootUnit]

@[simp] theorem stays_knownUnits (scopes : List Nat) (s : State) : Stays s (knownUnits scopes s) := by simp [knownUnits]

@[simp] theorem stays_mapUnits (scopes : List Nat) (s : State) : Stays s (mapUnits scopes s) := by simp [mapUnits]

theorem floor_testBits (bad : List Nat) (s : State) : Floor s (testBits bad s) := by simp [testBits, Floor]

@[simp] theorem stays_reconcile (scopes : List Nat) (s : State) : Stays s (reconcile scopes s) := by simp [reconcile]

@[simp] theorem stays_adoptWork (s : State) : Stays s (adoptWork s) := by simp [adoptWork]

@[simp] theorem stays_rejectP7 (s : State) : Stays s (rejectP7 s) := by simp [rejectP7]

@[simp] theorem stays_resetRegisters (s : State) : Stays s (resetRegisters s) := by simp [resetRegisters]

@[simp] theorem stays_startForecast (s : State) : Stays s (startForecast s) := by simp [startForecast]

@[simp] theorem stays_leaveRack (s : State) : Stays s (leaveRack s) := by simp [leaveRack]

/-! #### TLink -/

@[simp] theorem stays_forward (kind : Nat) (p : Packet) (s : State) : Stays s (forward kind p s) := by
  unfold forward
  split <;> simp

@[simp] theorem stays_holdSource (port : Nat) (p : Packet) (s : State) : Stays s (holdSource port p s) := by simp [holdSource]

@[simp] theorem stays_takeInput (port : Nat) (p : Packet) (s : State) : Stays s (takeInput port p s) := by
  unfold takeInput
  dsimp only
  repeat' split
  all_goals simp

@[simp] theorem stays_journalRecord (j : JPend) (s : State) : Stays s (journalRecord j s) := by
  unfold journalRecord
  dsimp only
  repeat' split
  all_goals simp

@[simp] theorem stays_journalLost (j : JPend) (s : State) : Stays s (journalLost j s) := by
  unfold journalLost
  dsimp only
  repeat' split
  all_goals simp

@[simp] theorem stays_sendMore (n : Nat) (s : State) : Stays s (sendMore n s) := by
  unfold sendMore
  split <;> simp

@[simp] theorem stays_takeAck (p : Packet) (s : State) : Stays s (takeAck p s) := by
  unfold takeAck
  dsimp only
  repeat' split
  all_goals simp

@[simp] theorem stays_takeHold (p : Packet) (s : State) : Stays s (takeHold p s) := by simp [takeHold]

@[simp] theorem stays_takeRelease (p : Packet) (s : State) : Stays s (takeRelease p s) := by simp [takeRelease]

@[simp] theorem stays_linkUp (n : Nat) (peer : PeerInfo) (s : State) : Stays s (linkUp n peer s) := by simp [linkUp]

/-! #### Supplies and the test access port -/

@[simp] theorem stays_hostDown (s : State) : Stays s (hostDown s) := by simp [hostDown]

@[simp] theorem stays_portsDown (s : State) : Stays s (portsDown s) := by simp [portsDown]

@[simp] theorem stays_haltNow (cause : Nat) (s : State) : Stays s (haltNow cause s) := by simp [haltNow]

@[simp] theorem stays_lasersOff (s : State) : Stays s (lasersOff s) := by simp [lasersOff]

@[simp] theorem stays_tap (ir : BitVec 8) (data : BitVec 32) (s : State) : Stays s (tap ir data s) := by simp [tap]

@[simp] theorem stays_tapBypass (s : State) : Stays s (tapBypass s) := by simp [tapBypass]

/-! #### The reserve as software writes it -/

@[simp] theorem stays_noteRange (a n : Nat) (s : State) : Stays s (noteRange a n s) := by
  unfold noteRange
  exact stays_foldl (fun t l => by split <;> simp) _ _

@[simp] theorem stays_putDesc (pfn : Nat) (b : List Byte) (s : State) : Stays s (putDesc pfn b s) := by
  unfold putDesc
  dsimp only
  repeat' split
  all_goals simp

@[simp] theorem stays_putPool (key : Nat) (b : List Byte) (s : State) : Stays s (putPool key b s) := by simp [putPool]

@[simp] theorem stays_putSeq (slot : Nat) (b : List Byte) (s : State) : Stays s (putSeq slot b s) := by
  unfold putSeq
  refine Stays.trans ?_ (stays_foldl (fun t i => ?_) _ _)
  · simp
  · split <;> simp

@[simp] theorem stays_putTable (stack n : Nat) (b : List Byte) (s : State) : Stays s (putTable stack n b s) := by simp [putTable]

@[simp] theorem stays_putKv (stack kind n : Nat) (b : List Byte) (s : State) : Stays s (putKv stack kind n b s) := by
  unfold putKv
  split <;> simp

@[simp] theorem stays_writeKv (stack v : Nat) (data : List Byte) (s : State) : Stays s (writeKv stack v data s) := by simp [writeKv]

/-! #### The host's register writes -/

@[simp] theorem stays_countBar2 (k : Nat) (s : State) : Stays s (countBar2 k s) := by
  unfold countBar2
  split <;> simp

@[simp] theorem stays_bar2Answer (code : Nat) (b : List Byte) (s : State) : Stays s (bar2Answer code b s) := by simp [bar2Answer]

@[simp] theorem stays_poisonLines (a n : Nat) (s : State) : Stays s (poisonLines a n s) := by
  unfold poisonLines
  exact stays_foldl (fun t l => by split <;> simp) _ _

@[simp] theorem stays_cleanWords (a n : Nat) (s : State) : Stays s (cleanWords a n s) := by
  unfold cleanWords
  exact stays_foldl (fun t l => by split <;> simp) _ _

@[simp] theorem stays_writeCodes (poisoned : Bool) (a n : Nat) (s : State) : Stays s (writeCodes poisoned a n s) := by simp [writeCodes]

@[simp] theorem stays_bar2Reserve (a : Nat) (data : List Byte) (poisoned : Bool) (s : State) : Stays s (bar2Reserve a data poisoned s) := by
  simp [bar2Reserve]

@[simp] theorem stays_regWrite (c : Change) (s : State) : Stays s (regWrite c s) := by simp [regWrite]

@[simp] theorem stays_markPending (c : Change) (s : State) : Stays s (markPending c s) := by
  unfold markPending
  split <;> simp

@[simp] theorem stays_selectSource (ext : Bool) (s : State) : Stays s (selectSource ext s) := by simp [selectSource]

@[simp] theorem stays_writeCtrl (v : BitVec 32) (s : State) : Stays s (writeCtrl v s) := by
  unfold writeCtrl
  split <;> simp

@[simp] theorem stays_writePeriod (v : BitVec 32) (s : State) : Stays s (writePeriod v s) := by simp [writePeriod]

@[simp] theorem stays_writeWrap (v : BitVec 32) (s : State) : Stays s (writeWrap v s) := by simp [writeWrap]

@[simp] theorem stays_writeRate (q : Nat) (stream : Bool) (v : BitVec 32) (s : State) : Stays s (writeRate q stream v s) := by
  simp [writeRate]

@[simp] theorem stays_writeSteps (v : BitVec 32) (s : State) : Stays s (writeSteps v s) := by simp [writeSteps]

@[simp] theorem stays_writeBudget (v : BitVec 32) (s : State) : Stays s (writeBudget v s) := by simp [writeBudget]

@[simp] theorem stays_writeWaves (v : BitVec 32) (s : State) : Stays s (writeWaves v s) := by simp [writeWaves]

@[simp] theorem stays_writeAddr (dims : Bool) (v : BitVec 32) (s : State) : Stays s (writeAddr dims v s) := by simp [writeAddr]

@[simp] theorem stays_writeBase (v : Nat) (s : State) : Stays s (writeBase v s) := by simp [writeBase]

@[simp] theorem stays_writeThermal (r : Nat) (v : BitVec 32) (s : State) : Stays s (writeThermal r v s) := by simp [writeThermal]

@[simp] theorem stays_clearCounters (c : Counters) (v : BitVec 32) (s : State) : Stays s (clearCounters c v s) := by simp [clearCounters]

@[simp] theorem stays_writeOnes (b : Block) (r : Nat) (v : BitVec 32) (s : State) : Stays s (writeOnes b r v s) := by
  unfold writeOnes
  split <;> simp

@[simp] theorem stays_writePlain (b : Block) (r : Nat) (v : BitVec 32) (s : State) : Stays s (writePlain b r v s) := by
  unfold writePlain
  repeat' split
  all_goals simp

@[simp] theorem stays_writeExpert (off : Nat) (v : BitVec 32) (s : State) : Stays s (writeExpert off v s) := by
  unfold writeExpert
  repeat' split
  all_goals simp

/-! #### Mailboxes -/

@[simp] theorem stays_countServed (mb : Nat) (s : State) : Stays s (countServed mb s) := by simp [countServed]

@[simp] theorem stays_answerUnknown (s : State) : Stays s (answerUnknown s) := by simp [answerUnknown]

@[simp] theorem stays_writeGo (n : Nat) (v : BitVec 32) (s : State) : Stays s (writeGo n v s) := by simp [writeGo]

@[simp] theorem stays_writeTail (n : Nat) (v : BitVec 32) (s : State) : Stays s (writeTail n v s) := by simp [writeTail]

@[simp] theorem stays_writeBoxWord (n r : Nat) (v : BitVec 32) (s : State) : Stays s (writeBoxWord n r v s) := by
  unfold writeBoxWord
  split <;> simp

@[simp] theorem stays_writeArea (n o : Nat) (b : List Byte) (s : State) : Stays s (writeArea n o b s) := by simp [writeArea]

@[simp] theorem stays_writeBox (n o size : Nat) (v : BitVec 64) (s : State) : Stays s (writeBox n o size v s) := by simp [writeBox]

@[simp] theorem stays_writeRegs (off size : Nat) (v : BitVec 64) (s : State) : Stays s (writeRegs off size v s) := by simp [writeRegs]

@[simp] theorem stays_complete (op : Nat) (m : Msg) (st : Status) (detail progress : Nat) (body : List W64) (s : State) :
    Stays s (complete op m st detail progress body s) := by
  simp [complete]

@[simp] theorem stays_completeData (op : Nat) (m : Msg) (st : Status) (progress : Nat) (body : List W64) (data : List Byte) (s : State) :
    Stays s (completeData op m st progress body data s) := by
  simp [completeData]

@[simp] theorem stays_accept (op : Nat) (m : Msg) (cs : List Change) (body : List W64) (s : State) : Stays s (accept op m cs body s) := by
  simp [accept]

@[simp] theorem stays_readItems (op : Nat) (m : Msg) (items : Items) (s : State) : Stays s (readItems op m items s) := by simp [readItems]

/-! #### TICK_, QUOTA_, MEM_ and NET_ commands -/

@[simp] theorem stays_clearBy (op : Nat) (m : Msg) (b : Block) (t : State) : Stays t (clearBy op m b t) := by
  unfold clearBy
  split <;> simp

@[simp] theorem stays_runMemRead (m : Msg) (s : State) : Stays s (runMemRead m s) := by
  unfold runMemRead
  dsimp only [draw]
  split <;> simp

/-! #### LINK_, THERM_ and PWR_ commands -/

@[simp] theorem stays_clearLatch (s : State) : Stays s (clearLatch s) := by simp [clearLatch]

/-! #### SEC_ commands -/

@[simp] theorem stays_rejectToken (fn : Nat) (s : State) : Stays s (rejectToken fn s) := by simp [rejectToken]

@[simp] theorem stays_openMiss (s : State) (m : Msg) (v : Status × Nat) (t : State) : Stays t (openMiss s m v t) := by simp [openMiss]

@[simp] theorem stays_runOpen (m : Msg) (s : State) : Stays s (runOpen m s) := by simp [runOpen, draw]

/-! #### DBG_, FW_ and CAP_ commands -/

@[simp] theorem stays_scanReset (q : Nat) (s : State) : Stays s (scanReset q s) := by simp [scanReset]

@[simp] theorem stays_fwRejected (n : Nat) (s : State) : Stays s (fwRejected n s) := by simp [fwRejected]

@[simp] theorem stays_imageMiss (s : State) (m : Msg) (v : Status × Nat) (t : State) : Stays t (imageMiss s m v t) := by
  unfold imageMiss
  split <;> simp

/-! #### SEQ_ and KV_ commands -/

@[simp] theorem stays_runIngest (m : Msg) (s : State) : Stays s (runIngest m s) := by simp [runIngest]

theorem stays_copied {c : Change} {s t : State} (h : s.copied c = some t) : Stays s t := by
  rw [copies_some h]
  exact .refl s

@[simp] theorem stays_acceptEdit (op : Nat) (m : Msg) (c : Change) (t : State) : Stays t (acceptEdit op m c t) := by
  refine Stays.trans ?_ (stays_accept ..)
  cases h : t.copied c with
  | none => exact .refl t
  | some u => exact stays_copied h

@[simp] theorem stays_runDigest (m : Msg) (s : State) : Stays s (runDigest m s) := by simp [runDigest]

/-! #### PLAN_ commands -/

@[simp] theorem stays_runAdmit (op : Nat) (m : Msg) (t : State) : Stays t (runAdmit op m t) := by simp [runAdmit]

@[simp] theorem stays_runSuspend (m : Msg) (t : State) : Stays t (runSuspend m t) := by simp [runSuspend]

/-! #### EVD_ commands and replay -/

@[simp] theorem stays_runCapture (m : Msg) (t : State) : Stays t (runCapture m t) := by simp [runCapture]

@[simp] theorem stays_answerWith (mb : Nat) (st : Status) (t : State) : Stays t (answerWith mb st t) := by simp [answerWith]

@[simp] theorem stays_readFlagged (op : Nat) (m : Msg) (items : List EvdItem) (s : State) : Stays s (readFlagged op m items s) := by
  simp [readFlagged]

@[simp] theorem stays_runReplayTick (m : Msg) (t : State) : Stays t (runReplayTick m t) := by
  unfold runReplayTick
  dsimp only [draw]
  split <;> simp

/-! #### Between attempts -/

/-- The bench memories and scratch of a row move; `after` is the state they are put in. -/
@[simp] theorem stays_moveScratch (row : Nat) (before after : State) : Stays after (moveScratch row before after) :=
  stays_foldl (fun t col => by dsimp only; split <;> simp) _ _

@[simp] theorem stays_shiftRow (j : ShiftJob) (s : State) : Stays s (shiftRow j s) := by
  unfold shiftRow
  simp

@[simp] theorem stays_patrolFailed (pass : Nat) (f : FaultSite) (s : State) : Stays s (patrolFailed pass f s) := by simp [patrolFailed]

/-! ### Operations that write device memory, and the commit -/

@[simp] theorem stays_clearSites (f : Nat → Bool) (s : State) : Stays s (clearSites f s) := .refl s

@[simp] theorem stays_zeroUser (s : State) : Stays s (zeroUser s) := by simp [zeroUser]

@[simp] theorem stays_loseContents (n : Nat) (poison : Bool) (s : State) : Stays s (loseContents n poison s) := by simp [loseContents]

@[simp] theorem stays_putLine (s : State) (site loc : Nat) (bytes : List Byte) (poison : Bool) : Stays s (s.putLine site loc bytes poison) := by
  simp [State.putLine]

@[simp] theorem stays_copyPage (l : Layout) (pageLog2 src dst n : Nat) (s : State) : Stays s (copyPage l pageLog2 src dst n s) := by
  simp [copyPage]

@[simp] theorem stays_applyRetireFrame (pfn : Nat) (spare : Option Nat) (s : State) : Stays s (applyRetireFrame pfn spare s) := by
  unfold applyRetireFrame
  dsimp only
  split <;> split <;> simp

@[simp] theorem stays_zeroAll (s : State) : Stays s (zeroAll s) := by simp [zeroAll]

/-- The last seals a device makes. -/
theorem floor_lastSeals (s : State) : Floor s ((List.range 4).foldl (fun t _ => sealWith lastSign t) s) :=
  floor_foldl (fun _ _ => floor_sealWith floor_lastSign _) s _

theorem floor_doAction (c : Change) (s : State) : Floor s (doAction c s) := by
  cases c with
  | toReturned n =>
    unfold doAction
    refine (floor_lastSeals s).trans ?_
    generalize List.foldl _ s _ = t
    simp [Floor]
  | _ => exact Stays.floor (by simp [doAction])

theorem floor_runActions (s : State) : Floor s (runActions s) := by
  unfold runActions
  exact floor_foldl (fun _ _ => floor_doAction ..) { s with power := { s.power with actions := [] } } _

@[simp] theorem stays_putBytes (s : State) (site loc : Nat) (bytes : List Byte) : Stays s (s.putBytes site loc bytes) := by
  simp [State.putBytes]

@[simp] theorem stays_moveImage (stack loc : Nat) (s : State) : Stays s (moveImage stack loc s) := by simp [moveImage]

@[simp] theorem stays_retireReserve (site loc : Nat) (s : State) : Stays s (retireReserve site loc s) := by simp [retireReserve]

@[simp] theorem stays_retireRequest (kind site loc : Nat) (s : State) : Stays s (retireRequest kind site loc s) := by simp [retireRequest]

@[simp] theorem stays_copyRow (src dst : Nat) (s : State) : Stays s (copyRow src dst s) := by simp [copyRow]

@[simp] theorem stays_remapOne (p : Nat × Nat × Nat) (s : State) : Stays s (remapOne p s) := by
  unfold remapOne
  dsimp only
  split
  · refine stays_ite (.refl s) (stays_ite (by simp) ?_)
    split <;> simp
  · split <;> simp

@[simp] theorem stays_putStaged (w : Staged) (s : State) : Stays s (putStaged w s) := by simp [putStaged]

@[simp] theorem stays_writeCons (s : State) : Stays s (writeCons s) := by
  unfold writeCons
  refine stays_foldl (fun t e => stays_foldl (fun t sec => ?_) _ _) _ _
  split
  · exact .refl t
  · exact stays_ite (.refl t) (.refl t)

@[simp] theorem stays_writeBack (mail : List Staged) (s : State) : Stays s (writeBack mail s) := by simp [writeBack]

@[simp] theorem stays_putPosition (l : Layout) (pfn k t : Nat) (bytes : Nat → Byte × Bool) (s : State) :
    Stays s (putPosition l pfn k t bytes s) := by
  simp [putPosition]

theorem stays_restoreToken {slot gi : Nat} {l : Layout} {m : Move} {t : Nat} {s u : State} (h : restoreToken slot gi l m t s = some u) :
    Stays s u := by
  unfold restoreToken at h
  split at h
  · cases h
  · dsimp only at h
    split at h
    · cases h
      simp
    · split at h
      · obtain ⟨v, hv, rfl⟩ := Option.map_eq_some_iff.1 h
        exact (stays_editLeaf hv).trans (by simp)
      · cases h

@[simp] theorem stays_finishMove (slot g : Nat) (x : Group) (m : Move) (s : State) : Stays s (finishMove slot g x m s) := by
  unfold finishMove
  split
  · exact .refl s
  · dsimp only
    split
    · exact .refl s
    · refine stays_ite (.refl s) ?_
      refine Stays.trans ?_ (stays_foldl (fun t i => stays_setEntry ..) _ _)
      refine Stays.trans ?_ ((stays_leaveTables ..).trans (stays_modGroup ..))
      refine Stays.trans ?_ (stays_foldl (fun t p => ?_) _ _)
      · exact stays_foldl (fun t i => by simp) _ _
      · split
        · exact stays_putPosition ..
        · exact .refl t

@[simp] theorem stays_stepMove (slot gi : Nat) (s : State) : Stays s (stepMove slot gi s) := by
  unfold stepMove
  split
  · exact .refl _
  · split
    · rename_i m l _ _
      dsimp only [draw]
      refine stays_ite ?_ ?_
      · refine Stays.trans ?_ (stays_modGroup ..)
        refine stays_foldlBy Prod.fst (fun a x => ?_) ({ s with fresh := s.fresh + 1 }, m.done) _
        split
        · exact .refl _
        · split
          · rename_i h
            exact stays_restoreToken h
          · exact .refl _
      · refine stays_ite (Stays.trans ?_ (stays_finishMove ..)) ?_ <;> simp
    · exact .refl _

@[simp] theorem stays_stepMoves (s : State) : Stays s (stepMoves s) := by
  unfold stepMoves
  refine stays_foldl (fun t e => ?_) _ _
  dsimp only
  split <;> simp

theorem floor_afterPublish (pre : State) (p : Portions) (s : State) : Floor s (afterPublish pre p s) := by
  unfold afterPublish
  refine ((stays_writeBack p.staged s).floor.trans (floor_runActions _)).trans (Stays.floor ?_)
  simp

theorem floor_applyFuse (site bank row : Nat) (s : State) : Floor s (applyFuse site bank row s) := by
  unfold applyFuse
  simp [draw, Floor]

theorem floor_applyChange (c : Change) (s : State) : Floor s (applyChange c s) := by
  cases c with
  | provision => exact floor_applyProvision s
  | dramFuse site bank row =>
    rw [applyChange]
    exact floor_applyFuse ..
  | calibrate w => simp [applyChange, Floor]
  | svnCommit => simp [applyChange, Floor]
  | certInstall b | deploy b => exact floor_enterLife _ (by simp [Floor])
  | toReturned n => exact floor_enterLife _ (Stays.floor (by simp))
  | _ => exact Stays.floor (by simp [applyChange])

theorem floor_publishChanges (s : State) : Floor s (publishChanges s) := by
  unfold publishChanges
  exact floor_foldl (fun _ _ => floor_applyChange ..) { s with changes := [], regWrites := [], replayChanges := [] } _

@[simp] theorem stays_rejoinStack (n code : Nat) (s : State) : Stays s (rejoinStack n code s) := by simp [rejoinStack]

@[simp] theorem stays_rejoinStacks (s : State) : Stays s (rejoinStacks s) := by simp [rejoinStacks]

theorem floor_publish (pre : State) (p : Portions) (s : State) : Floor s (publish pre p s) := by
  unfold publish
  refine ((stays_commitAppends s).floor.trans (floor_publishChanges _)).trans (Stays.floor ?_)
  simp

theorem floor_commitTick (s : State) : Floor s (commitTick s) := by
  unfold commitTick
  have published := (floor_publish s (memPortions s s.tickChanges) s).trans
    ((stays_commitChain s _).floor.trans (floor_afterPublish s (memPortions s s.tickChanges) _))
  exact published.trans (Stays.floor (by simp))

theorem floor_commitNow (e : BoundaryEnv) (s : State) : Floor s (commitNow e s) := by
  unfold commitNow
  refine Floor.trans ?_ (floor_commitTick _)
  exact .refl s

theorem floor_settleTick (e : BoundaryEnv) (s : State) : Floor s (settleTick e s) := by
  unfold settleTick
  split
  · split
    · exact (stays_deferCommit ..).floor
    · exact floor_commitNow ..
  · split
    · exact floor_ite ((stays_lastingCommit ..).floor.trans (floor_commitNow ..)) (stays_deferCommit ..).floor
    · exact floor_commitNow ..
  all_goals exact Stays.floor (by simp)

theorem floor_takeBoundary (dt : Nat) (fly : Bool) (e : BoundaryEnv) {s t : State} (h : Stays s t) : Floor s (takeBoundary dt fly e t) := by
  unfold takeBoundary
  dsimp only
  generalize hu : benchLatch _ = u
  have latched : Stays s u := by
    subst hu
    exact h.trans (by simp)
  refine (latched.floor.trans (floor_settleTick e u)).trans (Stays.floor ?_)
  simp

@[simp] theorem stays_cutDram (s : State) : Stays s (cutDram s) := by simp [cutDram]

@[simp] theorem stays_storeImage (image : List Byte) (s : State) : Stays s (storeImage image s) := by simp [storeImage]

@[simp] theorem stays_p4Row (kind : StartKind) (n : Nat) (f : RowFinding) (p : State × Nat × Nat) : Stays p.1 (p4Row kind n f p).1 := by
  simp [p4Row]

theorem floor_p4Stack (n : Nat) (r : P4Result) (s : State) : Floor s (p4Stack n r s) := by
  unfold p4Stack
  extract_lets kind t u q v w x bad y
  have rows : Stays s q.1 := Stays.trans (.refl s) (stays_foldlBy Prod.fst (fun _ _ => stays_p4Row ..) _ _)
  have tested : Stays q.1 y := by simp [y, x, w, v]
  refine (rows.trans tested).floor.trans ?_
  exact ⟨rfl, rfl, rfl, id, le_rfl, le_rfl, le_rfl, id⟩

@[simp] theorem stays_backFromCut (n : Nat) (s : State) : Stays s (backFromCut n s) := by simp [backFromCut]

@[simp] theorem stays_p6Status (s : State) : Stays s (p6Status s) := by simp [p6Status]

theorem floor_p6Device (s : State) : Floor s (p6Device s) := by
  unfold p6Device
  extract_lets first mirrors old t u v w changed x left _ _ y bad
  have tested : Floor s u := (stays_reconcile ..).floor.trans (floor_ite (floor_testBits ..) (.refl t))
  have drained : Stays u w := by simp [w, v]
  have published : Stays w y := by simp [y, x]
  exact tested.trans ((drained.trans published).trans (stays_endStage ..)).floor

@[simp] theorem stays_stackTimeout (n : Nat) (s : State) : Stays s (stackTimeout n s) := by
  unfold stackTimeout
  split <;> simp

@[simp] theorem stays_bar2Word (site loc lo hi : Nat) (bytes : List Byte) (s : State) : Stays s (bar2Word site loc lo hi bytes s) := by
  unfold bar2Word
  dsimp only
  refine Stays.trans (stays_ite (.refl s) ?_) (.refl _)
  split <;> simp

@[simp] theorem stays_bar2Words (a : Nat) (data : List Byte) (s : State) : Stays s (bar2Words a data s) := by
  unfold bar2Words
  refine stays_foldl (fun t i => ?_) _ _
  dsimp only
  split <;> simp

@[simp] theorem stays_passP7 (image measurement : List Byte) (svn : Nat) (s : State) : Stays s (passP7 image measurement svn s) := by
  simp [passP7]

/-! ### Operations of tile and crumb programs -/

theorem stays_startXfer (c : Lcid) (k : CoreCtx) (x : SliceXfer) (s : State) : Stays s (startXfer c k x s).2 := by
  unfold startXfer
  exact ((stays_setCore ..).trans (stays_issuePieces ..)).trans (stays_modXfer ..)

theorem stays_startNet (c : Lcid) (k : CoreCtx) (batch : Nat) (x : NetXfer) (s : State) : Stays s (startNet c k batch x s).2 := by
  unfold startNet
  dsimp only
  split <;> split <;> simp

theorem stays_startCrumb (c : Lcid) (k : CoreCtx) (use at_ mask src dst : Nat) (flits : List (Nat × List Byte × Bool)) (s : State) :
    Stays s (startCrumb c k use at_ mask src dst flits s).2 := by
  unfold startCrumb
  exact (stays_setCore ..).trans (stays_inject ..)

theorem stays_launch (c : Lcid) (k : CoreCtx) (x : NetXfer) (s : State) : Stays s (launch c k x s).2 := by
  unfold launch
  exact (stays_startNet ..).trans (stays_foldl (fun _ _ => stays_leaveDest ..) _ _)

theorem stays_endWalk (c : Lcid) (o : Op) (k : CoreCtx) (p : WalkP) (st : Status) (rows : List PartRow) (fl : Fl)
    (visited skipped pte : Nat) (s : State) : Stays s (endWalk c o k p st rows fl visited skipped pte s).2 := by
  simp [endWalk]

theorem stays_bodyBr (o : Op) (s : State) (k : CoreCtx) : Gives (fun p => Stays s p.2) (bodyBr o s k) := by
  unfold bodyBr
  refine .bind fun _ => .bind fun _ => .ite (.bind fun _ => .ok (.refl s)) (.ok (.refl s))

theorem stays_bodyCall (o : Op) (s : State) (k : CoreCtx) : Gives (fun p => Stays s p.2) (bodyCall o s k) :=
  .bind fun _ => .bind fun _ => .ok (.refl s)

theorem stays_bodyRet (s : State) (k : CoreCtx) : Gives (fun p => Stays s p.2) (bodyRet s k) :=
  .bind fun _ => .bind fun _ => .bind fun _ => .bind fun _ => .ok (.refl s)

theorem stays_bodyLoop (o : Op) (s : State) (k : CoreCtx) : Gives (fun p => Stays s p.2) (bodyLoop o s k) :=
  .bind fun _ => .bind fun _ => .ite (.ok (.refl s)) (.bind fun _ => .ok (.refl s))

theorem stays_bodyTload (c : Lcid) (o : Op) (s : State) (k : CoreCtx) : Gives (fun p => Stays s p.2) (bodyTload c o s k) := by
  unfold bodyTload
  iterate 7 refine .bind fun _ => ?_
  refine .ite (.bind fun _ => ?_) (.bind fun _ => .ok (stays_startXfer ..))
  split
  · exact .ok (.refl s)
  · exact .bind fun _ => .ok (stays_startXfer ..)

theorem stays_bodyTstore (c : Lcid) (o : Op) (s : State) (k : CoreCtx) : Gives (fun p => Stays s p.2) (bodyTstore c o s k) := by
  unfold bodyTstore
  iterate 7 refine .bind fun _ => ?_
  exact .ok (stays_startXfer ..)

theorem stays_bodySld (c : Lcid) (o : Op) (s : State) (k : CoreCtx) : Gives (fun p => Stays s p.2) (bodySld c o s k) := by
  unfold bodySld
  iterate 4 refine .bind fun _ => ?_
  split
  · exact .ok (.refl s)
  · exact .bind fun _ => .ok (stays_startXfer ..)

theorem stays_bodyTin (o : Op) (s : State) (k : CoreCtx) : Gives (fun p => Stays s p.2) (bodyTin o s k) := by
  unfold bodyTin
  iterate 3 refine .bind fun _ => ?_
  split
  · exact .ok (.refl s)
  · exact .bind fun _ => .bind fun _ => .ok (.refl s)

theorem stays_bodyRgate (c : Lcid) (o : Op) (s : State) (k : CoreCtx) : Gives (fun p => Stays s p.2) (bodyRgate c o s k) := by
  unfold bodyRgate
  iterate 10 refine .bind fun _ => ?_
  exact .ok (by simp)

theorem stays_sendRow (c : Lcid) (batch : Nat) (dests : List Lcid) (ret : Nat) (w : BitVec 128) (l : List Byte) (poison : Bool)
    {s : State} (p : CoreCtx × State) (h : Stays s p.2) : Gives (fun p => Stays s p.2) (sendRow c batch dests ret w l poison p) :=
  .bind fun _ => .ok (h.trans (stays_startNet ..))

theorem stays_bodyRsend (c : Lcid) (o : Op) (s : State) (k : CoreCtx) : Gives (fun p => Stays s p.2) (bodyRsend c o s k) := by
  unfold bodyRsend
  iterate 5 refine .bind fun _ => ?_
  refine .bindOf (.foldlM (fun _ _ h => stays_sendRow _ _ _ _ _ _ _ _ h) (.refl s) _) fun p hp => ?_
  refine .bindOf (Q := fun p => Stays s p.2) (.ite (.foldlM (fun _ _ h => stays_sendRow _ _ _ _ _ _ _ _ h) hp _) (.ok hp)) fun q hq => ?_
  exact .ok (hq.trans (by simp))

theorem stays_bodyRret (c : Lcid) (o : Op) (s : State) (k : CoreCtx) : Gives (fun p => Stays s p.2) (bodyRret c o s k) := by
  unfold bodyRret
  iterate 6 refine .bind fun _ => ?_
  exact .bindOf (.foldlM (fun _ _ h => stays_sendRow _ _ _ _ _ _ _ _ h) (.refl s) _) fun p hp => .ok hp

theorem stays_bodyRexit (o : Op) (s : State) (k : CoreCtx) : Gives (fun p => Stays s p.2) (bodyRexit o s k) := by
  unfold bodyRexit
  iterate 4 refine .bind fun _ => ?_
  exact .ok (by simp)

theorem stays_runWalk (c : Lcid) (o : Op) (k : CoreCtx) (s : State) (cfg : ScoreCfg) (l : Layout) (p : WalkP) (g : Group) :
    Gives (fun p => Stays s p.2) (runWalk c o k s cfg l p g) := by
  unfold runWalk
  iterate 4 refine .bind fun _ => ?_
  exact .ite (.ok (stays_payPieces ..)) (.ok (((stays_payPieces ..).trans (stays_noteTables ..)).trans (stays_endWalk ..)))

theorem stays_bodySwalk (c : Lcid) (o : Op) (s : State) (k : CoreCtx) : Gives (fun p => Stays s p.2) (bodySwalk c o s k) := by
  unfold bodySwalk
  iterate 8 refine .bind fun _ => ?_
  split
  · exact .bind fun _ => .bind fun _ => stays_runWalk ..
  · exact .ok (stays_endWalk ..)

theorem stays_bodyCvec (c : Lcid) (o : Op) (s : State) (k : CoreCtx) : Gives (fun p => Stays s p.2) (bodyCvec c o s k) := by
  unfold bodyCvec
  iterate 5 refine .bind fun _ => ?_
  refine .ite (.ok (.refl s)) ?_
  iterate 3 refine .bind fun _ => ?_
  exact .ite (.ok ((stays_sliceTokens ..).trans (stays_putVec ..))) (.ok ((stays_sliceTokens ..).trans (stays_startCrumb ..)))

theorem stays_bodyCissue (c : Lcid) (o : Op) (s : State) (k : CoreCtx) : Gives (fun p => Stays s p.2) (bodyCissue c o s k) := by
  unfold bodyCissue
  iterate 6 refine .bind fun _ => ?_
  exact .ite (.ok (.refl s)) (.bind fun _ => .ite (.ok (.refl s)) (.ok (stays_startCrumb ..)))

theorem stays_bodyNput (c : Lcid) (o : Op) (s : State) (k : CoreCtx) : Gives (fun p => Stays s p.2) (bodyNput c o s k) := by
  unfold bodyNput
  iterate 8 refine .bind fun _ => ?_
  exact .ok (stays_launch ..)

theorem stays_bodyMcast (c : Lcid) (o : Op) (s : State) (k : CoreCtx) : Gives (fun p => Stays s p.2) (bodyMcast c o s k) := by
  unfold bodyMcast
  iterate 5 refine .bind fun _ => ?_
  split
  · exact .error
  · exact .bind fun _ => .bind fun _ => .bind fun _ => .ok (stays_launch ..)

theorem stays_bodyFold (c : Lcid) (o : Op) (s : State) (k : CoreCtx) : Gives (fun p => Stays s p.2) (bodyFold c o s k) := by
  unfold bodyFold
  refine .bind fun _ => ?_
  split
  · exact .error
  · refine .bind fun _ => .ite (.bind fun _ => .bind fun _ => .bind fun _ => ?_)
      (.bind fun _ => .bind fun _ => .bind fun _ => .bind fun _ => ?_) <;>
    · refine .bind fun _ => .bind fun _ => .ok ?_
      exact ((stays_setCore ..).trans (stays_sendFold ..)).trans (stays_modNet ..)

theorem stays_bodyStsend (c : Lcid) (o : Op) (s : State) (k : CoreCtx) : Gives (fun p => Stays s p.2) (bodyStsend c o s k) := by
  unfold bodyStsend
  iterate 8 refine .bind fun _ => ?_
  exact .ok (stays_launch ..)

theorem stays_bodyHalt (c : Lcid) (s : State) (k : CoreCtx) : Gives (fun p => Stays s p.2) (bodyHalt c s k) := by
  unfold bodyHalt
  exact .bind fun _ => .bind fun _ => .ok (.refl s)

theorem stays_bodyEndProgram (s : State) (c : Lcid) (j : CrumbJob) (v : CrumbUnit) :
    Gives (fun p => Stays s p.2.2) (bodyEndProgram s c j v) := .ok (stays_modJob ..)

theorem stays_bodyMv (u : UnitId) (o : CrumbOp) (s : State) (c : Lcid) (j : CrumbJob) (v : CrumbUnit) :
    Gives (fun p => Stays s p.2.2) (bodyMv u o s c j v) := by
  unfold bodyMv
  split
  · exact .error
  · refine .bind fun _ => .ok ?_
    refine stays_ite ?_ (Stays.trans ?_ (stays_setCore ..)) <;>
      exact stays_foldl (fun _ _ => stays_foldl (fun _ _ => stays_noteCrumbWord ..) _ _) _ _

theorem stays_bodyClra (o : CrumbOp) (s : State) (c : Lcid) (j : CrumbJob) (v : CrumbUnit) :
    Gives (fun p => Stays s p.2.2) (bodyClra o s c j v) := .bind fun _ => .ok (.refl s)

theorem stays_bodyRetv (u : UnitId) (o : CrumbOp) (s : State) (c : Lcid) (j : CrumbJob) (v : CrumbUnit) :
    Gives (fun p => Stays s p.2.2) (bodyRetv u o s c j v) := by
  unfold bodyRetv
  refine .bind fun _ => ?_
  dsimp only
  generalize hp : (if (v.reg o.qb).toNat = 0 then (s, true) else _) = p
  have paid : Stays s p.1 := by
    subst hp
    split
    · exact .refl s
    · exact stays_sliceTokens ..
  refine .ite .error (.ite (.ok ?_) (.ok ?_))
  · exact (paid.trans (stays_modJob ..)).trans (stays_setCore ..)
  · exact (paid.trans (stays_modJob ..)).trans (stays_startCrumb ..)

theorem stays_stageLines64 {u : UnitId} {order : List Nat} {off : Nat} {l : List (Byte × Bool)} {s t : State}
    (h : stageLines64 u order off l s = some t) : Stays s t := by
  refine List.foldlRecOn (motive := fun a => ∀ t, a = some t → Stays s t) _ _ ?_ (fun a ha i _ t ht => ?_) t h
  · rintro _ ⟨⟩
    exact .refl s
  · obtain ⟨v, hv, ht⟩ := Option.bind_eq_some_iff.1 ht
    exact (ha v hv).trans (stays_stageLine ht)

theorem stays_bodyStv (u : UnitId) (o : CrumbOp) (s : State) (c : Lcid) (j : CrumbJob) (v : CrumbUnit) :
    Gives (fun p => Stays s p.2.2) (bodyStv u o s c j v) := by
  unfold bodyStv
  refine .bind fun _ => ?_
  split
  · exact .error
  · rename_i t h
    exact .ok (stays_stageLines64 h)

theorem stays_bodyCrumbLoop (o : CrumbOp) (s : State) (c : Lcid) (j : CrumbJob) (v : CrumbUnit) :
    Gives (fun p => Stays s p.2.2) (bodyCrumbLoop o s c j v) :=
  .bind fun _ => .ite (.ok (.refl s)) (.ok (.refl s))

theorem stays_shadowPage {p : NewPage} {s t : State} (h : shadowPage p s = some t) : Stays s t := by
  obtain ⟨u, hu, rfl⟩ := Option.map_eq_some_iff.1 h
  exact (stays_copyLeaf hu).trans (.refl _)

theorem stays_pageFor (c : Lcid) (l : Layout) (slot grp : Nat) (g : Group) (t : Nat) (s : State) :
    Stays s (pageFor c l slot grp g t s).2.1 := by
  unfold pageFor
  extract_lets n take
  have taken (split : Option Nat) : Stays s (take split).2 := by
    unfold take
    split
    · exact .refl s
    · split
      · exact .refl s
      · rename_i h
        exact (stays_shadowPage h).trans (.refl _)
  split
  · exact .refl s
  · split
    · exact (taken none)
    · split
      · exact (taken none)
      · split
        · exact .refl s
        · split
          · split
            · rename_i h
              exact (stays_shadowPage h)
            · exact .refl s
          · rename_i e _ _ _ _
            have shared := taken (some e.pfn)
            split
            · rename_i h
              rw [h] at shared
              exact (shared.trans (stays_copyPage ..)).trans (stays_inc ..)
            · rename_i h
              rw [h] at shared
              exact shared

theorem stays_stageAppend {c : Lcid} {order pfn : Nat} {bytes : List (Nat × Byte × Bool)} {s t : State}
    (h : stageAppend c order pfn bytes s = some t) : Stays s t := by
  refine List.foldlRecOn (motive := fun a => ∀ t, a = some t → Stays s t) _ _ ?_ (fun a ha i _ t ht => ?_) t h
  · rintro _ ⟨⟩
    exact .refl s
  · cases a with
    | none => cases ht
    | some v => exact (ha v rfl).trans (stays_stageLine ht)

theorem stays_appendToken (c : Lcid) (k : CoreCtx) (l : Layout) (g : Group) (slot grp head src count order base : Nat) (a : AppAcc)
    (i : Nat) : Stays a.st (appendToken c k l g slot grp head src count order base a i).st := by
  have page := stays_pageFor c l slot grp g (base + i) a.st
  unfold appendToken
  split
  · exact .refl _
  · dsimp only
    split
    · exact .refl _
    · split <;> rename_i h <;> rw [h] at page
      · exact page.trans (by simp)
      · exact page
      · split
        · exact .refl _
        · rename_i h
          exact page.trans (stays_stageAppend h)

theorem stays_bodySappend (c : Lcid) (o : Op) (s : State) (k : CoreCtx) : Gives (fun p => Stays s p.2) (bodySappend c o s k) := by
  unfold bodySappend
  iterate 7 refine .bind fun _ => ?_
  extract_lets finish
  have finished (k st n splits bad t) : (finish k st n splits bad t).2 = t := rfl
  split
  · exact .ok (.refl s)
  · refine .bind fun _ => .bind fun _ => .ite (.ok (.refl s)) ?_
    extract_lets base run r due
    have ran (t : State) : Stays t (run t).st :=
      stays_foldlBy AppAcc.st (fun a i => stays_appendToken ..) { st := t, placed := [], copies := [], status := .ok, full := false }
        _
    have paid := (stays_payPieces c (due.drop k.paid) k.paid s)
    refine .bind fun _ => .ite (.ok paid) (.ok ?_)
    dsimp only
    rw [finished]
    exact (paid.trans (ran _)).trans (by simp)

/-! ### What a command gives -/

/-- The next state a command gives, where it gives one, has taken back nothing. -/
structure Guarded (s : State) (r : Out) : Prop where
  of : ∀ t, r = .next t → Floor s t

namespace Guarded

variable {s t : State} {a b : Out}

theorem next (h : Floor s t) : Guarded s (.next t) := ⟨fun _ hu => Host.Outcome.next.inj hu ▸ h⟩

/-- A next state with the queue, the fuses and MRAM of the state before. -/
theorem same (h : Stays s t) : Guarded s (.next t) := next h.floor

theorem skip (s : State) : Guarded s (skip s) := same (.refl s)

/-- A command that waits, or takes place. -/
theorem whenFloor {p : Bool} (h : Floor s t) : Guarded s (Machine.when p s t) := by
  cases p
  · exact skip s
  · exact next h

theorem when {p : Bool} (h : Stays s t) : Guarded s (Machine.when p s t) := whenFloor h.floor

theorem ite {p : Prop} [Decidable p] (ha : Guarded s a) (hb : Guarded s b) : Guarded s (if p then a else b) := by
  split
  · exact ha
  · exact hb

theorem unit {p : Bool} (h : Guarded s a) : Guarded s (unit p a) := ⟨fun u hu => h.of u (unit_next hu).2⟩

/-- A tile instruction: its completion and the fault of its core leave the queue, the fuses and MRAM. -/
theorem issue {c : Lcid} {op : BitVec 8} {h : Shape} {o : Op} {body : CoreCtx → Tr (CoreCtx × State)}
    (hb : ∀ k, Gives (fun p => Stays s p.2) (body k)) : Guarded s (issue c op h o s body) := by
  refine ⟨fun t ht => ?_⟩
  obtain rfl | ⟨k, u, hu, rfl⟩ | ⟨cause, rfl⟩ := issue_next ht
  · exact .refl _
  · exact (((hb _).of _ hu).trans (stays_endInstr ..)).floor
  · exact (stays_coreFault ..).floor

theorem issueK {c : Lcid} {op : BitVec 8} {h : Shape} {o : Op} {body : CoreCtx → Tr CoreCtx} : Guarded s (issueK c op h o s body) :=
  issue fun _ => .bind fun _ => .ok (.refl s)

theorem crumbRun {u : UnitId} {op : BitVec 6} {d a b : Bool} {imms : BitVec 17} {o : CrumbOp}
    {body : Lcid → CrumbJob → CrumbUnit → Except CStop (CrumbUnit × Nat × State)}
    (hb : ∀ c j v, Gives (fun p => Stays s p.2.2) (body c j v)) : Guarded s (crumbRun u op d a b imms o s body) := by
  refine ⟨fun t ht => Stays.floor ?_⟩
  obtain rfl | ⟨c, j, -, rfl | rfl | rfl | ⟨v, n, w, hbody, rfl⟩⟩ := crumbRun_next ht
  · exact .refl _
  · simp
  · simp
  · simp
  · refine ((hb c j _).of _ hbody).trans ?_
    split <;> simp

theorem crumbUnitOp {u : UnitId} {op : BitVec 6} {d a b : Bool} {imms : BitVec 17} {o : CrumbOp} {f : CrumbUnit → Except CStop CrumbUnit} :
    Guarded s (crumbUnitOp u op d a b imms o s f) :=
  crumbRun fun _ _ _ => .bind fun _ => .ok (.refl s)

theorem arrive {kind : BitVec 4} {f : NetFlit} {bad : List Nat} {k : State → State} (hk : ∀ t, Stays t (k t)) :
    Guarded s (arrive kind f bad s k) := by
  refine ⟨fun t ht => Stays.floor ?_⟩
  obtain rfl | ⟨u, rfl, rfl | ⟨r, rfl⟩ | ⟨v, rfl | rfl, rfl | rfl⟩⟩ := arrive_next ht
  · exact .refl _
  all_goals simp [(hk _).1, (hk _).2]

theorem arriveFrame {kind : BitVec 4} {f : NetFrame} {bad : Nat} {k : State → State} (hk : ∀ t, Stays t (k t)) :
    Guarded s (arriveFrame kind f bad s k) := by
  refine ⟨fun t ht => Stays.floor ?_⟩
  obtain rfl | rfl | rfl | rfl | rfl := arriveFrame_next ht
  · exact .refl _
  all_goals simp [(hk _).1, (hk _).2]

theorem takePacket {kind port : Nat} {p : Packet} {bad : Nat} {stale k : State → State} (hs : ∀ t, Stays t (stale t))
    (hk : ∀ t, Stays t (k t)) : Guarded s (takePacket kind port p bad stale k s) := by
  have hacts : ∀ t, Stays t (if p.destDev.toNat % 512 ≠ s.cfg.devAddr.toNat then forward kind p t
      else if (tagAge s.seqr.count p.tag).isNone then stale t else k t) :=
    fun t => stays_ite (stays_forward ..) (stays_ite (hs t) (hk t))
  refine unit (ite (ite (same ?_) (same (Stays.trans ?_ (hacts _)))) (skip s)) <;> simp

/-- A mailbox command whose answer to a refusal leaves the queue, the fuses and MRAM. -/
theorem cmdElse {op len : Nat} {a : State → Auth} {m : Msg} {c : State → Check} {miss : State → Status × Nat → State → State}
    {run : State → State} (hmiss : ∀ u v t, Stays t (miss u v t)) (hrun : ∀ t, Stays t (run t)) :
    Guarded s (serveCmd (Machine.cmdElse op len a m c miss run) s) := by
  refine unit (ite ?_ (skip s))
  split
  · exact same (Stays.trans (by simp [Cmd.served]) (hmiss ..))
  · exact same (Stays.trans (by simp [Cmd.served]) (hrun _))

theorem cmd {op len : Nat} {a : State → Auth} {m : Msg} {c : State → Check} {run : State → State} (hrun : ∀ t, Stays t (run t)) :
    Guarded s (serveCmd (Machine.cmd op len a m c run) s) :=
  cmdElse (fun _ _ t => .refl t) hrun

end Guarded

/-! ### Commands with branches of their own -/

theorem guarded_tickInEdge (dt high : Nat) (e : BoundaryEnv) (s : State) : Guarded s (execTickInEdge dt high e s) :=
  .ite (.ite (.same (by simp)) (.ite (.next (floor_takeBoundary _ _ _ (by simp))) (.skip s))) (.skip s)

theorem guarded_flywheelBoundary (e : BoundaryEnv) (s : State) : Guarded s (execFlywheelBoundary e s) :=
  .ite (.ite (.next (floor_takeBoundary _ _ _ (by simp))) (.next (floor_takeBoundary _ _ _ (by simp)))) (.skip s)

theorem guarded_sensorSample (r : List SensorTriple) (s : State) : Guarded s (execSensorSample r s) := by
  refine .ite (.next ?_) (.skip s)
  dsimp only
  generalize hu : ite (s.boot.readyIndex.isSome = true) _ _ = u
  have sampled : Stays s u := hu ▸ by simp
  have tripped : Floor u (if (u.tooHot && s.ticking) = true then enterRack 0 u else u) := floor_ite (floor_enterRack 0 u) (.refl u)
  exact (sampled.floor.trans tripped).trans (Stays.floor (by simp))

theorem guarded_firmwareHandover (ok : Bool) (s : State) : Guarded s (execFirmwareHandover ok s) := by
  unfold execFirmwareHandover
  split
  · refine .ite (.skip s) (.ite (.same ?_) (.same ?_)) <;> simp
  · exact .skip s

/-- The field-fault log in MRAM is not looked at. -/
theorem floor_copiedLog (l k : List FaultRec) (s : State) : Floor s { s with staging := k, mram := { s.mram with log := l } } :=
  ⟨rfl, rfl, rfl, id, le_rfl, le_rfl, le_rfl, id⟩

theorem guarded_stageP0 (ok : Bool) (s : State) : Guarded s (execStageP0 ok s) := by
  refine .ite (.next ?_) (.skip s)
  dsimp only
  split <;> simp [Floor]

theorem guarded_stageP2 (r : P2Result) (s : State) : Guarded s (execStageP2 r s) := by
  refine .ite (.ite (.same (by simp)) (.next ?_)) (.skip s)
  dsimp only
  generalize hu : readIndex r.badCopies _ = u
  have read : Floor s u := hu ▸ Floor.trans (Floor.refl s) (floor_readIndex ..)
  exact read.trans (Stays.floor (by simp))

theorem guarded_stageP4 (scope : Nat) (r : P4Result) (s : State) : Guarded s (execStageP4 scope r s) :=
  .unit (.ite (.ite (.same (by simp)) (.next ((floor_p4Stack scope r s).trans (Stays.floor (by simp))))) (.skip s))

theorem guarded_stageP6 (scope : Nat) (s : State) : Guarded s (execStageP6 scope s) :=
  .unit (.ite (.skip s) (.ite (.whenFloor (floor_p6Device s)) (.ite (.same (by simp)) (.skip s))))

theorem guarded_stageTimeout (scope : Nat) (s : State) : Guarded s (execStageTimeout scope s) := by
  refine .unit (.ite (.skip s) (.ite ?_ ?_))
  · refine .ite (.same (by simp)) (.ite (.ite (.skip s) (.same ?_)) (.ite (.same (by simp)) (.skip s)))
    simp
  · exact .ite (.same (by simp)) (.skip s)

theorem guarded_bar2Write (off : Nat) (data : List Byte) (poisoned : Bool) (s : State) : Guarded s (execBar2Write off data poisoned s) := by
  refine .ite (.skip s) ?_
  dsimp only
  split <;> exact .same (by simp)

@[simp] theorem stays_coldState (s : State) : Stays s (coldState s) := ⟨rfl, rfl, rfl⟩

theorem guarded_hearthWatchdogExpiry (s : State) : Guarded s (execHearthWatchdogExpiry s) :=
  .ite (.skip s) (.ite (.same (by simp [hearthFailsInStart])) (.same (by simp)))

theorem guarded_supplyFault (rail : Rail) (s : State) : Guarded s (execSupplyFault rail s) := by
  refine .ite (.skip s) ?_
  cases rail with
  | vcore => exact .next (floor_ite (Stays.floor (by simp)) (Floor.trans (Stays.floor (by simp)) (floor_enterRack ..)))
  | vaon | vio18 | vser | vserh => exact .same (by simp)
  | vlas | vtransit | vdram | vpp | viod | vpho => exact .when (by simp)

theorem guarded_referenceClockLoss (clk : RefClock) (s : State) : Guarded s (execReferenceClockLoss clk s) := by
  refine .ite (.skip s) ?_
  cases clk with
  | sysclk | pcie | tlink => exact .same (by simp)

theorem guarded_coreCompletionReport (c : Lcid) (s : State) : Guarded s (execCoreCompletionReport c s) := by
  refine .unit (.ite ?_ (.skip s))
  split
  · exact .same (by simp)
  · exact .ite (.same (by simp)) (.same (by simp))

theorem guarded_spareShift (patrolFail : Option Nat) (s : State) : Guarded s (execSpareShift patrolFail s) := by
  unfold execSpareShift
  split
  · exact .skip s
  · refine .ite (.skip s) ?_
    cases patrolFail with
    | none => exact .same (by simp)
    | some col => exact .same (by simp)

theorem guarded_halt (c : Lcid) (o : Op) (s : State) : Guarded s (execHalt c o s) := by
  unfold execHalt
  split
  · exact .unit (.when (by simp))
  · exact .issue fun _ => stays_bodyHalt ..

theorem guarded_fenceCrumb (c : Lcid) (o : Op) (s : State) : Guarded s (execFenceCrumb c o s) := by
  unfold execFenceCrumb
  split
  · exact .unit (.when (by simp))
  · exact .issueK

theorem guarded_sliceTransferDone (c : Lcid) (s : State) : Guarded s (execSliceTransferDone c s) := by
  refine .unit ?_
  split
  · exact .skip s
  · exact .when (by simp)

theorem guarded_crumbProgramStart (u : UnitId) (s : State) : Guarded s (execCrumbProgramStart u s) := by
  refine .unit ?_
  split
  · exact .skip s
  · exact .ite (.skip s) (.ite (.same (by simp)) (.same (by simp)))

theorem guarded_mcastAbandon (c : Lcid) (n : Nat) (s : State) : Guarded s (execMcastAbandon c n s) := by
  refine .unit ?_
  split
  · exact .skip s
  · refine .ite (.skip s) ?_
    dsimp only
    split
    · exact .same (by simp)
    · exact .same (by simp)

theorem guarded_networkTransferDone (c : Lcid) (n : Nat) (s : State) : Guarded s (execNetworkTransferDone c n s) := by
  refine .unit ?_
  split
  · exact .skip s
  · exact .when (by simp)

theorem guarded_windowComplete (c : Lcid) (xfer : Nat) (s : State) : Guarded s (execWindowComplete c xfer s) := by
  refine .unit ?_
  split
  · exact .skip s
  · exact .ite (.skip s) (.ite (.same (by simp)) (.when (by simp)))

theorem guarded_tlinkStale (n : Nat) (s : State) : Guarded s (execTlinkStale n s) := by
  refine .unit ?_
  split
  · exact .skip s
  · split
    · exact .skip s
    · exact .same (by simp)

theorem guarded_journalWrite (s : State) : Guarded s (execJournalWrite s) := by
  unfold execJournalWrite
  split
  · exact .skip s
  · exact .same (by simp)

theorem guarded_rewriteReread (word : Nat) (again : Bool) (s : State) : Guarded s (execRewriteReread word again s) := by
  unfold execRewriteReread
  split
  · exact .skip s
  · exact .same (by simp)

theorem guarded_quoteSigned (s : State) : Guarded s (execQuoteSigned s) := by
  unfold execQuoteSigned
  split
  · exact .skip s
  · split
    · exact .skip s
    · rename_i q rest _ _ m _
      have signed : Floor s (if q.bufLen < m.length + 9893 then (List.replicate 9893 (0 : Byte), s.canSign, { s with quotes := rest })
          else sign m { s with quotes := rest }).2.2 := by
        split
        · exact .refl s
        · exact floor_sign m { s with quotes := rest }
      exact .ite (.skip s) (.next (signed.trans ((stays_devInc ..).trans (stays_respond ..)).floor))

theorem guarded_debugLevelLapse (n : Nat) (s : State) : Guarded s (execDebugLevelLapse n s) := by
  unfold execDebugLevelLapse
  split
  · exact .skip s
  · exact .when (by simp)

theorem guarded_nonceExpiry (fn : Nat) (s : State) : Guarded s (execNonceExpiry fn s) := by
  refine .unit ?_
  split
  · exact .skip s
  · exact .when (by simp)

theorem guarded_fwStagingExpiry (s : State) : Guarded s (execFwStagingExpiry s) := by
  unfold execFwStagingExpiry
  split
  · exact .skip s
  · exact .when (by simp)

theorem guarded_powerStateEntry (s : State) : Guarded s (execPowerStateEntry s) := by
  unfold execPowerStateEntry
  split
  · exact .skip s
  · exact .when (by simp)

theorem guarded_bar2Read (off len : Nat) (s : State) : Guarded s (execBar2Read off len s) := by
  refine .ite (.skip s) ?_
  dsimp only
  split <;> exact .same (by simp)

theorem guarded_counterClear (off : Nat) (v : BitVec 32) (s : State) : Guarded s (execCounterClear off v s) := by
  unfold execCounterClear
  split
  · split
    · exact .when (by simp)
    · exact .skip s
  · exact .skip s

theorem guarded_thermalConfigWrite (off : Nat) (v : BitVec 32) (s : State) : Guarded s (execThermalConfigWrite off v s) := by
  unfold execThermalConfigWrite
  split
  · exact .when (by simp)
  · exact .skip s

theorem guarded_dbgAccess (a : BitVec 32) (w : Option (BitVec 32)) (s : State) : Guarded s (execDbgAccess a w s) := by
  refine .ite (.skip s) (.ite (.same (by simp)) (.ite (.same (by simp)) ?_))
  cases w with
  | none => exact .same (by simp)
  | some v => exact .same (by simp)

theorem guarded_flitMcast (f : NetFlit) (bad : List Nat) (full : Bool) (s : State) : Guarded s (execFlitMcast f bad full s) := by
  refine .arrive (stays_deliver (fun m t => stays_ite (by simp) ?_) f)
  dsimp only
  split
  · exact .refl t
  · simp

theorem guarded_flitRoute (f : NetFlit) (bad : List Nat) (s : State) : Guarded s (execFlitRoute f bad s) :=
  .arrive (stays_deliver (fun m t => by simp) f)

theorem guarded_flitCrumb (f : NetFlit) (bad : List Nat) (s : State) : Guarded s (execFlitCrumb f bad s) := by
  refine .arrive fun t => ?_
  dsimp only
  split
  · exact .refl t
  · simp

theorem guarded_flitCredit (f : NetFlit) (bad : List Nat) (s : State) : Guarded s (execFlitCredit f bad s) := by
  refine .arrive fun t => ?_
  dsimp only
  split
  · exact .refl t
  · split
    · exact (stays_sendFold ..).trans (stays_modNet ..)
    · exact stays_ite (.refl t) (stays_tryNode ..)

theorem guarded_flitCtrl (f : NetFlit) (bad : List Nat) (s : State) : Guarded s (execFlitCtrl f bad s) := by
  refine .arrive fun t => stays_ite (stays_flushStack ..) (stays_orLeave (fun u => ?_) f t)
  split
  · exact stays_abandonWin ..
  · exact .refl u

/-! ### All commands -/

/-- No command takes anything back. -/
theorem exec_guarded (i : Instr) (s : State) : Guarded s (exec i s) := by
  unfold exec
  cases i with
  | br _ _ => exact .issue fun _ => stays_bodyBr ..
  | call _ _ => exact .issue fun _ => stays_bodyCall ..
  | ret _ _ => exact .issue fun _ => stays_bodyRet ..
  | loop _ _ => exact .issue fun _ => stays_bodyLoop ..
  | tload _ _ => exact .issue fun _ => stays_bodyTload ..
  | tstore _ _ => exact .issue fun _ => stays_bodyTstore ..
  | sld _ _ => exact .issue fun _ => stays_bodySld ..
  | tin _ _ => exact .issue fun _ => stays_bodyTin ..
  | rgate _ _ => exact .issue fun _ => stays_bodyRgate ..
  | rsend _ _ => exact .issue fun _ => stays_bodyRsend ..
  | rret _ _ => exact .issue fun _ => stays_bodyRret ..
  | rexit _ _ => exact .issue fun _ => stays_bodyRexit ..
  | swalk _ _ => exact .issue fun _ => stays_bodySwalk ..
  | sappend _ _ => exact .issue fun _ => stays_bodySappend ..
  | cvec _ _ => exact .issue fun _ => stays_bodyCvec ..
  | cissue _ _ => exact .issue fun _ => stays_bodyCissue ..
  | nput _ _ => exact .issue fun _ => stays_bodyNput ..
  | mcast _ _ => exact .issue fun _ => stays_bodyMcast ..
  | fold _ _ => exact .issue fun _ => stays_bodyFold ..
  | stsend _ _ => exact .issue fun _ => stays_bodyStsend ..
  | nop _ _ | add _ _ | sub _ _ | mul _ _ | and _ _ | or _ _ | xor _ _ | shl _ _ | shr _ _ | sra _ _ | cmp _ _ | li _ _ | ld _ _
  | st _ _ | rdcsr _ _ | wrcsr _ _ | dset _ _ | dmod _ _ | tcopy _ _ | tzero _ _ | aload _ _ | astore _ _ | azero _ _ | mma _ _
  | aadd _ _ | amov _ _ | ascale _ _ | vadd _ _ | vsub _ _ | vmul _ _ | vfma _ _ | vmax _ _ | vmin _ _ | vscale _ _ | vadds _ _
  | vfunc _ _ | vrsum _ _ | vrmax _ _ | vbadd _ _ | vbmul _ _ | vcmul _ _ | tcount _ _ | rcfg _ _ | rrecv _ _ | rcomb _ _
  | rcompact _ _ | rstat _ _ | scfg _ _ | smerge _ _ | snorm _ _ | slen _ _ | sstat _ _ | cstat _ _ | nwait _ _ | nsync _ _ | nstat _ _
    => exact .issueK
  | endProgram _ _ => exact .crumbRun fun _ _ _ => stays_bodyEndProgram ..
  | mv _ _ => exact .crumbRun fun _ _ _ => stays_bodyMv ..
  | clra _ _ => exact .crumbRun fun _ _ _ => stays_bodyClra ..
  | retv _ _ => exact .crumbRun fun _ _ _ => stays_bodyRetv ..
  | stv _ _ => exact .crumbRun fun _ _ _ => stays_bodyStv ..
  | crumbLoop _ _ => exact .crumbRun fun _ _ _ => stays_bodyCrumbLoop ..
  | ldi _ _ | addi _ _ | crumbAdd _ _ | crumbSub _ _ | fmt _ _ => exact .crumbUnitOp
  | flitReadReq _ _ => exact .arrive (stays_orLeave (by simp) _)
  | flitReadData _ _ => exact .arrive (stays_orLeave (by simp) _)
  | flitWrite _ _ => exact .arrive (stays_orLeave (by simp) _)
  | flitPut _ _ => exact .arrive (stays_deliver (by simp) _)
  | flitMcast _ _ _ => exact guarded_flitMcast ..
  | flitFold _ _ => exact .arrive (by simp)
  | flitRoute _ _ => exact guarded_flitRoute ..
  | flitCrumb _ _ => exact guarded_flitCrumb ..
  | flitNack _ _ => exact .arrive (stays_orLeave (by simp) _)
  | flitComplete _ _ => exact .arrive (stays_orLeave (by simp) _)
  | flitCredit _ _ => exact guarded_flitCredit ..
  | flitCtrl _ _ => exact guarded_flitCtrl ..
  | frameDescriptor _ _ | frameData _ _ | frameComplete _ _ | frameCredit _ _ | frameReplayReq _ _ => exact .arriveFrame fun t => by simp
  | tlinkInput _ _ _ | tlinkAck _ _ _ | tlinkHold _ _ _ | tlinkRelease _ _ _ | tlinkMgmt _ _ _ => exact .takePacket (by simp) (by simp)
  | fwLoad _ => exact .cmdElse (fun _ _ t => by simp) fun t => (stays_complete ..).trans (stays_passP7 ..)
  | secSessionOpen _ | fwReplace _ => exact .cmdElse (fun _ _ t => by simp) fun t => by simp
  | seqOpen _ | seqClose _ | seqHold _ | seqRelease _ | seqIngest _ | seqRead _ | planLoad _ | planUnload _ | planAdmit _
  | planSuspend _ | planResume _ | planRead _ | tickSetPeriod _ | tickSetSource _ | tickRead _ | tickCntClear _ | tickWrapEn _
  | memRead _ | memWrite _ | memFence _ | memConfig _ | memWindowSet _ | kvLayoutSet _ | kvPoolCreate _ | kvPoolDestroy _ | kvFork _
  | kvTruncate _ | kvRetirePages _ | kvMap _ | kvUnmap _ | kvRead _ | kvRetireFrame _ | kvRepage _ | kvRehome _ | kvRestore _
  | kvDigest _ | evdCapture _ | evdSeal _ | evdRead _ | evdLinks _ | evdJournalRead _ | evdAck _ | evdStatus _ | evdReplayBegin _
  | evdReplayTick _ | evdReplayEnd _ | netRead _ | netCntClear _ | linkSetAddr _ | linkRetrain _ | linkRejoin _ | linkGlobalWaves _
  | linkRead _ | thermRead _ | thermTelemetryRead _ | thermCalibrate _ | thermFlowMin _ | thermWarmup _ | pwrState _ | pwrGate _
  | pwrUngate _ | pwrClockHalf _ | pwrStackOff _ | pwrStackOn _ | pwrRead _ | faultLogRead _ | faultMapRead _ | faultRetire _
  | faultScrub _ | faultInject _ | faultDramFuse _ | secSessionClose _ | secSessionAdopt _ | secSessionRead _
  | secFunctionLimit _ | secMailboxAssign _ | secExpertOpen _ | secExpertClose _ | secNonce _ | secQuote _ | secCertRead _
  | secProvision _ | secCertInstall _ | secDeploy _ | secReturn _ | secSvnCommit _ | dbgRead _ | dbgWrite _ | dbgScan _ | dbgTapOpen _
  | dbgClose _ | fwActivate _ | fwStatus _ | capRead _ | capEventRead _ | capStatus _ | quotaSliceSet _
  | quotaStreamSet _ | quotaCrumbSet _ | quotaRead _ => exact .cmd fun t => by simp
  | samplePreload | extest | extestPulse | extestTrain => exact .ite (.skip s) (.ite (.same (by simp)) (.same (by simp)))
  | internalBoundary _ => exact .whenFloor (floor_takeBoundary _ _ _ (.refl s))
  | tickInEdge _ _ _ => exact guarded_tickInEdge ..
  | flywheelBoundary _ => exact guarded_flywheelBoundary ..
  | sensorSample _ => exact guarded_sensorSample ..
  | firmwareHandover _ => exact guarded_firmwareHandover ..
  | stageP4 _ _ => exact guarded_stageP4 ..
  | stageP6 _ => exact guarded_stageP6 ..
  | stageTimeout _ => exact guarded_stageTimeout ..
  | bar2Write _ _ _ => exact guarded_bar2Write ..
  | perstNAssert => exact .same (by simp)
  | perstNRelease _ => exact .ite (.skip s) (.same (by simp))
  | faultLogCopy => exact .whenFloor (floor_copiedLog ..)
  | scrubPositionSave | faultMapWrite => exact .whenFloor (by simp [Floor])
  | sealSignatureDone => exact .whenFloor (floor_signSeal s)
  | stageP0 _ => exact guarded_stageP0 ..
  | stageP2 _ => exact guarded_stageP2 ..
  | hearthWatchdogExpiry => exact guarded_hearthWatchdogExpiry ..
  | supplyFault _ => exact guarded_supplyFault ..
  | throttleCapRaise | configRequest | tapReset _ => exact .same (by simp)
  | tickSourceLost | coolantReportLost | coolingDegraded | coolingDegradedStep | coolingRestored
  | scrubPauseExpiry | zeroingDone
  | vcoreRestore | periodNsWrite _ | sourceWrite _ | wrapEnWrite _ | globalStepsWrite _ | budgetWrite _
  | globalWavesWrite _ | bar2BaseWrite _ | maxRecoveryNsRead | sidebandWake | i3cDynamicAddress _ | idcode | bypass
  | serialSupplyReturn | referenceClockReturn _ => exact .when (by simp)
  | faultReport _ | functionLevelReset _ | tlinkPortDown _ | refresh _ | dramRetrain _ | crumbGrant _ => exact .unit (.same (by simp))
  | bundleFrameTimeout _ | ioDieFrameTimeout _ | stackReset _ | tlinkLinkUp _ _ | refreshBandFall _
  | sensorSplitClear _ | quadrantReady _ | p4ColdWaitTimeout _ | p5ColdTimeout _
  | mailboxGo _ _ | evTailWrite _ _ | rateWrite _ _ _ | stackResetRelease _ _ | stackClockRegained _ _
    => exact .unit (.when (by simp))
  | stageP1 _ => exact .ite (.ite (.same (by simp)) (.ite (.same (by simp)) (.same (by simp)))) (.skip s)
  | rackRestart => exact .ite (.ite (.same (by simp)) (.same (by simp))) (.skip s)
  | attemptAbandon | suddenStopClear | stageP8 _ | stageP9 => exact .ite (.same (by simp)) (.skip s)
  | registerWrite _ _ _ => exact .ite (.when (by simp)) (.when (by simp))
  | laserLoss => exact .ite (.same (by simp)) (.ite (.skip s) (.same (by simp)))
  | suddenStop _ | stageP3 _ | sidebandReport _ _ => exact .ite (.skip s) (.ite (.same (by simp)) (.same (by simp)))
  | stageP7 => exact .ite (.ite (.ite (.skip s) (.same (by simp))) (.same (by simp))) (.skip s)
  | collectionReport _ | frameIdle _ _ | stageP5 _ _ => exact .unit (.ite (.same (by simp)) (.skip s))
  | laneSwap _ => exact .unit (.ite (.when (by simp)) (.when (by simp)))
  | laneMarginSample _ _ _ => exact .unit (.ite (.ite (.same (by simp)) (.when (by simp))) (.skip s))
  | patrolScrub _ _ => exact .unit (.ite (.skip s) (.ite (.same (by simp)) (.ite (.same (by simp)) (.same (by simp)))))
  | coreCompletionReport _ => exact guarded_coreCompletionReport ..
  | spareShift _ => exact guarded_spareShift ..
  | halt _ _ => exact guarded_halt ..
  | sliceTransferDone _ => exact guarded_sliceTransferDone ..
  | crumbProgramStart _ => exact guarded_crumbProgramStart ..
  | fenceCrumb _ _ => exact guarded_fenceCrumb ..
  | mcastAbandon _ _ => exact guarded_mcastAbandon ..
  | networkTransferDone _ _ => exact guarded_networkTransferDone ..
  | windowComplete _ _ => exact guarded_windowComplete ..
  | tlinkStale _ => exact guarded_tlinkStale ..
  | journalWrite => exact guarded_journalWrite ..
  | rewriteReread _ _ => exact guarded_rewriteReread ..
  | quoteSigned => exact guarded_quoteSigned ..
  | debugLevelLapse _ => exact guarded_debugLevelLapse ..
  | nonceExpiry _ => exact guarded_nonceExpiry ..
  | fwStagingExpiry => exact guarded_fwStagingExpiry ..
  | powerStateEntry => exact guarded_powerStateEntry ..
  | referenceClockLoss _ => exact guarded_referenceClockLoss ..
  | bar2Read _ _ => exact guarded_bar2Read ..
  | counterClear _ _ => exact guarded_counterClear ..
  | thermalConfigWrite _ _ => exact guarded_thermalConfigWrite ..
  | dbgAccess _ _ => exact guarded_dbgAccess ..

end Sys2Proof.Machine

namespace Sys2Proof.Claims

open Sys2Proof Sys2Proof.Machine

/-! ## The obligations of chapter 15 on every command -/

/-- Settles O5: each command is put together from operations that take nothing back. -/
theorem nothingUndoesTheFloor : Obligations.NothingUndoesTheFloor := by
  unfold Obligations.NothingUndoesTheFloor
  exact fun i s => (exec_guarded i s).of

end Sys2Proof.Claims
end

section
/-! ## SUPPORT and obligations of chapter 14: the queue, mailboxes and the commands that read -/

namespace Sys2Proof.Machine

open Sys2Proof

/-! ### Mailboxes (R374, R375) -/

section

variable {n mb o : Nat} {v : BitVec 32} {s : State}

/-- A mailbox register is written once the mailboxes are there. -/
theorem execMailboxGo_up (hv : validMailbox mb = true) (hu : s.boxesUp = true) : execMailboxGo mb v s = .next (writeGo mb v s) :=
  (unit_of hv).trans (when_of hu)

theorem execEvTailWrite_up (hv : validMailbox mb = true) (hu : s.boxesUp = true) : execEvTailWrite mb v s = .next (writeTail mb v s) :=
  (unit_of hv).trans (when_of hu)

/-- GO on a busy mailbox only marks the overrun. -/
theorem writeGo_busy (hg : v.getLsbD 0 = true) (hb : (s.mbAt n).busy = true) :
    writeGo n v s = s.setMb n { s.mbAt n with eventIrq := v.getLsbD 9, doneIrq := v.getLsbD 8, overrun := true } := by
  simp [writeGo, hg, hb]

/-- GO on a free mailbox makes it busy, and a message of unknown opcode is answered at once. -/
theorem writeGo_free (hg : v.getLsbD 0 = true) (hb : (s.mbAt n).busy = false) :
    writeGo n v s = answerUnknown (s.setMb n
      { s.mbAt n with eventIrq := v.getLsbD 9, doneIrq := v.getLsbD 8, busy := true, served := false }) := by
  simp [writeGo, hg, hb]

/-- EV_TAIL may always catch up with EV_HEAD. -/
theorem writeTail_head (h : v.toNat = (s.mbAt n).evHead.toNat) : writeTail n v s = s.setMb n { s.mbAt n with evTail := v } := by
  have hd : (v - (s.mbAt n).evHead).toNat = 0 := by rw [BitVec.eq_of_toNat_eq h, BitVec.sub_self]; rfl
  exact if_neg (by omega)

/-- The message area of a busy mailbox takes no write. -/
theorem writeBox_busy {size : Nat} {w : BitVec 64} (h40 : 0x40 ≤ o) (h : o < 0x1000) (hb : (s.mbAt n).busy = true) :
    writeBox n o size w s = s :=
  (if_neg (Nat.not_lt.2 h40)).trans ((if_pos h).trans (if_pos hb))

/-- A register write in the range of a mailbox reaches that mailbox. -/
theorem execRegisterWrite_box {size : Nat} {w : BitVec 64} (hm : mb < 256) (ho : o < 0x4000) (hu : s.boxesUp = true) :
    execRegisterWrite (0x400000 + 0x4000 * mb + o) size w s = .next (writeBox mb o size w s) := by
  have hbox : (0x400000 + 0x4000 * mb + o - 0x400000) / 0x4000 = mb := by omega
  have hoff : (0x400000 + 0x4000 * mb + o) % 0x4000 = o := by omega
  rw [execRegisterWrite, if_pos (by omega), hbox, hoff, when_of hu]

/-- A vector is sent where it lies in the function's table, after P9. -/
theorem sendVector_msix (fn vec : Nat) (s : State) : (sendVector fn vec s).host.msix
    = if vec < vectors fn ∧ s.boot.readyIndex.isSome = true then s.host.msix ++ [(fn, vec)] else s.host.msix := by
  unfold sendVector
  split <;> rfl

/-- A response sends its mailbox's done vector where that is enabled and no image is waited for. -/
theorem respond_msix (mb : Nat) (r : Resp) (s : State) : (respond mb r s).host.msix
    = if (s.mbAt mb).doneIrq = true ∧ s.boot.fetchWait = false ∧ (s.mbAt mb).doneVector.toNat < vectors (s.mbAt mb).fn
        ∧ s.boot.readyIndex.isSome = true then s.host.msix ++ [((s.mbAt mb).fn, (s.mbAt mb).doneVector.toNat)] else s.host.msix := by
  unfold respond
  dsimp only
  split
  case isTrue h =>
    obtain ⟨hirq, hwait⟩ : (s.mbAt mb).doneIrq = true ∧ s.boot.fetchWait = false := by simpa using h
    rw [sendVector_msix]
    simp [hirq, hwait]
  case isFalse h => exact (if_neg fun ⟨hirq, hwait, _⟩ => h (by simp [hirq, hwait])).symm

/-- A response leaves the other mailboxes. -/
theorem respond_mbAt_other {mb : Nat} (r : Resp) (s : State) (h : n ≠ mb) : (respond mb r s).mbAt n = s.mbAt n := by
  unfold respond
  dsimp only
  split
  · rw [sendVector_mbAt, State.mbAt_setMb_other _ _ h]
  · rw [State.mbAt_setMb_other _ _ h]

end

end Sys2Proof.Machine

namespace Sys2Proof.Claims

open Sys2Proof Sys2Proof.Machine

/-- A command that answers with its items, read as one with that effect. -/
theorem reads_of_does {mk : Msg → Instr} {c : Msg → Cmd} {op : Nat} {items : Msg → State → Items}
    (h : Does mk c fun m t => readItems op m (items m t) t) : Reads mk c op items := h

/-! ## The obligations of chapter 14 -/

/-- Settles O1: the step looks at the queue alone. -/
theorem stepRunsFrontCommand : Obligations.StepRunsFrontCommand := by
  unfold Obligations.StepRunsFrontCommand
  refine ⟨fun c rest s h => ?_, fun s h => ?_⟩ <;> rw [step, h]

/-- Settles O54, by what a write of each mailbox register and a response leave. -/
theorem mailboxHandshake : Obligations.MailboxHandshake := by
  unfold Obligations.MailboxHandshake
  refine ⟨fun mb v s hv hu hg hb => ?busy, fun mb v s hv hu hg hb => ?free, fun mb r s => ?response, fun mb v s hv hu hh => ?tail,
    fun mb o v s hm h40 ho hu hb => ?area⟩
  case busy =>
    refine ⟨_, execMailboxGo_up hv hu, ?_⟩
    rw [writeGo_busy hg hb, State.mbAt_setMb]
    exact ⟨rfl, hb, rfl, rfl⟩
  case free => rw [← writeGo_free hg hb]; exact execMailboxGo_up hv hu
  case response =>
    intro t
    have hbox : t.mbAt mb = _ := respond_mbAt mb r s
    rw [hbox]
    exact ⟨rfl, rfl, rfl, rfl, respond_msix mb r s, fun n hn => respond_mbAt_other r s hn⟩
  case tail => rw [← writeTail_head hh]; exact execEvTailWrite_up hv hu
  case area =>
    refine (execRegisterWrite_box hm (by omega) hu).trans ?_
    rw [writeBox_busy h40 ho hb]

/-- Settles O57: each command is served by its table entry, whose run reads the items stated. -/
theorem readCommandsAnswer : Obligations.ReadCommandsAnswer := by
  unfold Obligations.ReadCommandsAnswer
  refine ⟨reads_of_does ?_, reads_of_does ?_, reads_of_does ?_, reads_of_does ?_, reads_of_does ?_, reads_of_does ?_, reads_of_does ?_,
    reads_of_does ?_, reads_of_does ?_, reads_of_does ?_, reads_of_does ?_, reads_of_does ?_, reads_of_does ?_, ?_, ?_, reads_of_does ?_,
    reads_of_does ?_, reads_of_does ?_, ?_, ?_, ?_, reads_of_does ?_⟩ <;>
  exact does_of_serveCmd (fun _ _ => rfl) (fun _ _ => rfl)

end Sys2Proof.Claims
end

section
/-! ## SUPPORT and obligations of chapter 15: the sideband and the test access port -/

namespace Sys2Proof.Machine

open Sys2Proof

section

variable {s : State}

/-! ### The sideband (R450-R452) -/

/-- From P1 on a report gives INLET and FLOW to the device, and the posting of an inlet out of range leaves power and the clock. -/
theorem execSidebandReport_reported (inlet flow : BitVec 16) (ho : s.boot.off = false) (h2 : 2 ≤ s.boot.stage) :
    ∃ t, execSidebandReport inlet flow s = .next t ∧ t.power.inlet = inlet ∧ t.power.flow = flow ∧ t.power.reportLost = false
      ∧ t.seqr = s.seqr := by
  unfold execSidebandReport
  rw [if_neg (ne_true_of_eq_false ho)]
  dsimp only
  rw [if_neg (Nat.not_lt.2 h2)]
  refine ⟨_, rfl, rfl, rfl, rfl, ?_⟩
  split <;> rfl

/-- Before P1 a report only fills its registers. -/
theorem execSidebandReport_early (inlet flow : BitVec 16) (ho : s.boot.off = false) (h2 : s.boot.stage < 2) :
    execSidebandReport inlet flow s = .next { s with pins := { s.pins with sbInlet := inlet, sbFlow := flow } } :=
  (if_neg (ne_true_of_eq_false ho)).trans (if_pos h2)

/-- A wake ungates the host port, domain 122. -/
theorem execSidebandWake_gated (ho : s.boot.off = false) (hg : 122 ∈ s.power.off) :
    ∃ t, execSidebandWake s = .next t ∧ t.power.off = s.power.off.filter fun d => d != 122 :=
  ⟨_, when_of (by simp [ho, hg]), rfl⟩

/-! ### The test access port (R421, R422, R453) -/

/-- Boundary scan while PERST_N is asserted: what the pins hold is a free value. -/
theorem tapScan_inReset (ir : BitVec 8) (ho : s.boot.off = false) (hr : s.boot.released = false) :
    ∃ d t, tapScan ir s = .next (tap ir d t) ∧ t = { s with fresh := s.fresh + 1 } :=
  ⟨_, _, (if_neg (ne_true_of_eq_false ho)).trans (if_neg (ne_true_of_eq_false hr)), rfl⟩

/-- Boundary scan is not allowed once PERST_N is released. -/
theorem tapScan_released (ir : BitVec 8) (ho : s.boot.off = false) (hr : s.boot.released = true) :
    tapScan ir s = .next (tap 0xFF 0 s) :=
  (if_neg (ne_true_of_eq_false ho)).trans (if_pos hr)

/-- A debug register is closed while TAP_OPEN is clear. -/
theorem execDbgAccess_closed (a : BitVec 32) (w : Option (BitVec 32)) (ho : s.boot.off = false) (ht : s.tapOpen = false) :
    execDbgAccess a w s = .next (tap 0xFF 0 s) :=
  (if_neg (ne_true_of_eq_false ho)).trans (if_pos (by rw [ht]; rfl))

/-- An open access, of a dark domain or not, of either direction, changes the port's own registers alone. -/
theorem execDbgAccess_open (a : BitVec 32) (w : Option (BitVec 32)) (ho : s.boot.off = false) (ht : s.tapOpen = true) :
    ∃ d t, execDbgAccess a w s = .next t ∧ t.pins.tapIr = 0xA5 ∧ t.pins.tapData = d ∧ t.dram = s.dram ∧ t.cores = s.cores
      ∧ t.seqr = s.seqr := by
  unfold execDbgAccess
  rw [if_neg (ne_true_of_eq_false ho), if_neg (by simp [ht])]
  dsimp only
  split
  case isTrue => exact ⟨_, _, rfl, rfl, rfl, rfl, rfl, rfl⟩
  case isFalse => cases w with
    | some v => exact ⟨_, _, rfl, rfl, rfl, rfl, rfl, rfl⟩
    | none => exact ⟨_, _, rfl, rfl, rfl, rfl, rfl, rfl⟩

end

end Sys2Proof.Machine

namespace Sys2Proof.Claims

open Sys2Proof Sys2Proof.Machine

/-! ## The obligations of chapter 15 on the sideband and the test access port -/

/-- Settles O51, by the stage a report finds, the reset line a boundary scan finds, and TAP_OPEN for a debug register. -/
theorem sidebandAndTestAccess : Obligations.SidebandAndTestAccess := by
  unfold Obligations.SidebandAndTestAccess
  refine ⟨⟨fun inlet flow s ho h2 => execSidebandReport_reported inlet flow ho h2,
      fun inlet flow s ho h2 => execSidebandReport_early inlet flow ho h2, fun s ho hg => ?wake,
      fun a s ho => when_of (congrArg not ho), fun s => ?config⟩,
    fun s ho => ⟨⟨when_of (congrArg not ho), when_of (congrArg not ho), fun _ => rfl⟩,
      fun hr => ⟨tapScan_inReset _ ho hr, tapScan_inReset _ ho hr, tapScan_inReset _ ho hr, tapScan_inReset _ ho hr⟩,
      fun hr => ⟨tapScan_released _ ho hr, tapScan_released _ ho hr, tapScan_released _ ho hr, tapScan_released _ ho hr⟩,
      fun a w ht => execDbgAccess_closed a w ho ht, fun a w ht => execDbgAccess_open a w ho ht⟩⟩
  case wake =>
    obtain ⟨t, he, hoff⟩ := execSidebandWake_gated ho hg
    exact ⟨t, he, by simp [hoff], fun d hd hne => by simp [hoff, hd, hne]⟩
  case config => simp only [← Bool.not_eq_true']; rfl

end Sys2Proof.Claims
end


section
/-! ## SUPPORT and obligations of chapter 12: sensors, Rack, the sudden stop and the crumb budget -/

namespace Sys2Proof.Machine

open Sys2Proof

/-! ### Fields that a loop keeps -/

/-- A loop keeps what each of its steps keeps. -/
theorem foldl_field {σ α β : Type} {f : σ → α → σ} (g : σ → β) (h : ∀ t a, g (f t a) = g t) (s : σ) (l : List α) :
    g (l.foldl f s) = g s := by
  induction l generalizing s with
  | nil => rfl
  | cons a l ih => exact (ih (f s a)).trans (h s a)

/-- What delivering an event leaves of power. -/
theorem Delivers.power {s t : State} (h : Delivers s t) : t.power = s.power := by
  obtain ⟨_, _, _, _, _, _, rfl⟩ := h
  rfl

/-- What delivering an event leaves of the tick's staged state. -/
theorem Delivers.work {s t : State} (h : Delivers s t) : t.work = s.work := by
  obtain ⟨_, _, _, _, _, _, rfl⟩ := h
  rfl

/-- What delivering an event leaves of the pins. -/
theorem Delivers.pins {s t : State} (h : Delivers s t) : t.pins = s.pins := by
  obtain ⟨_, _, _, _, _, _, rfl⟩ := h
  rfl

/-! ### The largest throttle fraction of a stack (R321, R324) -/

section

variable {p : Nat → Bool} {g : Nat → Nat}

/-- The largest of the values that count is no less than any of them, nor than the value it starts from. -/
theorem le_foldl_max (l : List Nat) (m : Nat) :
    m ≤ l.foldl (fun m x => if p x = true then max m (g x) else m) m
      ∧ ∀ x ∈ l, p x = true → g x ≤ l.foldl (fun m x => if p x = true then max m (g x) else m) m := by
  induction l generalizing m with
  | nil => simp
  | cons y l ih =>
    obtain ⟨hm, hl⟩ := ih (if p y = true then max m (g y) else m)
    refine ⟨le_trans (by split <;> simp) hm, fun x hx hp => ?_⟩
    rcases List.mem_cons.1 hx with rfl | hx
    · exact le_trans (by simp [hp]) hm
    · exact hl x hx hp

/-- The largest of the values that count is one of them, or the value it starts from. -/
theorem foldl_max_mem (l : List Nat) (m : Nat) :
    l.foldl (fun m x => if p x = true then max m (g x) else m) m = m
      ∨ ∃ x ∈ l, p x = true ∧ g x = l.foldl (fun m x => if p x = true then max m (g x) else m) m := by
  induction l generalizing m with
  | nil => simp
  | cons y l ih =>
    by_cases hp : p y = true
    · simp only [List.foldl_cons, hp, if_true]
      rcases ih (max m (g y)) with h | ⟨x, hx, hpx, h⟩
      · rw [h]
        rcases max_choice m (g y) with hm | hm
        · exact .inl hm
        · exact .inr ⟨y, by simp, hp, hm.symm⟩
      · exact .inr ⟨x, by simp [hx], hpx, h⟩
    · simp only [List.foldl_cons, hp]
      rcases ih m with h | ⟨x, hx, hpx, h⟩
      · exact .inl h
      · exact .inr ⟨x, by simp [hx], hpx, h⟩

end

section

variable {s : State} {n i : Nat}

/-- No quadrant that takes part has a throttle fraction above its stack's. -/
theorem f_le_stackF (hi : i < 4) (h : (s.thermAt (4 * n + i)).takesPart = true) : (s.thermAt (4 * n + i)).f ≤ s.stackF n :=
  (le_foldl_max (p := fun i => (s.thermAt (4 * n + i)).takesPart) (g := fun i => (s.thermAt (4 * n + i)).f) (List.range 4) 0).2 i
    (List.mem_range.2 hi) h

/-- The throttle fraction of a stack is 0 or that of a quadrant that takes part. -/
theorem stackF_attained :
    s.stackF n = 0 ∨ ∃ i, i < 4 ∧ (s.thermAt (4 * n + i)).takesPart = true ∧ (s.thermAt (4 * n + i)).f = s.stackF n := by
  rcases foldl_max_mem (p := fun i => (s.thermAt (4 * n + i)).takesPart) (g := fun i => (s.thermAt (4 * n + i)).f) (List.range 4) 0 with
    h | ⟨i, hi, hp, h⟩
  · exact .inl h
  · exact .inr ⟨i, List.mem_range.1 hi, hp, h⟩

end

/-! ### Samples, the trip and Rack (R318, R325, R326) -/

/-- Power and the pins are as they were. -/
@[reducible, simp] def SamePower (s t : State) : Prop := t.power = s.power ∧ t.pins = s.pins

@[simp] theorem samePower_foldl {α : Type} {f : State → α → State} (h : ∀ t x, SamePower t (f t x)) (s : State) (l : List α) :
    SamePower s (l.foldl f s) :=
  ⟨foldl_field State.power (fun t x => (h t x).1) s l, foldl_field State.pins (fun t x => (h t x).2) s l⟩

theorem samePower_ite {p : Prop} [Decidable p] {s t u : State} (h : SamePower s t) (k : SamePower s u) :
    SamePower s (if p then t else u) := by
  split
  · exact h
  · exact k

theorem SamePower.trans {s t u : State} (h : SamePower s t) (k : SamePower t u) : SamePower s u := by
  obtain ⟨hp, hn⟩ := h
  obtain ⟨kp, kn⟩ := k
  exact ⟨kp.trans hp, kn.trans hn⟩

/-- A check for cold changes cold hold and the warm-up load alone. -/
theorem coldCheck_frame (s : State) : ∃ hold warmup,
    coldCheck s = { s with power := { s.power with coldHold := hold, warmup := warmup } } := by
  unfold coldCheck
  split
  case isTrue => exact ⟨_, _, rfl⟩
  case isFalse => exact ⟨s.power.coldHold, s.power.warmup, rfl⟩

/-- A trip takes the device to Rack with THERMTRIP_N low. -/
theorem enterRack_rack (cause : Nat) (s : State) :
    (enterRack cause s).power.state = .rack ∧ (enterRack cause s).pins.thermtrip = true := by
  unfold enterRack
  split
  case isTrue h => exact h
  case isFalse =>
    dsimp only
    rw [(delivers_postNow ..).power, (delivers_postNow ..).pins]
    split <;> exact ⟨rfl, rfl⟩

section

variable (r : List SensorTriple) (n : Nat) (s : State)

@[simp] theorem samePower_senseEvents (q : Nat) (old t : Therm) : SamePower s (senseEvents q old t s) := by
  have posted (b : Bool) (e : Ev) (u v : State) (h : SamePower u v) :
      SamePower u (if b then post (event e (objWord 4 q) []) v else v) := samePower_ite h h
  simp only [senseEvents]
  iterate 7 apply posted
  exact ⟨rfl, rfl⟩

@[simp] theorem samePower_sampleStack : SamePower s (sampleStack r s n) := by
  unfold sampleStack
  dsimp only [draw]
  split
  · exact samePower_foldl (fun t i => samePower_senseEvents (s := t.setTherm _ _) ..) { s with fresh := s.fresh + 1 } _
  · exact samePower_foldl (fun t i => samePower_senseEvents (s := t.setTherm _ _) ..) s _

@[simp] theorem samePower_setDesc (pfn : Nat) (d : Desc) : SamePower s (s.setDesc pfn d) := ⟨rfl, rfl⟩

@[simp] theorem samePower_emptyReserve : SamePower s (emptyReserve n s) := by simp [emptyReserve]

@[simp] theorem samePower_loseContents (poison : Bool) : SamePower s (loseContents n poison s) :=
  SamePower.trans (t := clearSites (fun x => x / 256 == n) s) ⟨rfl, rfl⟩ (samePower_emptyReserve n _)

@[simp] theorem samePower_cutDram : SamePower s (cutDram s) :=
  samePower_ite (samePower_foldl (fun t n => samePower_loseContents n (t.setStack _ _) false) _ _) ⟨rfl, rfl⟩

end

section

variable {r : List SensorTriple} {s u : State}

/-- What follows the reading of the sensors, which left `u`, in a sample of state `s`. -/
def afterSample (s u : State) : State :=
  let t := if s.boot.readyIndex.isSome then coldCheck u else u
  let t := if t.tooHot && s.ticking then enterRack 0 t else t
  let t := cutDram t
  { t with power := { t.power with coolSamples := if t.power.state = .rack && t.coolEnough then t.power.coolSamples + 1 else 0 } }

theorem execSensorSample_of (hr : r.length = 80) (ho : s.boot.off = false) :
    execSensorSample r s = .next (afterSample s ((List.range 20).foldl (sampleStack r)
      { s with power := { s.power with samples := s.power.samples + 1 } })) :=
  if_pos ⟨hr, by simp [ho]⟩

/-- After the reading, the trip is all that changes more of power than cold hold and the count of cool samples. -/
theorem afterSample_eq (s u : State) : ∃ hold warmup,
    let v : State := { u with power := { u.power with coldHold := hold, warmup := warmup } }
    let w := if u.tooHot && s.ticking then enterRack 0 v else v
    (afterSample s u).power.state = w.power.state ∧ (afterSample s u).pins = w.pins
      ∧ (afterSample s u).power.samples = w.power.samples := by
  have cold : ∃ hold warmup, (if s.boot.readyIndex.isSome then coldCheck u else u)
      = { u with power := { u.power with coldHold := hold, warmup := warmup } } := by
    split
    case isTrue => exact coldCheck_frame u
    case isFalse => exact ⟨u.power.coldHold, u.power.warmup, rfl⟩
  obtain ⟨hold, warmup, hcold⟩ := cold
  refine ⟨hold, warmup, ?_⟩
  intro v w
  obtain ⟨hpower, hpins⟩ := samePower_cutDram w
  unfold afterSample
  rw [hcold]
  show (cutDram w).power.state = w.power.state ∧ (cutDram w).pins = w.pins ∧ (cutDram w).power.samples = w.power.samples
  rw [hpower, hpins]
  exact ⟨rfl, rfl, rfl⟩

/-- A reading at a trip limit takes a device whose ticks run to Rack. -/
theorem afterSample_hot (hu : u.tooHot = true) (ht : s.ticking = true) :
    (afterSample s u).power.state = .rack ∧ (afterSample s u).pins.thermtrip = true := by
  obtain ⟨hold, warmup, hstate, hpins, -⟩ := afterSample_eq s u
  rw [hstate, hpins, hu, ht]
  exact enterRack_rack 0 _

/-- With no reading at a trip limit the power state and the pins stay. -/
theorem afterSample_cool (hu : u.tooHot = false) :
    (afterSample s u).power.state = u.power.state ∧ (afterSample s u).pins = u.pins
      ∧ (afterSample s u).power.samples = u.power.samples := by
  obtain ⟨hold, warmup, hstate, hpins, hsamples⟩ := afterSample_eq s u
  rw [hstate, hpins, hsamples, hu]
  exact ⟨rfl, rfl, rfl⟩

end

/-! ### The sudden stop and power states (R333-R335, R337) -/

section

variable {s : State}

/-- A tick that runs is abandoned: the tick stops with its attempt, and nothing is staged. -/
theorem abandonTick_executing (cooling : Bool) (h : s.seqr.phase = .executing) :
    (abandonTick cooling s).seqr.phase = .stopped ∧ (abandonTick cooling s).seqr.attempt = s.seqr.attempt
      ∧ (abandonTick cooling s).work.staged = [] := by
  unfold abandonTick
  rw [h]
  exact ⟨rfl, rfl, rfl⟩

/-- A tick that is abandoned leaves power. -/
theorem abandonTick_power (cooling : Bool) (s : State) : (abandonTick cooling s).power = s.power := by
  unfold abandonTick
  split <;> rfl

/-- A tick that is abandoned leaves memory. -/
theorem abandonTick_dram (cooling : Bool) (s : State) : (abandonTick cooling s).dram = s.dram := (keeps_abandonTick cooling s).1

/-- A flow fault in a device whose ticks run and which no sudden stop holds. -/
theorem execSuddenStop_flow (ho : s.boot.off = false) (hf : s.power.flowFault = false) (ht : s.ticking = true)
    (hc : s.power.coolantStop = false) :
    ∃ v, v = abandonTick true { s with power := { s.power with flowFault := true } }
      ∧ execSuddenStop true s = .next (postNow (event .coolantStop none [])
          (devInc .coolantStop 1 { v with power := { v.power with coolantStop := true } })) := by
  refine ⟨_, rfl, ?_⟩
  rw [execSuddenStop, if_neg (by simp [ho, hf])]
  simp only [Bool.or_true]
  exact if_neg (by simp [ht, hc])

/-- The restart of a device in Rack that has been cool for its 200,000 samples, with VCORE there. -/
theorem execRackRestart_of (hr : s.power.state = .rack) (hn : 200000 ≤ s.power.coolSamples) (hc : s.power.coolantStop = false)
    (hl : s.power.rackLatch = false) (hb : s.boot.st ≠ .halted) (hv : s.power.vcoreOk = true) :
    execRackRestart s = .next { s with
      pins := { s.pins with thermtrip := false, restartPending := false, supply := false }
      power := { s.power with coolSamples := 0 }
      boot := { s.boot with
        stage := if s.boot.readyIndex.isNone && decide (s.boot.stage < 5) then 2 else 5
        kind := .rackRestart, st := .running, cause := 0, bad := [], badUnits := []
        stk := (List.range 20).filterMap fun n => if s.stackUp n then some (n, if (s.stackAt n).cut then 4 else 5) else none } } := by
  rw [execRackRestart, if_pos (by simp [hr, hn, hc, hl, hb])]
  exact if_neg (by simp [hv])

section

variable {x : Pwr} {d : Nat}

/-- The power state under way is entered, where a sudden stop does not hold an exit to Active back. -/
theorem execPowerStateEntry_of (hx : s.power.entering = some x) (hc : x = .active → s.power.coolantStop = false) :
    execPowerStateEntry s = .next (enterState x s) := by
  rw [execPowerStateEntry, hx]
  exact when_of (by by_cases h : x = .active <;> simp [h, hc])

/-- Dormant gates every quadrant and crumb domain. -/
theorem mem_off_enterState_dormant (hx : x = .dormant) (hd : d < 100) : d ∈ (enterState x s).power.off := by
  subst hx
  exact List.mem_append_left _ (List.mem_range.2 hd)

/-- In Active the quadrants, the crumb domains and the host port are powered. -/
theorem mem_off_enterState_active (hx : x = .active) (hd : d ∈ (enterState x s).power.off) : 100 ≤ d ∧ d < 122 := by
  subst hx
  obtain ⟨hhigh, hlow⟩ := List.mem_filter.1 hd
  obtain ⟨-, hge⟩ := List.mem_filter.1 hhigh
  exact ⟨of_decide_eq_true hge, of_decide_eq_true hlow⟩

end

end

end Sys2Proof.Machine

namespace Sys2Proof.Claims

open Sys2Proof Sys2Proof.Machine

/-! ## The obligations of chapter 12 -/

/-- Settles O39: of what a sample does, the trip alone changes the power state and THERMTRIP_N. -/
theorem sensorSampleTaken : Obligations.SensorSampleTaken := by
  unfold Obligations.SensorSampleTaken
  refine fun r s hr ho => ⟨_, execSensorSample_of hr ho, afterSample_hot, fun hu => ?_⟩
  obtain ⟨hstate, hpins, hsamples⟩ := afterSample_cool hu
  obtain ⟨hpower, hpins'⟩ := samePower_foldl (fun t n => samePower_sampleStack r n t)
    { s with power := { s.power with samples := s.power.samples + 1 } } (List.range 20)
  rw [hstate, hpins, hsamples, hpower, hpins']
  exact ⟨rfl, rfl, rfl⟩

/-- Settles O42, by the largest of the fractions of the quadrants that take part. -/
theorem effectiveCrumbBudget : Obligations.EffectiveCrumbBudget := by
  unfold Obligations.EffectiveCrumbBudget
  refine fun s n => ⟨fun h => ?gated, fun h => ?powered, fun i hi h => f_le_stackF hi h, stackF_attained, fun h => ?none⟩
  case gated => exact if_pos (List.contains_iff_mem.2 h)
  case powered =>
    have hb : s.effBudget n = max 1 (max 1 (s.cfg.budget * (8960 - 7 * s.stackF n) / 8960) - s.power.dsteps) :=
      if_neg (mt List.contains_iff_mem.1 h)
    exact ⟨hb, hb ▸ le_max_left ..⟩
  case none =>
    rcases stackF_attained (s := s) (n := n) with h0 | ⟨i, hi, hp, -⟩
    · exact h0
    · exact absurd hp (by simp [h i hi])

/-- Settles O40: each command's condition holds, so that it changes just what it is to change. -/
theorem coolingEvents : Obligations.CoolingEvents := by
  unfold Obligations.CoolingEvents
  refine ⟨⟨fun s hr ht => ?lost, fun s hd ht => ?degraded, fun s hd ht => ?step, fun s hd hc => ?restored, fun s => rfl⟩,
    fun q s hq hs hc => ?split, fun q s hq hb hc hw => ?band⟩
  case lost => exact when_of (by simp [hr, ht])
  case degraded => exact when_of (by simp [hd, ht])
  case step => exact when_of (by simp [hd, ht])
  case restored => exact when_of (by simp [hd, hc])
  case split => exact (unit_of hq).trans (when_of (by simp [hs, hc]))
  case band => exact (unit_of hq).trans (when_of (by simp [hb, hc, hw]))

/-- Settles O41: the restart and the stops by their conditions, and entry to a state by the domains that each state gates. -/
theorem stopsRestartAndPower : Obligations.StopsRestartAndPower := by
  unfold Obligations.StopsRestartAndPower
  refine ⟨⟨fun s hr hn hc hl hb hv => ?restart, fun s ho hf ht hc => ?stop, fun s hc => if_pos hc⟩,
    fun s x hx hc => ?entry, fun q s hq hu => ?ready⟩
  case restart =>
    refine ⟨_, execRackRestart_of hr hn hc hl hb hv, rfl, rfl, rfl, ?_, hr⟩
    simp
  case stop =>
    obtain ⟨v, hv, h⟩ := execSuddenStop_flow ho hf ht hc
    have delivered := delivers_postNow (event .coolantStop none []) (devInc .coolantStop 1 { v with power := { v.power with coolantStop := true } })
    refine ⟨_, h, ?_, ?_, fun hp => ?_, ?_⟩
    · rw [delivered.power]; rfl
    · rw [delivered.power, devInc_power, hv]
      simp only [abandonTick_power]
    · rw [delivered.seqr, delivered.work, hv]
      exact abandonTick_executing true hp
    · rw [delivered.dram, hv]
      exact abandonTick_dram true _
  case entry =>
    exact ⟨_, execPowerStateEntry_of hx hc, rfl, rfl, fun hd d => mem_off_enterState_dormant hd, fun ha d => mem_off_enterState_active ha, rfl⟩
  case ready =>
    refine ⟨_, (unit_of hq).trans (when_of (List.contains_iff_mem.2 hu)), by simp, rfl, rfl⟩

end Sys2Proof.Claims
end


section
/-! ## SUPPORT and obligations of chapter 13: reset and the stages of a device start

A stage leaves its record in the proof log and then moves the device on. `Logs` says that nothing but the log changed; what a stage leaves
beside its record is then read off one equation per stage. -/

namespace Sys2Proof.Machine

open Sys2Proof

/-! ### Loops and tables -/

/-- A key that no entry has reads as absent. -/
theorem Tab.get_eq_none {α : Type} (t : Tab α) {k : Nat} (h : ∀ e ∈ t, e.1 ≠ k) : Tab.get t k = none := by
  induction t with
  | nil => rfl
  | cons e t ih =>
    rw [Tab.get, if_neg (h e (by simp))]
    exact ih fun x hx => h x (by simp [hx])

/-- A byte of memory at an address that no cell has reads zero. -/
theorem Mem.get_eq_zero (m : Mem) {a : Nat} (h : ∀ c ∈ m, c.1 ≠ a) : Mem.get m a = 0 := by
  induction m with
  | nil => rfl
  | cons c m ih =>
    rw [Mem.get, if_neg (h c (by simp))]
    exact ih fun x hx => h x (by simp [hx])

/-! ### The proof log (R363-R365) -/

/-- The state `t` is `s` but for the proof log and the free values drawn for it. -/
def Logs (s t : State) : Prop :=
  ∃ fresh records overflow, t = { s with fresh := fresh, boot := { s.boot with records := records, overflow := overflow } }

section

variable {s t u : State}

theorem Logs.refl (s : State) : Logs s s := ⟨_, _, _, rfl⟩

theorem Logs.trans (h : Logs s t) (k : Logs t u) : Logs s u := by
  obtain ⟨_, _, _, rfl⟩ := h
  obtain ⟨_, _, _, rfl⟩ := k
  exact ⟨_, _, _, rfl⟩

theorem logs_foldl {α : Type} {f : State → α → State} (h : ∀ t x, Logs t (f t x)) (s : State) (l : List α) : Logs s (l.foldl f s) := by
  induction l generalizing s with
  | nil => exact .refl s
  | cons x l ih => exact (h s x).trans (ih _)

theorem logs_addProof (r : ProofRec) (s : State) : Logs s (addProof r s) := by
  unfold addProof
  split <;> exact ⟨_, _, _, rfl⟩

theorem logs_stageRec (stage scope : Nat) (kind : StartKind) (result cause tested failed : Nat) (detail : List Nat) (s : State) :
    Logs s (stageRec stage scope kind result cause tested failed detail s) := by
  have drawn : Logs s (if stage < 2 then (Config.freeNat (draw s).1, (draw s).2) else ((s.seqr.time - s.boot.stageNs) / 1000, s)).2 := by
    split <;> exact ⟨_, _, _, rfl⟩
  exact drawn.trans (logs_addProof ..)

theorem logs_finding (stage scope : Nat) (kind : StartKind) (unitC site ix source outcome flags detail : Nat) (log : Option Nat) (s : State) :
    Logs s (finding stage scope kind unitC site ix source outcome flags detail log s) := logs_addProof ..

/-- The end of a device stage: its record, and the stage to run next. -/
theorem endStage_frame (stage next result cause tested failed : Nat) (s : State) : ∃ u, Logs s u
    ∧ endStage stage next result cause tested failed s
      = { u with boot := { u.boot with stage := next, last := stage, st := .running, coldWait := false, stageNs := u.seqr.time } } :=
  ⟨_, logs_stageRec .., rfl⟩

/-- A device stage that fails: its record, and the halt. -/
theorem failHalt_frame (stage cause : Nat) (s : State) : ∃ u, Logs s u
    ∧ failHalt stage cause s = halt cause { u with boot := { u.boot with last := stage } } :=
  ⟨_, logs_stageRec .., rfl⟩

/-- A stage that fails halts the device with its cause. -/
theorem failHalt_halted (stage cause : Nat) (s : State) :
    (failHalt stage cause s).boot.st = .halted ∧ (failHalt stage cause s).boot.cause = cause
      ∧ (failHalt stage cause s).mram = s.mram := by
  obtain ⟨u, ⟨_, _, _, rfl⟩, h⟩ := failHalt_frame stage cause s
  rw [h]
  exact ⟨rfl, rfl, rfl⟩

/-- A stage that ends moves the device on. -/
theorem endStage_moves (stage next result cause tested failed : Nat) (s : State) :
    (endStage stage next result cause tested failed s).boot.stage = next
      ∧ (endStage stage next result cause tested failed s).boot.last = stage
      ∧ (endStage stage next result cause tested failed s).boot.st = .running := ⟨rfl, rfl, rfl⟩

end

/-- Records of the proof log leave the floor plan, the fault map, the ports and the stacks' stages. -/
theorem Logs.plan {s t : State} (h : Logs s t) :
    t.faultMap = s.faultMap ∧ t.rows = s.rows ∧ t.boot.stk = s.boot.stk ∧ t.ports = s.ports := by
  obtain ⟨_, _, _, rfl⟩ := h
  exact ⟨rfl, rfl, rfl, rfl⟩

/-- The end of a stage leaves them too. -/
theorem endStage_plan (stage next result cause tested failed : Nat) (s : State) :
    let t := endStage stage next result cause tested failed s
    t.faultMap = s.faultMap ∧ t.rows = s.rows ∧ t.boot.stk = s.boot.stk ∧ t.ports = s.ports :=
  (logs_stageRec stage 31 s.boot.kind result cause tested failed [] s).plan

/-! ### P0 to P3 (R349) -/

section

variable {s : State}

/-- The state that P0 leaves before it ends: one more start is counted. -/
theorem execStageP0_of (h : s.atStage 0 = true) : ∃ boot,
    let t : State := { s with mram := { s.mram with bootCount := s.mram.bootCount + 1 }, boot := boot }
    execStageP0 true s = .next (endStage 0 1 0 0 0 0 t) ∧ execStageP0 false s = .next (failHalt 0 2 t) :=
  ⟨_, if_pos h, if_pos h⟩

/-- A sudden stop asked for before P1 is in force after it. -/
theorem armStop_coolantStop (s : State) :
    (armStop s).power.coolantStop = (s.power.flowFault || s.power.coolantStop)
      ∧ (armStop s).boot = s.boot ∧ (armStop s).seqr = s.seqr ∧ (armStop s).pins = s.pins := by
  unfold armStop
  split
  case isTrue h =>
    rw [(delivers_postNow ..).power, (delivers_postNow ..).boot, (delivers_postNow ..).seqr, (delivers_postNow ..).pins, h]
    exact ⟨rfl, rfl, rfl, rfl⟩
  case isFalse h =>
    rw [Bool.eq_false_of_not_eq_true h]
    exact ⟨rfl, rfl, rfl, rfl⟩

/-- P1 with its supplies and clocks good starts the tick counter and the timestamps, and powers the host port. -/
theorem execStageP1_passed {e : PowerEnv} (h : s.atStage 1 = true) (he : s.boot.env = some e) (hg : powerGood e = true)
    (hv : s.power.vcoreOk = true) (hc : s.boot.lostClocks = []) : ∃ t, execStageP1 .passed s = .next (armStop t)
      ∧ t.boot.stage = 2 ∧ t.seqr = Seqr.init ∧ t.pins.hostUp = true
      ∧ (t.power.flowFault || t.power.coolantStop) = (s.power.flowFault || s.power.coolantStop) := by
  obtain ⟨u, ⟨_, _, _, rfl⟩, hend⟩ := endStage_frame 1 2 0 0 0 0 { s with seqr := Seqr.init, power := { s.power with samples := 0 } }
  rw [execStageP1, if_pos h, he]
  dsimp only
  rw [if_neg (by simp [hg, hv]), if_neg (by simp [hc]), hend]
  exact ⟨_, rfl, rfl, rfl, rfl, rfl⟩

/-- The copies of NEXT_INDEX touch neither the floor plan, nor the map, nor the stages. -/
theorem readIndex_frame (bad : List Nat) (s : State) : ∃ stopped events mram,
    readIndex bad s = { s with signingStopped := stopped, devEvents := events, mram := mram } := by
  unfold readIndex
  split
  · exact ⟨_, _, _, rfl⟩
  · split <;> exact ⟨_, _, _, rfl⟩

/-- Stacks whose die P2 cannot authenticate, of those whose fuses it can read. -/
def p2Auth (r : P2Result) (s : State) : List Nat :=
  if s.mram.life = .returned then [] else r.authFail.filter fun n => !r.unread.contains n

/-- What P2 takes up from the fuses and MRAM, before it records the stacks that do not start. -/
def p2State (r : P2Result) (s : State) : State :=
  readIndex r.badCopies { s with
    faultMap := s.mram.map.without r.mapLost
    mram := { s.mram with log := s.mram.log.filter fun x => !r.lostRecords.contains x.index
                          skipped := s.mram.skipped + (s.mram.log.filter fun x => r.lostRecords.contains x.index).length }
    rows := fuseRows s.fuses, newRows := fuseRows s.fuses, scrubbed := s.mram.scrubPos
    boot := { s.boot with mapLost := !r.mapLost.isEmpty, dieAuth := p2Auth r s
                          stk := ((List.range 20).filter fun n => !(r.unread ++ p2Auth r s).contains n).map fun n => (n, 3) } }

/-- P2 takes up the fuses and MRAM, and records beside its own end the stacks that do not start. -/
theorem execStageP2_of {r : P2Result} (h : s.atStage 2 = true) (hr : r.ioFusesOk = true) : ∃ result cause failed u,
    Logs (p2State r s) u ∧ execStageP2 r s = .next (endStage 2 3 result cause 0 failed u) := by
  refine ⟨_, _, _, _, ?_, (if_pos h).trans (if_neg (by simp [hr]))⟩
  exact (logs_foldl (fun t n => logs_stageRec ..) _ _).trans
    (logs_foldl (fun t n => (logs_stageRec ..).trans (logs_finding ..)) _ _)

/-- A stack whose fuses P2 cannot read runs no stage. -/
theorem p2State_stk {r : P2Result} {n : Nat} (h : n ∈ r.unread) : Tab.get (p2State r s).boot.stk n = none := by
  obtain ⟨_, _, _, hread⟩ := readIndex_frame r.badCopies _
  rw [p2State, hread]
  refine Tab.get_eq_none _ fun e he hn => ?_
  obtain ⟨k, hk, rfl⟩ := List.mem_map.1 he
  obtain ⟨-, hgone⟩ := List.mem_filter.1 hk
  simp [show k = n from hn, h] at hgone

/-- P2 takes the fault map from MRAM and the floor plan from the fuses. -/
theorem p2State_rows (r : P2Result) (s : State) :
    (p2State r s).faultMap = s.mram.map.without r.mapLost ∧ (p2State r s).rows = fuseRows s.fuses := by
  obtain ⟨_, _, _, hread⟩ := readIndex_frame r.badCopies _
  rw [p2State, hread]
  exact ⟨rfl, rfl⟩

/-- Every port that a loop takes down is down after it, as is each that was. -/
theorem foldl_portDown {f : State → Nat → State}
    (hf : ∀ t p q, (p = q ∨ (t.portAt p).up = false) → ((f t q).portAt p).up = false) (l : List Nat) (s : State) (p : Nat)
    (h : p ∈ l ∨ (s.portAt p).up = false) : ((l.foldl f s).portAt p).up = false := by
  induction l generalizing s with
  | nil => exact h.resolve_left (by simp)
  | cons q l ih =>
    refine ih _ ?_
    rcases h with h | h
    · rcases List.mem_cons.1 h with rfl | h
      · exact .inr (hf s p p (.inl rfl))
      · exact .inl h
    · exact .inr (hf s p q (.inr h))

/-- A port is down once it trains. -/
theorem trainPort_down (r : List LinkResult) (s : State) (p q : Nat) (h : p = q ∨ (s.portAt p).up = false) :
    ((trainPort r s q).portAt p).up = false := by
  by_cases hpq : p = q
  · subst hpq
    simp [trainPort, Port.init]
  · rw [trainPort, State.portAt_setPort_other (h := hpq)]
    exact h.resolve_left hpq

/-- P3 of the device leaves every TLink port down, to train. -/
theorem execStageP3_device (r : List LinkResult) (h : s.starting = true) (hs : s.boot.stage = 3) : ∃ u,
    execStageP3 r s = .next (endStage 3 4 0 0 6 0 (assignSlots ((List.range 6).foldl (trainPort r) u))) := by
  refine ⟨s.boot.stk.foldl (p3Stack r) s, ?_⟩
  rw [execStageP3, if_neg (by simp [h])]
  exact if_pos (by simp [hs])

end

/-! ### P7 to P9 (R349, R366, R397) -/

section

variable {s : State}

theorem delivers_postAll (l : List PEvent) (tick : Nat) (s : State) : Delivers s (postAll l tick s) := by
  unfold postAll
  split
  · refine Delivers.trans (delivers_foldlBy Prod.fst (fun a p => ?_) (s, []) l) (delivers_ringVectors ..)
    exact delivers_writeRecord (p.record tick false s) a.1
  · exact ⟨_, _, _, _, _, _, rfl⟩

/-- P9 records the start and leaves the device ready. -/
theorem execStageP9_of (h : s.atStage 9 = true) : ∃ t, execStageP9 s = .next t ∧ t.boot.stage = 10 ∧ t.boot.st = .ready
    ∧ t.boot.last = 9 ∧ t.boot.readyIndex ≠ none := by
  refine ⟨_, if_pos h, ?_⟩
  dsimp only
  rw [(delivers_postAll ..).boot]
  dsimp only
  have posted (l : List Nat) (t : State) :
      (l.foldl (fun t n => post (event .dieAuthFailed (objWord 3 n) []) t) t).boot = t.boot :=
    foldl_field (f := fun t n => post (event .dieAuthFailed (objWord 3 n) []) t) State.boot (fun _ _ => rfl) t l
  rw [posted]
  split <;> exact ⟨rfl, rfl, rfl, Option.some_ne_none _⟩

end

end Sys2Proof.Machine

namespace Sys2Proof.Claims

open Sys2Proof Sys2Proof.Machine

/-! ## The obligations of chapter 13 on reset and the start of the device -/

/-- Settles O3: memory is empty at reset. -/
theorem memoryCanonicalAtReset : Obligations.MemoryCanonicalAtReset := by
  unfold Obligations.MemoryCanonicalAtReset
  rfl

/-- Settles O45: PERST_N gives the state of a cold start, whose fields are those of reset but for what outlives it. -/
theorem resetPin : Obligations.ResetPin := by
  unfold Obligations.ResetPin
  have released (e : PowerEnv) (s : State) (h : s.boot.released = false) :
      exec (.perstNRelease e) s = .next { coldState s with
        boot := { (coldState s).boot with released := true, env := some e, lostClocks := s.boot.lostClocks }
        pins := { (coldState s).pins with serial := true } } := if_neg (by simp [h])
  refine ⟨released, fun e s h => if_pos h, fun s => rfl, fun e s h => ⟨_, released e s h, ?_⟩, fun s => ⟨_, rfl, ?_⟩⟩
  · exact ⟨rfl, rfl, rfl, rfl, rfl, rfl, rfl, rfl, rfl, rfl⟩
  · exact ⟨rfl, rfl, rfl, rfl, rfl, rfl, rfl, rfl⟩

/-- Settles O46, by what each stage leaves beside its record in the proof log. -/
theorem startStages : Obligations.StartStages := by
  unfold Obligations.StartStages
  refine ⟨⟨fun s h => ?p0, fun s e h he hg hv hc => ?p1, fun s r h hr => ?p2, fun s r h hs => ?p3⟩,
    fun s h hf => ?p7, fun s h hr => ?p8, fun s h => execStageP9_of h⟩
  case p0 =>
    obtain ⟨boot, passed, failed⟩ := execStageP0_of h
    refine ⟨⟨_, passed, ?_⟩, ⟨_, failed, ?_⟩⟩
    · obtain ⟨u, ⟨_, _, _, rfl⟩, hend⟩ := endStage_frame 0 1 0 0 0 0
        { s with mram := { s.mram with bootCount := s.mram.bootCount + 1 }, boot := boot }
      rw [hend]
      exact ⟨rfl, rfl, rfl⟩
    · obtain ⟨hst, hcause, hmram⟩ := failHalt_halted 0 2
        { s with mram := { s.mram with bootCount := s.mram.bootCount + 1 }, boot := boot }
      exact ⟨hst, hcause, congrArg Mram.bootCount hmram⟩
  case p1 =>
    obtain ⟨t, h1, hstage, hseqr, hup, hstop⟩ := execStageP1_passed h he hg hv hc
    obtain ⟨hcool, hboot, hseqr', hpins⟩ := armStop_coolantStop t
    refine ⟨_, h1, ?_⟩
    rw [hcool, hboot, hseqr', hpins, hseqr]
    exact ⟨hstage, rfl, rfl, hup, hstop⟩
  case p2 =>
    obtain ⟨result, cause, failed, u, logged, h2⟩ := execStageP2_of h hr
    obtain ⟨hmap, hrows, hstk, -⟩ := logged.plan
    obtain ⟨hmap', hrows', hstk', -⟩ := endStage_plan 2 3 result cause 0 failed u
    obtain ⟨kmap, krows⟩ := p2State_rows r s
    refine ⟨_, h2, rfl, hmap'.trans (hmap.trans kmap), hrows'.trans (hrows.trans krows), fun n hn => ?_⟩
    rw [hstk', hstk]
    exact p2State_stk hn
  case p3 =>
    obtain ⟨u, h3⟩ := execStageP3_device r h hs
    refine ⟨_, h3, rfl, fun p hp => ?_⟩
    obtain ⟨-, -, -, hports⟩ := endStage_plan 3 4 0 0 6 0 (assignSlots ((List.range 6).foldl (trainPort r) u))
    rw [State.portAt, hports]
    exact foldl_portDown (trainPort_down r) _ u p (.inl (List.mem_range.2 hp))
  case p7 =>
    have waits : (s.atStage 7 && !s.boot.fetchWait) = true := by simp [h, hf]
    refine ⟨fun ho => ⟨_, (if_pos waits).trans (if_neg (by simp [ho])), rfl, rfl, rfl⟩, fun ho hk => ⟨failHalt 7 7 s, ?_, rfl, rfl⟩,
      fun ho hk => ?_⟩
    · exact (if_pos waits).trans ((if_pos (by simp [ho])).trans (if_neg hk))
    · exact (if_pos waits).trans ((if_pos (by simp [ho])).trans (if_pos hk))
  case p8 => exact ⟨_, if_pos (by simp [h, hr]), rfl, rfl⟩

end Sys2Proof.Claims
end


section
/-! ## SUPPORT and obligations of chapter 13: the stages of a stack -/

namespace Sys2Proof.Machine

open Sys2Proof

/-! ### Memory that is cleared (R354) -/

/-- Memory, the codes of its words and the stacks that lost theirs are as they were. -/
def SameMemory (s t : State) : Prop := t.dram = s.dram ∧ t.words = s.words ∧ t.lostStacks = s.lostStacks

section

variable {s t u : State} {n : Nat}

theorem SameMemory.refl (s : State) : SameMemory s s := ⟨rfl, rfl, rfl⟩

theorem SameMemory.trans (h : SameMemory s t) (k : SameMemory t u) : SameMemory s u := by
  obtain ⟨hd, hw, hl⟩ := h
  obtain ⟨kd, kw, kl⟩ := k
  exact ⟨kd.trans hd, kw.trans hw, kl.trans hl⟩

theorem sameMemory_foldl {α : Type} {f : State → α → State} (h : ∀ t x, SameMemory t (f t x)) (s : State) (l : List α) :
    SameMemory s (l.foldl f s) := by
  induction l generalizing s with
  | nil => exact .refl s
  | cons x l ih => exact (h s x).trans (ih _)

/-- Records of the proof log leave memory. -/
theorem Logs.memory (h : Logs s t) : SameMemory s t := by
  obtain ⟨_, _, _, rfl⟩ := h
  exact ⟨rfl, rfl, rfl⟩

/-- A byte of a stack whose slices are cleared reads zero. -/
theorem clearSites_get (s : State) {a : Nat} (ha : a / 2 ^ 28 / 256 = n) : Mem.get (clearSites (fun x => x / 256 == n) s).dram a = 0 := by
  refine Mem.get_eq_zero _ fun c hc hca => ?_
  obtain ⟨-, hkept⟩ := List.mem_filter.1 hc
  dsimp only at hkept
  rw [hca, ha] at hkept
  simp at hkept

/-- A word of a stack whose slices are cleared is clean, unless the stack's contents were lost. -/
theorem clearSites_wordSt (s : State) {w : Nat} (hw : w / 2 ^ 25 / 256 = n) (hl : n ∉ s.lostStacks) :
    (clearSites (fun x => x / 256 == n) s).wordSt w = .clean := by
  have hnone : Tab.get (clearSites (fun x => x / 256 == n) s).words w = none := by
    refine Tab.get_eq_none _ fun e he hew => ?_
    obtain ⟨-, hkept⟩ := List.mem_filter.1 he
    dsimp only at hkept
    rw [hew, hw] at hkept
    simp at hkept
  have hstack : w / 2 ^ 33 = n := by omega
  have hlost : (clearSites (fun x => x / 256 == n) s).lostStacks.contains (w / 2 ^ 33) = false := by
    rw [hstack]
    simpa [clearSites] using hl
  rw [State.wordSt, hnone, hlost]
  rfl

/-- What a word's code is rests on the codes listed and the stacks lost. -/
theorem SameMemory.wordSt (h : SameMemory s t) (w : Nat) : t.wordSt w = s.wordSt w := by
  obtain ⟨-, hw, hl⟩ := h
  rw [State.wordSt, State.wordSt, hw, hl]

end

/-! ### A remap marks no stack lost (R288, R294) -/

section

variable (s : State) (site loc : Nat)

theorem putBytes_lostStacks (bytes : List Byte) : (s.putBytes site loc bytes).lostStacks = s.lostStacks := by
  unfold State.putBytes
  refine foldl_field State.lostStacks (fun t i => ?_) s _
  unfold State.putLine
  rfl

theorem moveImage_lostStacks (stack : Nat) : (moveImage stack loc s).lostStacks = s.lostStacks := by
  unfold moveImage
  dsimp only
  split
  · rfl
  · exact putBytes_lostStacks ..

theorem retireRequest_lostStacks (kind : Nat) : (retireRequest kind site loc s).lostStacks = s.lostStacks := by
  have retired (t : State) : (retireReserve site loc t).lostStacks = t.lostStacks := by
    unfold retireReserve
    dsimp only
    split
    · rfl
    · split
      · exact moveImage_lostStacks ..
      · rfl
  unfold retireRequest
  dsimp only
  split
  · rfl
  · exact retired _

theorem copyRow_lostStacks (src dst : Nat) : (copyRow src dst s).lostStacks = s.lostStacks := by
  unfold copyRow forgetRow
  refine foldl_field State.lostStacks (fun t i => ?_) s _
  rfl

theorem putRemap_lostStacks (kind spare : Nat) (b : RemapBlock) : (putRemap kind site loc spare b s).lostStacks = s.lostStacks := rfl

theorem noteRemap_lostStacks : (noteRemap site s).lostStacks = s.lostStacks := rfl

theorem remapOne_lostStacks (p : Nat × Nat × Nat) : (remapOne p s).lostStacks = s.lostStacks := by
  obtain ⟨site, bank, row⟩ := p
  unfold remapOne
  dsimp only
  split
  case h_1 =>
    split
    · rfl
    · split
      · rw [retireRequest_lostStacks, putRemap_lostStacks]
      · split
        · rw [retireRequest_lostStacks]
        · rw [putRemap_lostStacks, noteRemap_lostStacks, copyRow_lostStacks]
  case h_2 =>
    split
    · rw [putRemap_lostStacks, noteRemap_lostStacks, copyRow_lostStacks]
    · rw [retireRequest_lostStacks]

theorem p4Row_lostStacks (kind : StartKind) (n : Nat) (f : RowFinding) (p : State × Nat × Nat) :
    (p4Row kind n f p).1.lostStacks = p.1.lostStacks := by
  have remapped := remapOne_lostStacks p.1 (256 * n + f.site % 256, f.bank % 48, f.row % 2048)
  have found (unitC site ix source outcome flags detail : Nat) (log : Option Nat) (t : State) :
      (finding 4 n kind unitC site ix source outcome flags detail log t).lostStacks = t.lostStacks := by
    obtain ⟨-, -, hlost⟩ := (logs_finding 4 n kind unitC site ix source outcome flags detail log t).memory
    exact hlost
  unfold p4Row
  dsimp only
  split
  · exact (found ..).trans remapped
  · exact (found ..).trans remapped

/-- The memory test of a stack ends with its slices cleared; the records it leaves touch no memory. -/
theorem p4Stack_memory (n : Nat) (r : P4Result) (s : State) : ∃ u, n ∉ u.lostStacks
    ∧ SameMemory (clearSites (fun x => x / 256 == n) u) (p4Stack n r s) := by
  let v : State := { clearSites (fun x => x / 256 == n) s with lostStacks := s.lostStacks.filter fun x => x != n }
  refine ⟨(r.rows.foldl (fun p f => p4Row (stkKind s n) n f p) (v, 0, 0)).1, ?_, ?_⟩
  · rw [foldl_field (fun p : State × Nat × Nat => p.1.lostStacks) (fun p f => p4Row_lostStacks ..)]
    simp [v]
  · have logged (t : State) (f : RowFinding) :
        SameMemory t (logFault (dramRec t 1 0 (256 * n + f.site % 256) (f.bank % 48 * 0x400000 + f.row % 2048 * 2048)) t) :=
      ⟨rfl, rfl, rfl⟩
    have failed (t : State) (site : Nat) : SameMemory t (finding 4 n (stkKind s n) 5 (site % 256) 0 2 1 0 0 none
        (raiseBootDrain 1 (256 * n + site % 256) { t with sliceReset := (256 * n + site % 256) :: t.sliceReset })) :=
      SameMemory.trans ⟨rfl, rfl, rfl⟩ (logs_finding ..).memory
    exact (((sameMemory_foldl logged _ r.transient).trans (sameMemory_foldl failed _ r.timingFail)).trans
      (logs_stageRec ..).memory).trans ⟨rfl, rfl, rfl⟩

end

/-! ### P4 to P6 of a stack (R352-R356) -/

section

variable {s : State} {n : Nat}

theorem validScope_of_lt (hn : n < 20) : validScope n = true := by simp [validScope, hn]

/-- P5 of a stack whose quadrants are warm: the cores that fail are bad, and the stack goes on. -/
theorem execStageP5_of {r : P5Result} (hn : n < 20) (hs : s.starting = true) (hc : s.power.coolantStop = false)
    (hv : s.power.vcoreOk = true) (h5 : s.stkCode n % 10 = 5) (hw : ∀ i, i < 4 → s.quadWarm (4 * n + i) = true) :
    ∃ u, execStageP5 n r s = .next (nextStage (setCode n (s.stkCode n + 1) u))
      ∧ (∀ x ∈ r.badCores, 256 * n + x % 256 ∈ u.boot.bad) ∧ u.boot.stk = s.boot.stk := by
  have warm : ((List.range 4).all fun i => s.quadWarm (4 * n + i)) = true :=
    List.all_eq_true.2 fun i hi => hw i (List.mem_range.1 hi)
  refine ⟨_, (unit_of (validScope_of_lt hn)).trans (if_pos (by simp only [hs, hc, hv, h5, warm]; rfl)), fun x hx => ?_, ?_⟩
  · refine List.mem_append_left _ (List.mem_eraseDups.2 (List.mem_append_left _ ?_))
    exact List.mem_map.2 ⟨x, hx, rfl⟩
  · obtain ⟨-, -, hstk, -⟩ := (logs_stageRec ..).plan
    exact hstk

/-- P6 of the device leaves no stack with a stage to run, and moves on to P7, or to P8 where an image is left. -/
theorem p6Device_end (s : State) : ∃ next result bad t, p6Device s = endStage 6 next result 0 5120 bad t
    ∧ (next = 7 ∨ next = 8) ∧ t.boot.stk = [] := by
  have published (c : Bool) (k : Nat) (t : State) : (if c then publishFloor k t else t).boot = t.boot := by cases c <;> rfl
  refine ⟨_, _, _, _, rfl, ite_eq_or_eq .., ?_⟩
  dsimp only
  rw [published]
  rfl

end

end Sys2Proof.Machine

namespace Sys2Proof.Claims

open Sys2Proof Sys2Proof.Machine

/-! ## The obligations of chapter 13 on the stages of a stack -/

/-- Settles O47: the slices of the stack are cleared last, and what follows touches no memory. -/
theorem memoryReadsZeroAfterP4 : Obligations.MemoryReadsZeroAfterP4 := by
  unfold Obligations.MemoryReadsZeroAfterP4
  refine ⟨fun n r s _ a ha => ?_, fun s => ⟨rfl, rfl⟩⟩
  obtain ⟨u, hlost, same⟩ := p4Stack_memory n r s
  rw [same.wordSt, clearSites_wordSt u (by omega) hlost]
  obtain ⟨hdram, -, -⟩ := same
  rw [hdram]
  exact ⟨clearSites_get u ha, rfl⟩

/-- Settles O48, by the condition of each stage and each timeout. -/
theorem stackStagesAndTimeouts : Obligations.StackStagesAndTimeouts := by
  unfold Obligations.StackStagesAndTimeouts
  refine ⟨⟨fun n r s hn hs hc h4 hw => ?p4, fun n r s hn hs hc hv h5 hw => ?p5, fun s hs h6 => ?p6, fun n s hn hs h6 hd => ?stack⟩,
    fun s hs hd => ?device, fun n s hn hs hc hk => ?timeout, fun n s hn hs hd hk hw h7 h12 => ?cold,
    fun q s hq hs hk hw => (unit_of hq).trans (when_of (by simp [hs, hk, hw]))⟩
  case p4 =>
    exact (unit_of (validScope_of_lt hn)).trans ((if_pos (by simp [hs, hc, h4])).trans (if_neg (by simp [hw])))
  case p5 =>
    obtain ⟨u, h, hbad, hstk⟩ := execStageP5_of (r := r) hn hs hc hv h5 hw
    exact ⟨_, u, h, rfl, hbad, by rw [State.stkCode, hstk]; rfl⟩
  case p6 =>
    obtain ⟨next, result, bad, t, h, hnext, hstk⟩ := p6Device_end s
    obtain ⟨-, -, hstk', -⟩ := endStage_plan 6 next result 0 5120 bad t
    have hexec : exec (.stageP6 31) s = .next (p6Device s) :=
      (if_neg (by simp [hs])).trans ((if_pos rfl).trans (when_of (by simp [h6])))
    rw [h] at hexec
    exact ⟨_, hexec, hstk'.trans hstk, hnext, rfl⟩
  case stack =>
    refine (unit_of (validScope_of_lt hn)).trans ((if_neg (by simp [hs])).trans ((if_neg (by omega)).trans (if_pos ?_)))
    simp [h6, hd]
  case device =>
    exact ⟨_, (if_neg (by simp [hs])).trans ((if_pos rfl).trans (if_pos hd)), rfl, rfl⟩
  case timeout =>
    refine (unit_of (validScope_of_lt hn)).trans ((if_neg (by simp [hs])).trans ((if_neg (by omega)).trans (if_pos ?_)))
    simp [hk, hc]
  case cold =>
    exact (unit_of (decide_eq_true hn)).trans (when_of (by simp [hs, hd, hk, hw, h7, h12]))

end Sys2Proof.Claims
end


section
/-! ## SUPPORT and obligations of chapters 13 and 14: a function-level reset, supplies and reference clocks -/

namespace Sys2Proof.Machine

open Sys2Proof

/-! ### A function-level reset (R385) -/

section

variable {s t u : State}

/-- A key that reads as absent has no entry. -/
theorem Tab.key_ne_of_get_none {α : Type} (t : Tab α) {k : Nat} (h : Tab.get t k = none) : ∀ e ∈ t, e.1 ≠ k := by
  induction t with
  | nil => simp
  | cons x t ih =>
    by_cases hx : x.1 = k
    · simp [Tab.get, hx] at h
    · rw [Tab.get, if_neg hx] at h
      intro e he
      rcases List.mem_cons.1 he with rfl | he
      · exact hx
      · exact ih h e he

/-- A session that closes leaves the others; one that is not open changes none. -/
theorem closeSession_sessions (n : Nat) (s : State) : (closeSession n s).sessions = Tab.del s.sessions n := by
  unfold closeSession
  split
  case isTrue h =>
    refine (List.filter_eq_self.2 fun e he => ?_).symm
    exact bne_iff_ne.2 (Tab.key_ne_of_get_none _ (Option.isNone_iff_eq_none.1 h) e he)
  case isFalse => rfl

/-- Sessions that stay open when those of a list close. -/
theorem mem_foldl_closeSession (l : Tab Session) (s : State) (e : Nat × Session) :
    e ∈ (l.foldl (fun t x => closeSession x.1 t) s).sessions ↔ e ∈ s.sessions ∧ ∀ x ∈ l, e.1 ≠ x.1 := by
  induction l generalizing s with
  | nil => simp
  | cons x l ih =>
    rw [List.foldl_cons, ih, closeSession_sessions]
    simp [Tab.del, and_assoc]

/-- The sequencer, the changes accepted, the number of plans and the pins are as they were. -/
def KeptInReset (s t : State) : Prop :=
  t.seqr = s.seqr ∧ t.changes = s.changes ∧ t.plans.length = s.plans.length ∧ t.pins = s.pins

theorem KeptInReset.refl (s : State) : KeptInReset s s := ⟨rfl, rfl, rfl, rfl⟩

theorem KeptInReset.trans (h : KeptInReset s t) (k : KeptInReset t u) : KeptInReset s u := by
  obtain ⟨hs, hc, hp, hn⟩ := h
  obtain ⟨ks, kc, kp, kn⟩ := k
  exact ⟨ks.trans hs, kc.trans hc, kp.trans hp, kn.trans hn⟩

theorem keptInReset_foldl {α : Type} {f : State → α → State} (h : ∀ t x, KeptInReset t (f t x)) (s : State) (l : List α) :
    KeptInReset s (l.foldl f s) := by
  induction l generalizing s with
  | nil => exact .refl s
  | cons x l ih => exact (h s x).trans (ih _)

theorem keptInReset_closeSession (n : Nat) (s : State) : KeptInReset s (closeSession n s) := by
  unfold closeSession
  split
  case isTrue => exact .refl s
  case isFalse => exact ⟨rfl, rfl, List.length_map .., rfl⟩

theorem keptInReset_resetOne (fn : Nat) (s : State) : KeptInReset s (resetOne fn s) :=
  (keptInReset_foldl (fun t (e : Nat × Session) => keptInReset_closeSession e.1 t) s _).trans ⟨rfl, rfl, rfl, rfl⟩

/-- The host port that goes down is down, and a reset of every function keeps the rest. -/
theorem hostDown_keeps (s : State) : (hostDown s).pins.hostUp = false ∧ (hostDown s).seqr = s.seqr
    ∧ (hostDown s).changes = s.changes ∧ (hostDown s).plans.length = s.plans.length := by
  obtain ⟨hseqr, hchanges, hplans, hpins⟩ :=
    keptInReset_foldl (fun t n => keptInReset_resetOne n t) { s with pins := { s.pins with hostUp := false } } (List.range 64)
  have hdown : hostDown s = (List.range 64).foldl (fun t n => resetOne n t) { s with pins := { s.pins with hostUp := false } } := by
    rw [hostDown, resetFunction, if_pos rfl]
  rw [hdown, hpins]
  exact ⟨rfl, hseqr, hchanges, hplans⟩

end

/-! ### TLink ports that go down (R275, R443) -/

section

variable {s : State} {p : Nat}

/-- A port written as up as it was leaves each port as up as it was. -/
theorem portAt_setPort_up {n : Nat} {v : Port} (hv : v.up = (s.portAt n).up) : ((s.setPort n v).portAt p).up = (s.portAt p).up := by
  by_cases h : p = n
  · rw [h, State.portAt_setPort, hv]
  · rw [State.portAt_setPort_other (h := h)]

theorem sendOn_up (port kind : Nat) (k : Packet) (s : State) (p : Nat) : ((sendOn port kind k s).portAt p).up = (s.portAt p).up :=
  portAt_setPort_up (n := port) (v := { s.portAt port with linkSeq := (s.portAt port).linkSeq + 1 }) rfl

theorem resend_up (n : Nat) (x : RingEntry) (s : State) (p : Nat) : ((resend n x s).portAt p).up = (s.portAt p).up := by
  unfold resend
  split
  · rfl
  · exact sendOn_up ..

theorem reroute_up (before s : State) (p : Nat) : ((reroute before s).portAt p).up = (s.portAt p).up := by
  unfold reroute
  refine foldl_field (fun t : State => (t.portAt p).up) (fun t e => ?_) s _
  split
  · exact foldl_field (fun t : State => (t.portAt p).up) (fun t x => resend_up e.1 x t p) t _
  · rfl

theorem sendMgmt_up (s : State) (p : Nat) : ((sendMgmt s).portAt p).up = (s.portAt p).up := by
  unfold sendMgmt
  split
  · rfl
  · exact foldl_field (fun t : State => (t.portAt p).up) (fun t n => sendOn_up ..) s _

theorem portDown_down (s : State) (p q : Nat) (h : p = q ∨ (s.portAt p).up = false) : ((portDown q s).portAt p).up = false := by
  unfold portDown
  split
  case isTrue =>
    rw [sendMgmt_up, reroute_up]
    show ((s.setPort q (s.portAt q).drop).portAt p).up = false
    by_cases hpq : p = q
    · subst hpq
      rw [State.portAt_setPort]
      rfl
    · rw [State.portAt_setPort_other (h := hpq)]
      exact h.resolve_left hpq
  case isFalse hup =>
    rcases h with rfl | h
    · exact Bool.eq_false_of_not_eq_true hup
    · exact h

/-- With every port down none is up. -/
theorem portsDown_down (s : State) (hp : p < 6) : ((portsDown s).portAt p).up = false :=
  foldl_portDown (f := fun t n => portDown n t) (fun t p q => portDown_down t p q) _ s p (.inl (List.mem_range.2 hp))

theorem resend_seqr (n : Nat) (x : RingEntry) (s : State) : (resend n x s).seqr = s.seqr := by
  unfold resend
  split <;> rfl

theorem reroute_seqr (before s : State) : (reroute before s).seqr = s.seqr := by
  unfold reroute
  refine foldl_field State.seqr (fun t e => ?_) s _
  split
  · exact foldl_field State.seqr (fun t x => resend_seqr e.1 x t) t _
  · rfl

theorem sendMgmt_seqr (s : State) : (sendMgmt s).seqr = s.seqr := by
  unfold sendMgmt
  split
  · rfl
  · refine foldl_field State.seqr (fun t n => ?_) s _
    rfl

theorem portsDown_seqr (s : State) : (portsDown s).seqr = s.seqr := by
  unfold portsDown
  refine foldl_field State.seqr (fun t n => ?_) s _
  unfold portDown
  split
  · rw [sendMgmt_seqr, reroute_seqr]
    rfl
  · rfl

end

/-! ### A device that halts in service (R350, R440, R443) -/

/-- A device that halts is halted, with the cause unless it was halted before. -/
theorem haltNow_halted (cause : Nat) (s : State) :
    (haltNow cause s).boot.st = .halted ∧ (s.boot.st ≠ .halted → (haltNow cause s).boot.cause = cause) := by
  unfold haltNow
  split
  case isTrue h => exact ⟨h, fun k => absurd h k⟩
  case isFalse => exact ⟨rfl, fun _ => rfl⟩

end Sys2Proof.Machine

namespace Sys2Proof.Claims

open Sys2Proof Sys2Proof.Machine

/-! ## The obligations of chapters 13 and 14 on resets, supplies and clocks -/

/-- Settles O50: of the sessions those of the function close, and of each list what belongs to its mailboxes goes. -/
theorem functionLevelReset : Obligations.FunctionLevelReset := by
  unfold Obligations.FunctionLevelReset
  refine ⟨fun fn s hv hfn hkeys => ?_, fun s => (unit_of rfl).trans (congrArg Host.Outcome.next (if_pos rfl))⟩
  have hexec : exec (.functionLevelReset fn) s = .next (resetOne fn s) :=
    (unit_of hv).trans (congrArg Host.Outcome.next (if_neg (by omega)))
  obtain ⟨-, hchanges, -, -⟩ := keptInReset_resetOne fn s
  have closed (e : Nat × Session) : e ∈ (resetOne fn s).sessions ↔ e ∈ s.sessions
      ∧ ∀ x ∈ s.sessions.filter fun e => e.2.fn == fn, e.1 ≠ x.1 := mem_foldl_closeSession _ s e
  refine ⟨_, hexec, fun e he hfn => ?mine, fun e he hfn => ?others, fun e he => ?boxes, fun a ha => ?answers, hchanges, ?dram⟩
  case mine =>
    obtain ⟨hmem, hout⟩ := (closed e).1 he
    exact hout e (List.mem_filter.2 ⟨hmem, by simp [hfn]⟩) rfl
  case others =>
    refine (closed e).2 ⟨he, fun x hx hk => hfn ?_⟩
    obtain ⟨hx, hxfn⟩ := List.mem_filter.1 hx
    rw [List.inj_on_of_nodup_map hkeys he hx hk]
    exact eq_of_beq hxfn
  case boxes =>
    obtain ⟨x, -, rfl⟩ := List.mem_map.1 he
    intro hfn
    by_cases hx : x.2.fn = fn
    · simp [hx]
    · simp [hx] at hfn
  case answers =>
    obtain ⟨-, hout⟩ := List.mem_filter.1 ha
    simpa using hout
  case dram =>
    obtain ⟨hdram, -⟩ := keeps_resetOne fn s
    exact hdram

/-- Settles O49, rail by rail and clock by clock. -/
theorem supplyFaultsAndClocks : Obligations.SupplyFaultsAndClocks := by
  unfold Obligations.SupplyFaultsAndClocks
  refine ⟨fun s ho => ?_, fun s ho hl hr => ?sysclk, fun s ho hl => ?pcie, fun s ho hl => ?tlink, fun s ho hl => ?_,
    fun s ho hl => ?_, fun s ho hl => ?_⟩
  · have on : ¬ s.boot.off = true := by simp [ho]
    refine ⟨fun r hr => ?aon, fun h => ?vcore, fun ht hk => ?trip, fun r hr => ?serial, fun ht => ?lasers, fun r hr h => ?halts, ?_, ?_⟩
    case aon => rcases hr with rfl | rfl <;> exact ⟨_, if_neg on, rfl, rfl, rfl, rfl⟩
    case vcore => exact (if_neg on).trans (congrArg Host.Outcome.next (if_pos (by simpa using h)))
    case trip => exact (if_neg on).trans (congrArg Host.Outcome.next (if_neg (by simp [ht, hk])))
    case serial => rcases hr with rfl | rfl <;> exact if_neg on
    case lasers => exact (if_neg on).trans (when_of ht)
    case halts => rcases hr with rfl | rfl | rfl | rfl | rfl <;> exact (if_neg on).trans (when_of h)
    · exact when_of (by simp [ho])
    · exact fun hs => when_of (by simp [ho, hs])
  case sysclk =>
    refine ⟨?_, haltNow_halted 4 s⟩
    exact (if_neg (by simp [ho, hl])).trans (congrArg Host.Outcome.next (if_pos hr))
  case pcie =>
    have hexec : exec (.referenceClockLoss .pcie) s
        = .next (hostDown { s with boot := { s.boot with lostClocks := .pcie :: s.boot.lostClocks } }) := if_neg (by simp [ho, hl])
    obtain ⟨hup, hseqr, hchanges, hplans⟩ := hostDown_keeps { s with boot := { s.boot with lostClocks := .pcie :: s.boot.lostClocks } }
    exact ⟨_, hexec, hup, hplans, hseqr, hchanges⟩
  case tlink =>
    have hexec : exec (.referenceClockLoss .tlink) s
        = .next (portsDown { s with boot := { s.boot with lostClocks := .tlink :: s.boot.lostClocks } }) := if_neg (by simp [ho, hl])
    refine ⟨_, hexec, fun p hp => portsDown_down _ hp, ?_⟩
    rw [portsDown_seqr]
  · exact when_of (by simp [ho, hl])
  · exact when_of (by simp [ho, hl])
  · exact when_of (by simp [ho, hl])

end Sys2Proof.Claims
end
